-- ==== Sys2Proof/Word.lean ====
section
/-! DEFINITION. The machine words of the manual: bit vectors for what it treats as bits (R7: bit 0 is the least significant bit). -/
namespace Sys2Proof

abbrev Byte := BitVec 8
abbrev Word16 := BitVec 16
abbrev Word32 := BitVec 32
abbrev Word64 := BitVec 64

end Sys2Proof
end

