-- ==== Sys2Proof/Machine/Bits.lean ====
section
/-! DEFINITION. Little-endian byte lists (R7), bit fields of register words, saturating counts,
and the one sparse-table form in which the model keeps every large array. -/
namespace Sys2Proof

/-- The `n` bytes of `v`, lowest first (R7). -/
def leBytes : Nat → Nat → List Byte
  | 0, _ => []
  | n + 1, v => BitVec.ofNat 8 v :: leBytes n (v / 256)

/-- The value of a little-endian byte list (R7). -/
def ofLe : List Byte → Nat
  | [] => 0
  | b :: bs => b.toNat + 256 * ofLe bs

/-- The bytes `off` to `off + n − 1` of a list, 0 where the list has ended. -/
def sliceBytes (bs : List Byte) (off n : Nat) : List Byte :=
  let t := (bs.drop off).take n
  t ++ List.replicate (n - t.length) 0

/-- The little-endian field of `n` bytes at `off`. -/
def leAt (bs : List Byte) (off n : Nat) : Nat := ofLe ((bs.drop off).take n)

/-- The byte at `off`, 0 past the end. -/
def byteAt (bs : List Byte) (off : Nat) : Byte := bs.getD off 0

/-- Every byte of `[off, off + n)` is 0. -/
def zeroAt (bs : List Byte) (off n : Nat) : Bool := ((bs.drop off).take n).all (· == 0)

/-- Bits `[lo + w − 1 : lo]` of a number. -/
def bitsAt (v lo w : Nat) : Nat := (v >>> lo) % 2 ^ w

/-- Bit `i` of a number. -/
def bitAt (v i : Nat) : Bool := (v >>> i) % 2 == 1

/-- A field value placed at bit `lo`. -/
def place (v lo : Nat) : Nat := v <<< lo

def bit (b : Bool) (lo : Nat) : Nat := if b then 2 ^ lo else 0

/-- A list of truth values as a bit mask, element 0 in bit 0. -/
def maskOf : List Bool → Nat
  | [] => 0
  | b :: bs => b.toNat + 2 * maskOf bs

/-- A count that saturates at `2 ^ w − 1`. -/
def satAdd (w : Nat) (a b : Nat) : Nat := Nat.min (a + b) (2 ^ w - 1)

/-- A number read as a two's-complement integer of `w` bits. -/
def toSigned (w v : Nat) : Int :=
  let u := v % 2 ^ w
  if u < 2 ^ (w - 1) then (u : Int) else (u : Int) - ((2 ^ w : Nat) : Int)

/-- The two's-complement pattern of `w` bits of an integer. -/
def ofSigned (w : Nat) (i : Int) : Nat := (i % ((2 ^ w : Nat) : Int)).toNat

/-- The masked store of a register write: bits of `m` take `v`, the others keep `old` (R622, R12). -/
def maskWrite (old v m : Nat) : Nat := (old &&& (old ^^^ m)) ||| (v &&& m)

/-- The bytes of a label. -/
def asciiBytes (x : String) : List Byte := x.toList.map fun c => BitVec.ofNat 8 c.toNat

/-- Replaces the elements from position `off` on by those of `new`. -/
def spliceBytes (bs : List Byte) (off : Nat) (new : List Byte) : List Byte :=
  bs.take off ++ new ++ bs.drop (off + new.length)

/-- Updates element `i` of a list. -/
def modAt (l : List α) (i : Nat) (f : α → α) : List α := l.modify i f

/-- Element-wise test at an index. -/
def nthBool (l : List Bool) (i : Nat) : Bool := l.getD i false

/-- A table over keys of a fixed number of bits, least significant bit first. -/
inductive Trie (α : Type) where
  | none
  | leaf (v : α)
  | node (l r : Trie α)

def Trie.get : Nat → Trie α → Nat → Option α
  | 0, .leaf v, _ => some v
  | n + 1, .node l r, k => Trie.get n (if k % 2 = 0 then l else r) (k / 2)
  | _, _, _ => Option.none

def Trie.set : Nat → Trie α → Nat → α → Trie α
  | 0, _, _, v => .leaf v
  | n + 1, .node l r, k, v => if k % 2 = 0 then .node (Trie.set n l (k / 2) v) r else .node l (Trie.set n r (k / 2) v)
  | n + 1, _, k, v => if k % 2 = 0 then .node (Trie.set n .none (k / 2) v) .none else .node .none (Trie.set n .none (k / 2) v)

/-- A large array as the list of its entries that differ from a default, keys strictly rising. -/
structure Sparse (α : Type) where
  cells : List (Nat × α)
  deriving DecidableEq, Repr

def Sparse.empty : Sparse α := ⟨[]⟩

def Sparse.lookup : List (Nat × α) → Nat → Option α
  | [], _ => none
  | (j, v) :: m, k => if j = k then some v else Sparse.lookup m k

def Sparse.insertCell : List (Nat × α) → Nat → α → List (Nat × α)
  | [], k, v => [(k, v)]
  | (j, w) :: m, k, v =>
    if k < j then (k, v) :: (j, w) :: m
    else if k = j then (k, v) :: m
    else (j, w) :: Sparse.insertCell m k v

def Sparse.eraseCell : List (Nat × α) → Nat → List (Nat × α)
  | [], _ => []
  | (j, w) :: m, k => if j = k then Sparse.eraseCell m k else (j, w) :: Sparse.eraseCell m k

/-- The entry at `k`, the default `d` where none is listed. -/
def Sparse.get (m : Sparse α) (d : α) (k : Nat) : α := (Sparse.lookup m.cells k).getD d

/-- Writes the entry at `k`; an entry equal to the default is not listed. -/
def Sparse.set [DecidableEq α] (m : Sparse α) (d : α) (k : Nat) (v : α) : Sparse α :=
  if v = d then ⟨Sparse.eraseCell m.cells k⟩ else ⟨Sparse.insertCell m.cells k v⟩

def Sparse.modify [DecidableEq α] (m : Sparse α) (d : α) (k : Nat) (f : α → α) : Sparse α :=
  m.set d k (f (m.get d k))

/-- Applies `f` to every listed entry, and drops what becomes the default. -/
def Sparse.mapCells [DecidableEq α] (m : Sparse α) (d : α) (f : Nat → α → α) : Sparse α :=
  ⟨(m.cells.map fun c => (c.1, f c.1 c.2)).filter fun c => c.2 ≠ d⟩

/-- Keeps the listed entries that satisfy `p`. -/
def Sparse.filterCells (m : Sparse α) (p : Nat → α → Bool) : Sparse α :=
  ⟨m.cells.filter fun c => p c.1 c.2⟩

def Sparse.keysRise : List (Nat × α) → Bool
  | [] => true
  | [_] => true
  | (a, _) :: (b, w) :: m => decide (a < b) && Sparse.keysRise ((b, w) :: m)

/-- The canonical form: keys strictly rising, no entry equal to the default. -/
def Sparse.wf [DecidableEq α] (m : Sparse α) (d : α) : Bool :=
  Sparse.keysRise m.cells && m.cells.all fun c => decide (c.2 ≠ d)

/-- Reads `n` consecutive bytes of a byte array whose unlisted bytes are `d`. -/
def Sparse.readBytes (m : Sparse Byte) (d : Byte) (a : Nat) : Nat → List Byte
  | 0 => []
  | n + 1 => m.get d a :: Sparse.readBytes m d (a + 1) n

/-- Writes consecutive bytes. -/
def Sparse.writeBytes (m : Sparse Byte) (d : Byte) (a : Nat) : List Byte → Sparse Byte
  | [] => m
  | b :: bs => Sparse.writeBytes (m.set d a b) d (a + 1) bs

/-- Writes the bytes whose enable is set. -/
def Sparse.writeMasked (m : Sparse Byte) (d : Byte) (a : Nat) : List (Byte × Bool) → Sparse Byte
  | [] => m
  | (b, e) :: bs => Sparse.writeMasked (if e then m.set d a b else m) d (a + 1) bs

/-- The array with every byte of `[a, a + n)` back at the default. -/
def Sparse.clearRange (m : Sparse α) (a n : Nat) : Sparse α :=
  m.filterCells fun k _ => decide (k < a) || decide (a + n ≤ k)

end Sys2Proof
end

