-- ==== Sys2Proof/Types.lean ====
section
/-! DEFINITION. The names and operand types shared by the commands (Syntax.lean) and the state. -/
namespace Sys2Proof

/-! ## Identifiers (R24) -/

abbrev BedId := Fin 384
abbrev CoreId := Fin 128
abbrev LaneId := Fin 512
abbrev QuadId := Fin 128
abbrev EngineId := Fin 64
abbrev ChanId := Fin 24
abbrev LinkId := Fin 14
abbrev DieId := Fin 8
abbrev PlotId := Fin 16
abbrev TbId := Fin 8
abbrev BankId := Fin 16
abbrev RegionId := Fin 1024
/-- The 12-bit initiator ID of R239. -/
abbrev InitId := BitVec 12

/-- The macros that sit in a digital shell (R36). The spec gives no register window of the PUF, and none of the voltage and clock
sensors (die 0 to 8, 8 the hub) and of the 144 temperature sensors (die × 16 + sensor, R498, R618). -/
inductive ShellId where
  | gen (b : BedId)
  | pma (l : LaneId)
  | phy (c : ChanId)
  | gpio (g : BankId)
  | puf
  | volt (d : Fin 9)
  | clk (d : Fin 9)
  | temp (t : Fin 144)
  deriving DecidableEq, Repr

/-- Shell states (STAT.STATE, R36, R37). -/
inductive ShellSt where
  | idle | starting | active | stopping | fault
  deriving DecidableEq, Repr

/-! ## Fault sources (R527) and reports -/

inductive Source where
  | device
  | die (d : DieId)
  | hub (u : Fin 16)
  | channel (c : ChanId)
  | link (l : LinkId)
  | plot (p : PlotId)
  | bed (b : BedId)
  | core (c : CoreId)
  | lane (l : LaneId)
  | region (r : RegionId)
  | init (i : InitId)
  deriving DecidableEq, Repr

/-- One fault report (R527, R536, R537). -/
structure Report where
  src    : Source
  cls    : Fin 5
  cause  : Byte
  detail : Word64
  time   : Nat
  deriving DecidableEq, Repr

/-- What reaches a collector (R530 to R533): the oldest report that waits; the report on a die's FREPORT line, at the central
collector; or an error in the central collector's own registers, corrected or not. -/
inductive CollectorIn where
  | waiting
  | line (d : DieId)
  | selfCorr
  | selfFault
  deriving DecidableEq, Repr

/-! ## Trellis (R241 to R246) -/

/-- ATYPE of R245; every other value is reserved (R244). -/
inductive AtType where
  | xload | xstore | fetchAdd | swap | cas
  | reserved (code : BitVec 4)
  deriving DecidableEq, Repr

/-- OPC of a request (R243); values that are neither these nor a response's are reserved (R244). -/
inductive Opc where
  | read | write | pwrite | atomic
  | reserved (code : BitVec 4)
  deriving DecidableEq, Repr

/-- What an initiator presents, or the network carries, in one request: R242 without the fields
that the stop writes. `tag` names a request already in the network; `none` is a new one. A new one that `enters` goes no further
than its stop's queue; `odd` is the OPC and ATYPE that a bed's user logic presents in place of the row's. -/
structure TrlReq where
  init : InitId
  tag  : Option (BitVec 10)
  enters : Bool
  odd  : Option (BitVec 4 × BitVec 4)
  addr : BitVec 48
  len  : BitVec 2
  bcnt : BitVec 8
  data : List Byte
  opA  : Word64
  opB  : Word64
  deriving DecidableEq, Repr

/-- A request in the network or at its target, with the fields of R242. -/
structure Pkt where
  opc   : Opc
  atype : AtType
  init  : InitId
  plot  : PlotId
  pri   : BitVec 2
  tag   : BitVec 10
  gen   : BitVec 2
  addr  : BitVec 48
  len   : BitVec 2
  bcnt  : BitVec 8
  stamp : Byte
  dbg   : Bool
  data  : List Byte
  opA   : Word64
  opB   : Word64
  deriving DecidableEq, Repr

/-- A response on its way to its initiator (R242, R243). -/
structure Rsp where
  req   : Pkt
  rcode : Byte
  data  : List Byte
  deriving DecidableEq, Repr

/-- A packet: a request or a response (R241). -/
inductive Parcel where
  | req (p : Pkt)
  | rsp (r : Rsp)
  deriving DecidableEq, Repr

/-- What a bed's user logic does with a request in its target window (R30): accepts it, or answers it. -/
inductive UserLogic where
  | accept
  | answer (rcode : Byte) (data : List Byte)
  deriving DecidableEq, Repr

/-- The response bits by which an initiator's stop matches a response (R254, R257). -/
structure RspKey where
  init : InitId
  tag  : BitVec 10
  gen  : BitVec 2
  deriving DecidableEq, Repr

/-- Where a bridge stands: on a compute die (its hub bridge or neighbour bridges) or on the hub. -/
inductive Site where
  | die (d : DieId)
  | hub
  deriving DecidableEq, Repr

/-! ## Die links (R334, R338, R346) -/

/-- A sideband message: bits [7:4] and [47:8], and the CRC received on each of the two groups. -/
structure SbMsg where
  sub  : BitVec 4
  body : BitVec 40
  crc0 : Word16
  crc1 : Word16
  deriving DecidableEq, Repr

/-- A wire of a strand: link direction, strand, wire 0 to 31 data, 32 FW, 33 SP0, 34 SP1, 35 CK. -/
structure WireRef where
  dir    : Fin 2
  strand : Fin 16
  wire   : Fin 36
  deriving DecidableEq, Repr

/-- What training finds on a link (R352): the sideband groups that failed (direction * 2 + group), the faulty wires, and
the strands that fail training. -/
structure LinkTrain where
  groups : List (Fin 4)
  wires  : List WireRef
  failed : List (Fin 2 × Fin 16)
  deriving DecidableEq, Repr

/-! ## LPDDR6 reads (R289, R290, R314) -/

/-- Class of a burst or line (R290), in rising gravity. -/
inductive BurstCls where
  | clean | corrected | address | uncorrectable
  deriving DecidableEq, Repr

/-- What the channel found in one burst: the number of symbols in error, the position of a single one, and the class that
four or more give. -/
structure Burst where
  errs  : Nat
  pos   : Fin 40
  many  : BurstCls
  deriving DecidableEq, Repr

/-- A channel whose retraining passes, and the width of the eye that it finds (R287, R293). -/
structure Retrained where
  ch  : ChanId
  eye : Word16
  deriving DecidableEq, Repr

/-- The outcome of start-up training of a channel (R269). -/
inductive ChanTrain where
  | absent
  | failed
  | fitted (two : Bool) (rate : Fin 5) (density : Fin 4) (eye : Word16)
  deriving DecidableEq, Repr

/-- A line that a channel returns with errors or altered: its device address over 64, its bursts, and the bytes of a burst that comes
altered. -/
structure FoundLine where
  dline : Nat
  b0    : Burst
  b1    : Burst
  w0    : Option (List Byte)
  w1    : Option (List Byte)
  deriving DecidableEq, Repr

/-- The host's answer to a snoop of a line: dirty data, and whether it keeps a clean copy (R411). -/
structure SnoopAnswer where
  line   : Nat
  dirty  : Option (List Byte)
  shared : Bool
  deriving DecidableEq, Repr

/-- What a transfer of an engine or the loader meets outside the block: an error response that the network or a target
gives to its first access; the bytes that hosts and the user logic of beds return for its reads, in order; the lines that the
channels do not return clean; and the host's answers to snoops. -/
structure NetIn where
  fail   : Option Byte
  host   : List Byte
  lines  : List FoundLine
  snoops : List SnoopAnswer
  deriving DecidableEq, Repr

/-- Nothing outside the block answers with an error, and no line comes otherwise than it is stored. -/
def NetIn.calm : NetIn := { fail := none, host := [], lines := [], snoops := [] }

/-- What the PCS reports: alignment, faults, FEC lock, and codewords corrected and uncorrectable since the last report. -/
structure PcsReport where
  aligned : Bool
  local'  : Bool
  remote  : Bool
  fecLock : Bool
  corr    : Word32
  unc     : Word32
  deriving DecidableEq, Repr

/-- A fault that a self-test finds (R556, R572): the unit (kind and index), and the KIND and ELEMENT of the record that
repairs it; KIND 0 has no spare. `mem` is the memory of a bed. -/
structure Finding where
  unit    : Fin 7
  index   : Fin 512
  kind    : Fin 7
  mem     : Fin 48
  element : Word16
  deriving DecidableEq, Repr

/-- What an upset or a decoder fault hits (R148, R149, R533): a stored bit of a byte (0 to 7 data, 8 to 13 check bits), an address
line of an array, a word on a ring, or a register of the central collector. -/
inductive Upset where
  /-- A 64-bit word of the flit that stands at a position of a ring (R235): the rings of a die, or 8 for the spine. -/
  | ring (site : Fin 9) (ring : Fin 8) (pos : Fin 76) (double : Bool)
  /-- A phase of the mask of a tap of a length-16 line of a bed (R87, R90). -/
  | tap (bed : BedId) (vert : Bool) (index : Fin 16) (line : Fin 4) (i : Fin 22) (phase : Fin 4)
  | bit (cls : Fin 7) (idx : Fin 18432) (off : Nat) (pos : Fin 14)
  | decoder (cls : Fin 7) (idx : Fin 18432) (line : Fin 25) (stuck : Bool)
  | collector (correctable : Bool)
  deriving DecidableEq, Repr

/-- An array whose checker fails the self-test of R150: class and index (R143). -/
structure CheckerFail where
  cls : Fin 7
  idx : Fin 18432
  deriving DecidableEq, Repr

/-! ## CXL (R332, R410, R413, R416) -/

/-- What a host writes in the configuration space or MSI-X table of a logical device. -/
inductive CfgSpace where
  | cacheEnable (on : Bool)
  /-- Decoder k: off, or a host range, first device address, ways and granularity. -/
  | decoder (k : Fin 4) (on : Bool) (base size dpa ways gran : Nat)
  | msixControl (enable mask : Bool)
  | msixEntry (v : Fin 128) (mask : Bool) (addr : Word64) (data : Word32)
  deriving DecidableEq, Repr

/-- Key management messages of an IDE stream. -/
inductive IdeOp where
  | program (key : List Byte)
  | go
  | stop
  deriving DecidableEq, Repr

/-! ## Register accesses (R9, R10) -/

/-- A register access by an initiator. The size is in bytes; the data is its little-endian value. -/
structure CsrAcc where
  init : InitId
  addr : BitVec 48
  size : Nat
  data : Word64
  deriving DecidableEq, Repr

/-! ## Management transports (R423) and packets (R420) -/

inductive Inst where
  | mailbox (ld : PlotId)
  | doe (ld : PlotId)
  | serial
  | parallel
  | jtag
  | fabric (p : PlotId)
  deriving DecidableEq, Repr

/-- A command packet without its opcode, which the row names. -/
structure Packet where
  flags   : Word16
  seq     : Word32
  plot    : Byte
  rsvd    : Byte
  plen    : Word16
  session : Word32
  mac     : List Byte
  payload : List Byte
  deriving DecidableEq, Repr

/-! ## Fabric -/

/-- A word cell: bed, cluster (logical row * 16 + logical column), cell of the cluster (R46, R77). -/
structure CellRef where
  bed     : BedId
  cluster : Fin 256
  cell    : Fin 16
  deriving DecidableEq, Repr

/-- The fields of a micro-instruction beside its OP (R52). -/
structure Micro where
  sa   : BitVec 4
  sb   : BitVec 4
  dst  : BitVec 3
  ci   : BitVec 2
  cnd  : BitVec 3
  osel : BitVec 2
  k    : Byte
  deriving DecidableEq, Repr

/-- A channel end on a bed: side 0 = N, 1 = E, 2 = S, 3 = W, channel 0 to 63 (R84, R132). -/
structure BedEnd where
  bed  : BedId
  side : Fin 4
  ch   : Fin 64
  deriving DecidableEq, Repr

/-- The four streams of a Fraelm core (R110). -/
inductive Stream where
  | lIn | lOut | uIn | uOut
  deriving DecidableEq, Repr

/-- A channel end: on a bed, or a stream of a core. -/
inductive ChanEnd where
  | bed (e : BedEnd)
  | core (c : CoreId) (st : Stream)
  deriving DecidableEq, Repr

end Sys2Proof
end

