-- ==== Sys2Proof/Syntax.lean ====
section
/-! DEFINITION. The commands of the block: one constructor for each row of the command table, in its order. -/
namespace Sys2Proof

/-- The commands of the block: one constructor for each row of the table. DESIGN CHOICE (log 126). -/
inductive Instr where
  /-- A low of 10 µs or more on POR_N is a power-on reset; its release starts the checker self-test, the SRAM fill, link
  training and the sampling of CFG_MODE (R603). -/
  | porN (mode : BitVec 3) (xref : List (Fin 5))
  /-- A low of 10 µs or more on SYS_RESET_N requests a device reset, which runs start-up again while keeping device time, the
  policy floor and the retention SRAM (R604). -/
  | sysResetN (xref : List (Fin 5))
  /-- AUTO_RESET seconds spent in FATAL expire, and the device starts a device reset (R545). -/
  | autoReset
  /-- VCCAUX is removed, which is the only way out of C4 (R547). -/
  | vccauxRemoval (stby : Bool) (probe : Bool)
  /-- The debug island's supply rises after all three sources were absent, which resets the TAP, ends any session and fills the
  retention SRAM (R576). -/
  | islandReset (aux : Bool) (stby : Bool) (probe : Bool)
  /-- The start-up checker self-test ends, and failing arrays are marked unusable or stop start-up (R150). -/
  | checkerSelfTestComplete (bad : List CheckerFail)
  /-- The on-chip SRAM fill ends on every die, and the management cores leave reset once link training has also ended (R151).
  -/
  | sramFillComplete (screen : List Finding)
  /-- DK reconstruction from the PUF completes or fails its check digest, and the keys of R482 are derived (R480). -/
  | pufReconstructionComplete (ok : Bool)
  /-- A regulator acknowledges its AVSBus setpoint, after which that die's beds may be clocked (R601). -/
  | avsbusSetpointAck (die : DieId)
  /-- A rail gives no acknowledgement within 1 ms, and start-up stops with ERR_N driven as for C3 (R601). -/
  | avsbusAckTimeout (die : DieId)
  /-- In service the device moves a die's setpoint by at most 10 mV per 10 ms as die temperature changes (R601). -/
  | avsSetpointAdjust (die : DieId) (mv : Nat)
  /-- Die-link training ends, giving the sideband, the CAP exchange, grafts and the effective capability word (R352). -/
  | linkTrainingComplete (found : List LinkTrain)
  /-- Start-up training of LPDDR6 ends, channels are classified, and window 0, the Region Table area, the staging region and
  the save region are placed before the device enters READY (R282). -/
  | startUpTrainingComplete (chans : List ChanTrain)
  /-- A write to a shell's CTL stores EN and MSPEC, and the shell state machine evaluates it as its state allows (R37). -/
  | shellCtlWrite (init : InitId) (id : ShellId) (v : Word32)
  /-- Writing CAL.START starts a calibration of kind KIND, or is refused with RESULT 3 outside ACTIVE (R39). -/
  | calStart (init : InitId) (id : ShellId) (kind : BitVec 3) (cont : Bool)
  /-- A running calibration ends, and START clears and RESULT is set (R39). -/
  | calibrationComplete (id : ShellId) (pass : Bool) (lat : Word32) (eye : BitVec 24)
  /-- A shell's start sequence completes and it enters ACTIVE, or it returns to IDLE when the macro is found absent (R37). -/
  | shellStartComplete (id : ShellId) (found : Bool) (v : BitVec 24)
  /-- A shell's stop sequence completes and it enters IDLE, where it samples any pending enable (R37). -/
  | shellStopComplete (id : ShellId)
  /-- A macro fault sends its shell to FAULT, which raises a fault and drives the macro's outputs to their safe condition
  (R40). -/
  | shellMacroFault (id : ShellId)
  /-- A macro takes a new measurement into MEAS and increments SEQ (R36). -/
  | shellMeasurement (id : ShellId) (v : BitVec 24)
  /-- A write to a register that has no row of its own is checked for size, alignment and ownership and then stored according
  to its access codes, with an almanac record where R515 applies (R9). -/
  | csrWrite (acc : CsrAcc)
  /-- A 32-bit read of a half of a 64-bit register latches the upper half, or returns the latched upper half, for the initiator
  (R10). -/
  | halfRead (init : InitId) (addr : BitVec 48)
  /-- A read of TB_NOW latches the matching SEC into TB_SEC (R403). -/
  | tbNowRead (init : InitId) (tb : TbId) (whole : Bool)
  /-- The word-cell micro-instruction HOLD produces 0 and writes no register (R54). -/
  | cellHold (cell : CellRef) (m : Micro)
  /-- The word-cell micro-instruction PASS gives A as its result (R54). -/
  | cellPass (cell : CellRef) (m : Micro)
  /-- The word-cell micro-instruction ADD computes A + B and loads CL with the carry (R54). -/
  | cellAdd (cell : CellRef) (m : Micro)
  /-- The word-cell micro-instruction ADDC computes A + B + cin and loads CL with the carry (R54). -/
  | cellAddc (cell : CellRef) (m : Micro)
  /-- The word-cell micro-instruction SUB computes A + ~B + 1 and loads CL with the carry (R54). -/
  | cellSub (cell : CellRef) (m : Micro)
  /-- The word-cell micro-instruction SUBC computes A + ~B + cin and loads CL with the carry (R54). -/
  | cellSubc (cell : CellRef) (m : Micro)
  /-- The word-cell micro-instruction CMP gives all ones when the CND condition holds, with a chainable carry output (R57). -/
  | cellCmp (cell : CellRef) (m : Micro)
  /-- The word-cell micro-instruction MULS adds a byte product to the accumulator that CI selects (R56). -/
  | cellMuls (cell : CellRef) (m : Micro)
  /-- The word-cell micro-instruction AND gives A & B (R54). -/
  | cellAnd (cell : CellRef) (m : Micro)
  /-- The word-cell micro-instruction OR gives A | B (R54). -/
  | cellOr (cell : CellRef) (m : Micro)
  /-- The word-cell micro-instruction XOR gives A ^ B (R54). -/
  | cellXor (cell : CellRef) (m : Micro)
  /-- The word-cell micro-instruction SEL merges A and B under the mask that CI selects (R55). -/
  | cellSel (cell : CellRef) (m : Micro)
  /-- The word-cell micro-instruction SHL shifts A left by n (R54). -/
  | cellShl (cell : CellRef) (m : Micro)
  /-- The word-cell micro-instruction SHR shifts A right by n, logically (R54). -/
  | cellShr (cell : CellRef) (m : Micro)
  /-- The word-cell micro-instruction SRA shifts A right by n, arithmetically (R54). -/
  | cellSra (cell : CellRef) (m : Micro)
  /-- The word-cell micro-instruction ROL rotates A left by n (R54). -/
  | cellRol (cell : CellRef) (m : Micro)
  /-- A waiting user-cycle boundary completes: it captures outgoing tokens and levels and takes incoming tokens into the
  arrival registers (R113). -/
  | boundaryComplete (bed : BedId)
  /-- A READBACK or debug freeze holds the bed clock at the end of the user cycle in progress, and the bed becomes PAUSED
  (R102). -/
  | bedPauseTaken (bed : BedId) (fail : Option Byte)
  /-- A token reaches the head of a receive FIFO after its path latency and synchronisation, which may complete a waiting
  boundary or a stream access (R124). -/
  | tokenArrival (src : ChanEnd)
  /-- A level-channel update arrives and replaces the receiver's most recently received value (R127). -/
  | levelUpdateArrival (loc : BedEnd)
  /-- A credit return for a channel that crosses dies reaches the sender and restores credits (R127). -/
  | creditReturn (loc : BedEnd)
  /-- A boundary wait outlasts WAIT_LIMIT, which sets ALARM and raises a C0 note (R123). -/
  | borderWaitAlarm (bed : BedId)
  /-- A replica-path margin sensor raises a flag, and the stretch step rises, so that later edges are placed by the longer
  period (R98). -/
  | marginFlag (bed : BedId) (late : Bool)
  /-- RECOVER consecutive unflagged micro-cycles end, and the stretch step falls by one (R98). -/
  | stretchRecover (bed : BedId)
  /-- The stretch step has stayed at MAX for 1,024 flagged micro-cycles, which sets SAT and reports clock margin to the policy
  engine (R98). -/
  | stretchSaturated (bed : BedId)
  /-- A write to THROTTLE sets STEP, which takes effect at the next user-cycle start and is recorded (R99). -/
  | throttle (init : InitId) (bed : BedId) (step : BitVec 4)
  /-- A LOCKED generator loses lock, holds its frequency, clears MSTAT.LOCK, raises C1 and relocks (R100). -/
  | lockLost (bed : BedId)
  /-- A LOCKED generator that lost lock relocks without software action (R100). -/
  | lockRegained (bed : BedId)
  /-- A LOCKED generator fails to lock by the STARTING maximum and enters FAULT from STARTING (R100). -/
  | generatorLockTimeout (bed : BedId)
  /-- The contention sensor finds two taps driving a length-16 line, disables them, records CONTENTION and raises C2 (R90). -/
  | lineContention (bed : BedId)
  /-- A write to BM_INJECT arms or disarms an error injection into the next port A write of a block memory (R159). -/
  | bmInject (init : InitId) (bed : BedId) (v : Word32)
  /-- The RAKE command starts a REPORT or REPAIR pass of the rake over a range of one array (R152). -/
  | rake (inst : Inst) (pkt : Packet)
  /-- A block-memory word finds no slot within 1 ms, and it is skipped and counted (R154). -/
  | rakeWordSkip (cls : Fin 7) (idx : Fin 18432)
  /-- No slot has been granted to the rake for 10 µs, and the arbiter grants one at the highest priority (R154). -/
  | rakePriorityBoost (cls : Fin 7) (idx : Fin 18432)
  /-- A rake pass ends or aborts, raises its faults and replies with its summary record (R156). -/
  | rakePassEnd (cls : Fin 7) (idx : Fin 18432)
  /-- A write to CORE_CTL.EN starts or stops a Fraelm core through the shell state machine (R192). -/
  | coreCtl (init : InitId) (core : CoreId) (en : Bool)
  /-- The 4-cycle STARTING of a core ends after clearing state and loading BOOT, and the core becomes ACTIVE (R192). -/
  | coreStartComplete (core : CoreId)
  /-- A stopping core's DMA responses and stream buffers drain, and it enters IDLE (R192). -/
  | coreStopComplete (core : CoreId)
  /-- A pending enabled interrupt is taken at an allowed boundary: the banks swap, IRA, IPSTAT and ISTAT are set and the core
  jumps to the vector (R185). -/
  | interruptEntry (core : CoreId)
  /-- A source with its IEN bit set pends while the core waits in WFI, and issue resumes (R217). -/
  | wfiWake (core : CoreId)
  /-- The core timer count moves from 1 to 0, source 0 pends, and the count reloads if PERIODIC (R193). -/
  | timer (core : CoreId)
  /-- A write to TIMER_LOAD also loads TIMER_COUNT (R193). -/
  | timerLoad (init : InitId) (core : CoreId) (v : Word32)
  /-- The watchdog count moves from 1 to 0, which either warns and enters the second stage or resets the core (R195). -/
  | wdtExpiry (core : CoreId)
  /-- A write to WDT_SERVICE of 0x0000_5AFE reloads the watchdog, and any other value counts as an expiry (R194). -/
  | wdtService (init : InitId) (core : CoreId) (v : Word32)
  /-- Writing 1 to a DOORBELL bit makes interrupt source 16 + b pend (R183). -/
  | doorbell (init : InitId) (core : CoreId) (v : Word16)
  /-- Writing STREAM_CTL.CLR while the core is IDLE discards the tokens held in its inbound FIFOs (R203). -/
  | streamCtlClr (init : InitId) (core : CoreId) (enL : Bool) (enU : Bool) (tmo : Word16)
  /-- Writing DMA_CTL.START starts a DMA transfer, or refuses it and sets REFUSED (R199). -/
  | dmaStart (init : InitId) (core : CoreId) (ch : Fin 2) (smode : BitVec 3) (irq : Bool)
  /-- A DMA channel's transfer completes with all writes performed, which sets DONE and may raise its interrupt (R199). -/
  | dmaDone (core : CoreId) (ch : Fin 2)
  /-- A stream access stalled for a token or a free entry proceeds once one becomes available (R202). -/
  | streamStallEnd (core : CoreId)
  /-- A stream access stall exceeds STREAM_CTL.TMO × 1,024 cycles, and the STREAM_TMO exception is raised (R202). -/
  | streamTmo (core : CoreId)
  /-- The NOP syllable does nothing in any slot (R206). -/
  | nop (core : CoreId) (slot : Fin 4)
  /-- VMOV copies Va into Vd (R213). -/
  | vmov (core : CoreId) (vx1 : Bool) (grd : BitVec 5) (vd : BitVec 6) (va : BitVec 6) (vb : BitVec 6) (t : BitVec 3)
  /-- VBCST broadcasts a scalar into every lane of Vd (R213). -/
  | vbcst (core : CoreId) (vx1 : Bool) (grd : BitVec 5) (vd : BitVec 6) (va : BitVec 6) (vb : BitVec 6) (t : BitVec 3)
  /-- VSEL selects Va or Vb per lane under the guard predicate (R213). -/
  | vsel (core : CoreId) (vx1 : Bool) (grd : BitVec 5) (vd : BitVec 6) (va : BitVec 6) (vb : BitVec 6) (t : BitVec 3)
  /-- VAND gives the bitwise AND of two vectors (R213). -/
  | vand (core : CoreId) (vx1 : Bool) (grd : BitVec 5) (vd : BitVec 6) (va : BitVec 6) (vb : BitVec 6) (t : BitVec 3)
  /-- VOR gives the bitwise OR of two vectors (R213). -/
  | vor (core : CoreId) (vx1 : Bool) (grd : BitVec 5) (vd : BitVec 6) (va : BitVec 6) (vb : BitVec 6) (t : BitVec 3)
  /-- VXOR gives the bitwise XOR of two vectors (R213). -/
  | vxor (core : CoreId) (vx1 : Bool) (grd : BitVec 5) (vd : BitVec 6) (va : BitVec 6) (vb : BitVec 6) (t : BitVec 3)
  /-- VANDN gives Va & ~Vb (R213). -/
  | vandn (core : CoreId) (vx1 : Bool) (grd : BitVec 5) (vd : BitVec 6) (va : BitVec 6) (vb : BitVec 6) (t : BitVec 3)
  /-- VADD adds two vectors lane by lane (R213). -/
  | vadd (core : CoreId) (vx1 : Bool) (grd : BitVec 5) (vd : BitVec 6) (va : BitVec 6) (vb : BitVec 6) (t : BitVec 3)
  /-- VSUB subtracts two vectors lane by lane (R213). -/
  | vsub (core : CoreId) (vx1 : Bool) (grd : BitVec 5) (vd : BitVec 6) (va : BitVec 6) (vb : BitVec 6) (t : BitVec 3)
  /-- VADDS adds two vectors with saturation (R213). -/
  | vadds (core : CoreId) (vx1 : Bool) (grd : BitVec 5) (vd : BitVec 6) (va : BitVec 6) (vb : BitVec 6) (t : BitVec 3)
  /-- VSUBS subtracts two vectors with saturation (R213). -/
  | vsubs (core : CoreId) (vx1 : Bool) (grd : BitVec 5) (vd : BitVec 6) (va : BitVec 6) (vb : BitVec 6) (t : BitVec 3)
  /-- VMIN gives the signed minimum per lane (R213). -/
  | vmin (core : CoreId) (vx1 : Bool) (grd : BitVec 5) (vd : BitVec 6) (va : BitVec 6) (vb : BitVec 6) (t : BitVec 3)
  /-- VMAX gives the signed maximum per lane (R213). -/
  | vmax (core : CoreId) (vx1 : Bool) (grd : BitVec 5) (vd : BitVec 6) (va : BitVec 6) (vb : BitVec 6) (t : BitVec 3)
  /-- VABS gives the absolute value of each lane (R213). -/
  | vabs (core : CoreId) (vx1 : Bool) (grd : BitVec 5) (vd : BitVec 6) (va : BitVec 6) (vb : BitVec 6) (t : BitVec 3)
  /-- VNEG negates each lane (R213). -/
  | vneg (core : CoreId) (vx1 : Bool) (grd : BitVec 5) (vd : BitVec 6) (va : BitVec 6) (vb : BitVec 6) (t : BitVec 3)
  /-- VSHL shifts each lane left by an immediate (R213). -/
  | vshl (core : CoreId) (vx1 : Bool) (grd : BitVec 5) (vd : BitVec 6) (va : BitVec 6) (imm : BitVec 6) (t : BitVec 3)
  /-- VSHR shifts each lane right logically, truncating (R213). -/
  | vshr (core : CoreId) (vx1 : Bool) (grd : BitVec 5) (vd : BitVec 6) (va : BitVec 6) (imm : BitVec 6) (t : BitVec 3)
  /-- VSRA shifts each lane right arithmetically, truncating (R213). -/
  | vsra (core : CoreId) (vx1 : Bool) (grd : BitVec 5) (vd : BitVec 6) (va : BitVec 6) (imm : BitVec 6) (t : BitVec 3)
  /-- VSHRR shifts each lane right arithmetically, rounding half up (R213). -/
  | vshrr (core : CoreId) (vx1 : Bool) (grd : BitVec 5) (vd : BitVec 6) (va : BitVec 6) (imm : BitVec 6) (t : BitVec 3)
  /-- VCMPEQ sets predicate lanes where the vector lanes are equal (R213). -/
  | vcmpeq (core : CoreId) (vx1 : Bool) (grd : BitVec 5) (vd : BitVec 6) (va : BitVec 6) (vb : BitVec 6) (t : BitVec 3)
  /-- VCMPLT sets predicate lanes where Va is less than Vb, signed (R213). -/
  | vcmplt (core : CoreId) (vx1 : Bool) (grd : BitVec 5) (vd : BitVec 6) (va : BitVec 6) (vb : BitVec 6) (t : BitVec 3)
  /-- VCMPLE sets predicate lanes where Va is at most Vb, signed (R213). -/
  | vcmple (core : CoreId) (vx1 : Bool) (grd : BitVec 5) (vd : BitVec 6) (va : BitVec 6) (vb : BitVec 6) (t : BitVec 3)
  /-- VCMPLTU sets predicate lanes where Va is less than Vb, unsigned (R213). -/
  | vcmpltu (core : CoreId) (vx1 : Bool) (grd : BitVec 5) (vd : BitVec 6) (va : BitVec 6) (vb : BitVec 6) (t : BitVec 3)
  /-- VZIPL interleaves the lower halves of two vectors (R213). -/
  | vzipl (core : CoreId) (vx1 : Bool) (grd : BitVec 5) (vd : BitVec 6) (va : BitVec 6) (vb : BitVec 6) (t : BitVec 3)
  /-- VZIPH interleaves the upper halves of two vectors (R213). -/
  | vziph (core : CoreId) (vx1 : Bool) (grd : BitVec 5) (vd : BitVec 6) (va : BitVec 6) (vb : BitVec 6) (t : BitVec 3)
  /-- VUZPE takes the even lanes of two concatenated vectors (R213). -/
  | vuzpe (core : CoreId) (vx1 : Bool) (grd : BitVec 5) (vd : BitVec 6) (va : BitVec 6) (vb : BitVec 6) (t : BitVec 3)
  /-- VUZPO takes the odd lanes of two concatenated vectors (R213). -/
  | vuzpo (core : CoreId) (vx1 : Bool) (grd : BitVec 5) (vd : BitVec 6) (va : BitVec 6) (vb : BitVec 6) (t : BitVec 3)
  /-- VCJ multiplies complex lanes by j or −j (R213). -/
  | vcj (core : CoreId) (vx1 : Bool) (grd : BitVec 5) (vd : BitVec 6) (va : BitVec 6) (imm : BitVec 6) (t : BitVec 3)
  /-- VCONJ conjugates complex lanes, with saturation (R213). -/
  | vconj (core : CoreId) (vx1 : Bool) (grd : BitVec 5) (vd : BitVec 6) (va : BitVec 6) (vb : BitVec 6) (t : BitVec 3)
  /-- VCVT converts lanes between element types (R213). -/
  | vcvt (core : CoreId) (vx1 : Bool) (grd : BitVec 5) (vd : BitVec 6) (va : BitVec 6) (imm : BitVec 6) (t : BitVec 3)
  /-- VFMA performs a fused multiply-add into Vd (R213). -/
  | vfma (core : CoreId) (vx1 : Bool) (grd : BitVec 5) (vd : BitVec 6) (va : BitVec 6) (vb : BitVec 6) (t : BitVec 3)
  /-- VFMS performs a fused multiply-subtract into Vd (R213). -/
  | vfms (core : CoreId) (vx1 : Bool) (grd : BitVec 5) (vd : BitVec 6) (va : BitVec 6) (vb : BitVec 6) (t : BitVec 3)
  /-- VFMUL multiplies floating-point lanes (R213). -/
  | vfmul (core : CoreId) (vx1 : Bool) (grd : BitVec 5) (vd : BitVec 6) (va : BitVec 6) (vb : BitVec 6) (t : BitVec 3)
  /-- VMUL writes the products of two vectors to an accumulator (R213). -/
  | vmul (core : CoreId) (vx1 : Bool) (grd : BitVec 5) (vd : BitVec 6) (va : BitVec 6) (vb : BitVec 6) (t : BitVec 3)
  /-- VMAC adds products into an accumulator (R214). -/
  | vmac (core : CoreId) (vx1 : Bool) (grd : BitVec 5) (vd : BitVec 6) (va : BitVec 6) (vb : BitVec 6) (t : BitVec 3)
  /-- VMSU subtracts products from an accumulator (R214). -/
  | vmsu (core : CoreId) (vx1 : Bool) (grd : BitVec 5) (vd : BitVec 6) (va : BitVec 6) (vb : BitVec 6) (t : BitVec 3)
  /-- VCMUL writes exact complex products to an accumulator (R213). -/
  | vcmul (core : CoreId) (vx1 : Bool) (grd : BitVec 5) (vd : BitVec 6) (va : BitVec 6) (vb : BitVec 6) (t : BitVec 3)
  /-- VCMAC accumulates complex products (R213). -/
  | vcmac (core : CoreId) (vx1 : Bool) (grd : BitVec 5) (vd : BitVec 6) (va : BitVec 6) (vb : BitVec 6) (t : BitVec 3)
  /-- VCMACJ accumulates products with the conjugate of Vb (R213). -/
  | vcmacj (core : CoreId) (vx1 : Bool) (grd : BitVec 5) (vd : BitVec 6) (va : BitVec 6) (vb : BitVec 6) (t : BitVec 3)
  /-- VSRS shifts, rounds and saturates an accumulator into Vd (R213). -/
  | vsrs (core : CoreId) (vx1 : Bool) (grd : BitVec 5) (vd : BitVec 6) (va : BitVec 6) (imm : BitVec 6) (t : BitVec 3)
  /-- VACSET loads an accumulator from a shifted, sign-extended vector (R213). -/
  | vacset (core : CoreId) (vx1 : Bool) (grd : BitVec 5) (vd : BitVec 6) (va : BitVec 6) (imm : BitVec 6) (t : BitVec 3)
  /-- VACZ clears an accumulator (R213). -/
  | vacz (core : CoreId) (vx1 : Bool) (grd : BitVec 5) (vd : BitVec 6) (va : BitVec 6) (vb : BitVec 6) (t : BitVec 3)
  /-- LDB loads a sign-extended byte (R215). -/
  | ldb (core : CoreId) (grd : BitVec 5) (r : BitVec 6) (an : BitVec 4) (upd : BitVec 2) (ofs : BitVec 9)
  /-- LDBU loads a zero-extended byte (R215). -/
  | ldbu (core : CoreId) (grd : BitVec 5) (r : BitVec 6) (an : BitVec 4) (upd : BitVec 2) (ofs : BitVec 9)
  /-- LDH loads a sign-extended halfword (R215). -/
  | ldh (core : CoreId) (grd : BitVec 5) (r : BitVec 6) (an : BitVec 4) (upd : BitVec 2) (ofs : BitVec 9)
  /-- LDHU loads a zero-extended halfword (R215). -/
  | ldhu (core : CoreId) (grd : BitVec 5) (r : BitVec 6) (an : BitVec 4) (upd : BitVec 2) (ofs : BitVec 9)
  /-- LDW loads a word (R215). -/
  | ldw (core : CoreId) (grd : BitVec 5) (r : BitVec 6) (an : BitVec 4) (upd : BitVec 2) (ofs : BitVec 9)
  /-- LDD loads a doubleword into a scalar pair (R215). -/
  | ldd (core : CoreId) (grd : BitVec 5) (r : BitVec 6) (an : BitVec 4) (upd : BitVec 2) (ofs : BitVec 9)
  /-- LDQ loads 16 bytes into Vd, including a take from an inbound stream (R215). -/
  | ldq (core : CoreId) (grd : BitVec 5) (r : BitVec 6) (an : BitVec 4) (upd : BitVec 2) (ofs : BitVec 9)
  /-- VLD loads 64 bytes into Vd (R215). -/
  | vld (core : CoreId) (grd : BitVec 5) (r : BitVec 6) (an : BitVec 4) (upd : BitVec 2) (ofs : BitVec 9)
  /-- STB stores a byte (R215). -/
  | stb (core : CoreId) (grd : BitVec 5) (r : BitVec 6) (an : BitVec 4) (upd : BitVec 2) (ofs : BitVec 9)
  /-- STH stores a halfword (R215). -/
  | sth (core : CoreId) (grd : BitVec 5) (r : BitVec 6) (an : BitVec 4) (upd : BitVec 2) (ofs : BitVec 9)
  /-- STW stores a word (R215). -/
  | stw (core : CoreId) (grd : BitVec 5) (r : BitVec 6) (an : BitVec 4) (upd : BitVec 2) (ofs : BitVec 9)
  /-- STD stores a doubleword from a scalar pair (R215). -/
  | std (core : CoreId) (grd : BitVec 5) (r : BitVec 6) (an : BitVec 4) (upd : BitVec 2) (ofs : BitVec 9)
  /-- STQ stores 16 bytes, including a token into an outbound stream (R215). -/
  | stq (core : CoreId) (grd : BitVec 5) (r : BitVec 6) (an : BitVec 4) (upd : BitVec 2) (ofs : BitVec 9)
  /-- VST stores 64 bytes (R215). -/
  | vst (core : CoreId) (grd : BitVec 5) (r : BitVec 6) (an : BitVec 4) (upd : BitVec 2) (ofs : BitVec 9)
  /-- LDX.W issues an exclusive 4-byte load on the Trellis and stalls the core until the response arrives (R216). -/
  | ldxW (core : CoreId) (grd : BitVec 5) (sd : BitVec 5) (sa : BitVec 5) (pd : BitVec 4)
  /-- LDX.D issues an exclusive 8-byte load and stalls the core until the response arrives (R216). -/
  | ldxD (core : CoreId) (grd : BitVec 5) (sd : BitVec 5) (sa : BitVec 5) (pd : BitVec 4)
  /-- STX.W issues an exclusive 4-byte store and writes its predicate with the outcome (R216). -/
  | stxW (core : CoreId) (grd : BitVec 5) (sd : BitVec 5) (sa : BitVec 5) (pd : BitVec 4)
  /-- STX.D issues an exclusive 8-byte store and writes its predicate with the outcome (R216). -/
  | stxD (core : CoreId) (grd : BitVec 5) (sd : BitVec 5) (sa : BitVec 5) (pd : BitVec 4)
  /-- The scalar ADD writes Sa + Sb (R217). -/
  | add (core : CoreId) (grd : BitVec 5) (d : BitVec 5) (a : BitVec 5) (b : BitVec 5)
  /-- The scalar SUB writes Sa − Sb (R217). -/
  | sub (core : CoreId) (grd : BitVec 5) (d : BitVec 5) (a : BitVec 5) (b : BitVec 5)
  /-- The scalar AND writes Sa & Sb (R217). -/
  | and (core : CoreId) (grd : BitVec 5) (d : BitVec 5) (a : BitVec 5) (b : BitVec 5)
  /-- The scalar OR writes Sa | Sb (R217). -/
  | or (core : CoreId) (grd : BitVec 5) (d : BitVec 5) (a : BitVec 5) (b : BitVec 5)
  /-- The scalar XOR writes Sa ^ Sb (R217). -/
  | xor (core : CoreId) (grd : BitVec 5) (d : BitVec 5) (a : BitVec 5) (b : BitVec 5)
  /-- The scalar SHL shifts Sa left by Sb (R217). -/
  | shl (core : CoreId) (grd : BitVec 5) (d : BitVec 5) (a : BitVec 5) (b : BitVec 5)
  /-- The scalar SHR shifts Sa right logically by Sb (R217). -/
  | shr (core : CoreId) (grd : BitVec 5) (d : BitVec 5) (a : BitVec 5) (b : BitVec 5)
  /-- The scalar SRA shifts Sa right arithmetically by Sb (R217). -/
  | sra (core : CoreId) (grd : BitVec 5) (d : BitVec 5) (a : BitVec 5) (b : BitVec 5)
  /-- MUL writes the low 32 bits of Sa × Sb (R217). -/
  | mul (core : CoreId) (grd : BitVec 5) (d : BitVec 5) (a : BitVec 5) (b : BitVec 5)
  /-- MULH writes the signed high 32 bits of Sa × Sb (R217). -/
  | mulh (core : CoreId) (grd : BitVec 5) (d : BitVec 5) (a : BitVec 5) (b : BitVec 5)
  /-- MIN writes the signed minimum of Sa and Sb (R217). -/
  | min (core : CoreId) (grd : BitVec 5) (d : BitVec 5) (a : BitVec 5) (b : BitVec 5)
  /-- MAX writes the signed maximum of Sa and Sb (R217). -/
  | max (core : CoreId) (grd : BitVec 5) (d : BitVec 5) (a : BitVec 5) (b : BitVec 5)
  /-- ADDI adds an immediate to Sa (R217). -/
  | addi (core : CoreId) (grd : BitVec 5) (d : BitVec 5) (a : BitVec 5) (imm : BitVec 11)
  /-- ANDI ANDs an immediate with Sa (R217). -/
  | andi (core : CoreId) (grd : BitVec 5) (d : BitVec 5) (a : BitVec 5) (imm : BitVec 11)
  /-- ORI ORs an immediate with Sa (R217). -/
  | ori (core : CoreId) (grd : BitVec 5) (d : BitVec 5) (a : BitVec 5) (imm : BitVec 11)
  /-- XORI XORs an immediate with Sa (R217). -/
  | xori (core : CoreId) (grd : BitVec 5) (d : BitVec 5) (a : BitVec 5) (imm : BitVec 11)
  /-- SHLI shifts Sa left by an immediate (R217). -/
  | shli (core : CoreId) (grd : BitVec 5) (d : BitVec 5) (a : BitVec 5) (imm : BitVec 11)
  /-- SHRI shifts Sa right logically by an immediate (R217). -/
  | shri (core : CoreId) (grd : BitVec 5) (d : BitVec 5) (a : BitVec 5) (imm : BitVec 11)
  /-- SRAI shifts Sa right arithmetically by an immediate (R217). -/
  | srai (core : CoreId) (grd : BitVec 5) (d : BitVec 5) (a : BitVec 5) (imm : BitVec 11)
  /-- SRRI shifts Sa right arithmetically by an immediate, rounding half up (R217). -/
  | srri (core : CoreId) (grd : BitVec 5) (d : BitVec 5) (a : BitVec 5) (imm : BitVec 11)
  /-- MOVIL loads a sign-extended 16-bit immediate (R217). -/
  | movil (core : CoreId) (grd : BitVec 5) (d : BitVec 5) (imm : BitVec 16)
  /-- MOVIH loads the upper half of Sd (R217). -/
  | movih (core : CoreId) (grd : BitVec 5) (d : BitVec 5) (imm : BitVec 16)
  /-- MOVX moves a register between register files, including control and loop registers (R218). -/
  | movx (core : CoreId) (grd : BitVec 5) (d : BitVec 5) (df : BitVec 3) (src : BitVec 5) (sf : BitVec 3)
  /-- VGET reads one 32-bit lane of a vector into a scalar (R217). -/
  | vget (core : CoreId) (grd : BitVec 5) (d : BitVec 5) (v : BitVec 6) (lane : BitVec 4)
  /-- CMPEQ sets a predicate if two scalars are equal (R217). -/
  | cmpeq (core : CoreId) (grd : BitVec 5) (pd : BitVec 4) (a : BitVec 5) (b : BitVec 5)
  /-- CMPLT sets a predicate on a signed less-than (R217). -/
  | cmplt (core : CoreId) (grd : BitVec 5) (pd : BitVec 4) (a : BitVec 5) (b : BitVec 5)
  /-- CMPLTU sets a predicate on an unsigned less-than (R217). -/
  | cmpltu (core : CoreId) (grd : BitVec 5) (pd : BitVec 4) (a : BitVec 5) (b : BitVec 5)
  /-- CMPLE sets a predicate on a signed less-or-equal (R217). -/
  | cmple (core : CoreId) (grd : BitVec 5) (pd : BitVec 4) (a : BitVec 5) (b : BitVec 5)
  /-- PAND ANDs two predicates (R217). -/
  | pand (core : CoreId) (grd : BitVec 5) (pd : BitVec 4) (pa : BitVec 4) (pb : BitVec 4)
  /-- POR ORs two predicates (R217). -/
  | por (core : CoreId) (grd : BitVec 5) (pd : BitVec 4) (pa : BitVec 4) (pb : BitVec 4)
  /-- PANDN gives Pa & ~Pb (R217). -/
  | pandn (core : CoreId) (grd : BitVec 5) (pd : BitVec 4) (pa : BitVec 4) (pb : BitVec 4)
  /-- PSET sets a predicate to all ones (R217). -/
  | pset (core : CoreId) (grd : BitVec 5) (pd : BitVec 4)
  /-- PCLR clears a predicate (R217). -/
  | pclr (core : CoreId) (grd : BitVec 5) (pd : BitVec 4)
  /-- BR branches to a bundle index after two delay bundles (R219). -/
  | br (core : CoreId) (grd : BitVec 5) (tgt : BitVec 12)
  /-- BRR branches to a register address after two delay bundles (R219). -/
  | brr (core : CoreId) (grd : BitVec 5) (a : BitVec 5)
  /-- CALL branches and sets the return address in S31 (R217). -/
  | call (core : CoreId) (grd : BitVec 5) (tgt : BitVec 12)
  /-- CALLR branches to a register address and sets S31 (R217). -/
  | callr (core : CoreId) (grd : BitVec 5) (a : BitVec 5)
  /-- RET branches to the address in S31 (R217). -/
  | ret (core : CoreId) (grd : BitVec 5)
  /-- RETI returns from a handler after its delay bundles and the return cycle (R188). -/
  | reti (core : CoreId) (grd : BitVec 5)
  /-- LOOP sets up a hardware loop with its begin, end and count (R222). -/
  | loop (core : CoreId) (grd : BitVec 5) (l : BitVec 1) (im : BitVec 1) (cnt : BitVec 7) (tgt : BitVec 12)
  /-- LOOPE sets up a modulo-scheduled loop with drain passes and rotating registers (R225). -/
  | loope (core : CoreId) (grd : BitVec 5) (l : BitVec 1) (i : BitVec 1) (cnt : BitVec 7) (tgt : BitVec 12)
  /-- RPT issues the next bundle n times without interruption (R227). -/
  | rpt (core : CoreId) (grd : BitVec 5) (i : BitVec 1) (x : BitVec 16)
  /-- LOCK opens a window of n bundles in which no interrupt is taken (R220). -/
  | lock (core : CoreId) (grd : BitVec 5) (i : BitVec 1) (x : BitVec 16)
  /-- SWI makes interrupt source 8 pend (R217). -/
  | swi (core : CoreId) (grd : BitVec 5)
  /-- TRAP raises the TRAP exception (R189). -/
  | trap (core : CoreId) (grd : BitVec 5)
  /-- WFI stops issue until an enabled source pends (R217). -/
  | wfi (core : CoreId) (grd : BitVec 5)
  /-- BRN branches when bit 0 of its guard predicate is 0 (R217). -/
  | brn (core : CoreId) (grd : BitVec 5) (tgt : BitVec 12)
  /-- A READ request taken at its target stop is checked for ownership and size and is performed or refused (R243). -/
  | read (req : TrlReq)
  /-- A non-posted WRITE request taken at its target stop is checked and performed or refused (R243). -/
  | write (req : TrlReq)
  /-- A posted write is performed at its target, or is discarded with a C0 note (R247). -/
  | pwrite (req : TrlReq)
  /-- An atomic XLOAD reads and records a reservation for the initiator and line (R245). -/
  | xload (req : TrlReq)
  /-- An atomic XSTORE writes only if the reservation is held, and answers EXFAIL otherwise (R245). -/
  | xstore (req : TrlReq)
  /-- An atomic FETCH_ADD adds the operand and returns the old value (R245). -/
  | fetchAdd (req : TrlReq)
  /-- An atomic SWAP writes the operand and returns the old value (R245). -/
  | swap (req : TrlReq)
  /-- An atomic CAS writes A if the old value equals B (R245). -/
  | cas (req : TrlReq)
  /-- A response arriving at its initiator's stop is delivered when its tag and generation match, and is otherwise discarded as
  late (R254). -/
  | trellisResponse (key : RspKey) (user : Option UserLogic)
  /-- A packet arriving at a bridge is routed over a link or detour, or answered with NO_ROUTE (R236). -/
  | bridgeForward (site : Site) (response : Bool) (key : RspKey)
  /-- A non-posted request's timer reaches INIT_TMO, and the stop delivers TIMEOUT and taints or expires its tag (R253). -/
  | initTmo (init : InitId) (tag : BitVec 10)
  /-- A taint entry's time runs out, which frees its tag with a new generation and may end a stall (R255). -/
  | taintExpiry (init : InitId) (tag : BitVec 10)
  /-- When device time bits [21:14] change, held packets of age 31 or more are discarded (R248). -/
  | packetAgeDiscard
  /-- A class-0 or class-1 packet at the head of its queue for PROMOTE × 16 cycles competes as class 2 (R250). -/
  | promote (init : InitId)
  /-- A stop waits STARVE cycles without a slot and marks the next full slot for reservation (R252). -/
  | starveMark (init : InitId) (ring : Fin 8)
  /-- Writing ST_CTL.CLR clears every statistics counter of the initiator (R262). -/
  | stCtlClr (init : InitId) (owner : InitId) (freeze : Bool)
  /-- A channel returns a line, which is classified by the Reed-Solomon code and handled by class (R290). -/
  | dramReadComplete (ch : ChanId) (b0 b1 : Burst) (w0 w1 : Option (List Byte))
  /-- A queued write grows older than WR_AGE, and a write drain begins (R280). -/
  | wrAgeExpiry (ch : ChanId)
  /-- Every 16 ms the controller reads each rank's refresh-rate indication and adjusts the rate or flags TEMP_HI (R281). -/
  | refreshRatePoll (ch : ChanId) (rates : Byte × Byte) (high : BitVec 2)
  /-- The RETRAIN interval, or a change of the rate indication, starts a periodic retraining of a channel (R282). -/
  | periodicRetraining (ch : ChanId)
  /-- A retraining ends, and the channel resumes, repeats once, or fails with C3 (R283). -/
  | retrainingComplete (ch : ChanId) (eye : Option Word16)
  /-- MEM_SELFREFRESH with ACTION enter drains the named channels and puts them in self-refresh with segment masks (R286). -/
  | memSelfrefreshEnter (inst : Inst) (pkt : Packet)
  /-- MEM_SELFREFRESH with ACTION exit takes channels out of self-refresh, or defers the exit (R287). -/
  | memSelfrefreshExit (inst : Inst) (pkt : Packet)
  /-- The named channels finish draining and enter self-refresh, and the reply is sent (R286). -/
  | selfRefreshEntryComplete
  /-- A channel completes self-refresh exit and retraining, and waiting requests proceed (R287). -/
  | selfRefreshExitComplete (found : Retrained)
  /-- MAP_SET replaces the whole LPDDR6 window table (R275). -/
  | mapSet (inst : Inst) (pkt : Packet)
  /-- REGION_INIT creates a Region Table entry and starts a tiller fill (R322). -/
  | regionInit (inst : Inst) (pkt : Packet)
  /-- A tiller fill ends and the region becomes ACTIVE (R324). -/
  | regionFillComplete (tiller : Fin 4)
  /-- KEY_ROTATE starts re-keying a region under a new key behind a moving till line (R325). -/
  | keyRotate (inst : Inst) (pkt : Packet)
  /-- A tiller page renewal completes, TILL advances, the page lock is released and waiting requests proceed (R327). -/
  | tillerRenewalComplete (tiller : Fin 4) (page : Nat)
  /-- The rate interval elapses and the tiller engine starts the next page renewal (R327). -/
  | tillerRenewalStart (tiller : Fin 4)
  /-- KEY_RETIRE marks a key and its regions RETIRING and purges their cached and queued lines (R329). -/
  | keyRetire (inst : Inst) (pkt : Packet)
  /-- The key's in-flight count reaches 0, the key is zeroised, the entries are freed and the reply is sent (R330). -/
  | keyRetireComplete (key : Byte) (region : RegionId)
  /-- A die-link frame is delivered if its CRC and SEQ are good, and a NAK is sent otherwise (R340): the frame that the strand sends
  next, with the frame bits and the SEQ bits that arrive wrong. -/
  | frameReceived (link : LinkId) (dir : Fin 2) (strand : Fin 16) (flip : BitVec 256) (seqFlip : Byte)
  /-- The oldest unacknowledged frame passes 256 ns, and the transmitter replays from it (R341). -/
  | replayTimeout (link : LinkId) (dir : Fin 2) (strand : Fin 16)
  /-- 32 ns pass with a delivered frame unacknowledged, and the receiver sends an ACK (R340). -/
  | ackDue (link : LinkId) (dir : Fin 2) (strand : Fin 16)
  /-- An IDLE sideband message is received and carries nothing (R338). -/
  | idle (link : LinkId) (dir : Fin 2) (msg : SbMsg)
  /-- An ACK sideband message frees acknowledged frames from replay buffers (R341). -/
  | ack (link : LinkId) (dir : Fin 2) (msg : SbMsg)
  /-- A NAK sideband message makes the transmitter replay from the named SEQ, and may start a wire test (R341). -/
  | nak (link : LinkId) (dir : Fin 2) (msg : SbMsg)
  /-- A CAP sideband message delivers a compute die's capability word to the hub (R352). -/
  | cap (link : LinkId) (dir : Fin 2) (msg : SbMsg)
  /-- A TEST sideband message announces a wire test or the return of a grafted strand (R347). -/
  | test (link : LinkId) (dir : Fin 2) (msg : SbMsg)
  /-- A GRAFT sideband message tells the far end which wire a spare replaced (R347). -/
  | graft (link : LinkId) (dir : Fin 2) (msg : SbMsg)
  /-- A RETIRE sideband message tells the far end that a strand is retired (R348). -/
  | retire (link : LinkId) (dir : Fin 2) (msg : SbMsg)
  /-- A TIME sideband message updates a compute die's replica of a time base or device time (R395). -/
  | time (die : DieId) (msg : SbMsg)
  /-- Every 1 ms a link suspends frames and drives wire test patterns, and reports its CRC error count (R345). -/
  | maintenanceWindow (link : LinkId) (wires : List WireRef) (groups : List (Fin 4))
  /-- An immediate wire test ends, and the strand returns to service, is grafted or is retired (R346). -/
  | wireTestComplete (link : LinkId) (dir : Fin 2) (strand : Fin 16) (wires : List (Fin 36))
  /-- A grafted strand finishes deskew and returns to service with SEQ 0 (R347). -/
  | graftComplete (link : LinkId) (dir : Fin 2) (strand : Fin 16)
  /-- LINK_STATUS returns a record of the state of each die link (R357). -/
  | linkStatus (inst : Inst) (pkt : Packet)
  /-- LANE_REFRESH starts fetching and checking the Lane Table entries of a range of lanes (R369). -/
  | laneRefresh (inst : Inst) (pkt : Packet)
  /-- All fetched lane entries have arrived, and they are checked and applied, or the refresh is refused (R370). -/
  | laneEntriesFetched (inst : Inst) (net : NetIn)
  /-- LANE_CALIBRATE runs a calibration on a lane and replies with the result (R373). -/
  | laneCalibrate (inst : Inst) (pkt : Packet)
  /-- LANE_RETIRE stops a lane and its subport and retires it until reset (R374). -/
  | laneRetire (inst : Inst) (pkt : Packet)
  /-- A lane's clock recovery loses lock, which is counted and reported to the policy engine (R498). -/
  | laneCdr (lane : LaneId) (sig : Bool)
  /-- A subport's link, alignment or fault status changes, and it is shown in SP_STATUS (R380). -/
  | pcsLinkChange (engine : EngineId) (sub : Fin 8) (rep : PcsReport)
  /-- A write to SP_CTL sets EN and the MAC options of a subport, starting or stopping its rings (R381). -/
  | spCtl (init : InitId) (engine : EngineId) (sub : Fin 8) (v : Word32)
  /-- A write to TXR_TAIL hands transmit descriptors to the engine (R377). -/
  | txrTail (init : InitId) (engine : EngineId) (sub : Fin 8) (tail : Word16)
  /-- A write to RXR_TAIL hands receive descriptors to the engine (R377). -/
  | rxrTail (init : InitId) (engine : EngineId) (sub : Fin 8) (tail : Word16)
  /-- A frame leaves a subport, with its time-stamp and one-step update, and its descriptor is written back (R377). -/
  | frameTransmitted (engine : EngineId) (sub : Fin 8) (pos : Fin 8) (net : NetIn)
  /-- A received Ethernet frame is stamped and written to a descriptor buffer, or dropped (R378). -/
  | frameReceive (engine : EngineId) (sub : Fin 8) (pos : Fin 8) (frame : List Byte) (net : NetIn)
  /-- TB_SET loads a time-base value at the next tick (R389). -/
  | tbSet (inst : Inst) (pkt : Packet)
  /-- TB_ADJUST steps or slews a base's phase and sets its frequency adjustment (R390). -/
  | tbAdjust (inst : Inst) (pkt : Packet)
  /-- TB_ROUTE routes a base to subport stamps or a PPS output, or sets its discipline (R393). -/
  | tbRoute (inst : Inst) (pkt : Packet)
  /-- START_AT arms a scheduled start against a time base (R402). -/
  | startAt (inst : Inst) (pkt : Packet)
  /-- A time base reaches the armed target, and waiting commits start or the start lapses (R466). -/
  | startAtFire
  /-- At the start of microsecond m + 2 a new RADJ takes effect on the hub and every replica (R396). -/
  | radjChange (tb : TbId)
  /-- The hub's 1 µs or 1 ms timer sends TIME words on each hub link (R394). -/
  | timeBroadcast (ms : Bool)
  /-- A replica receives no WORD 0 for 16 µs, enters HOLDOVER and raises C1 (R395). -/
  | holdover (die : DieId) (src : Fin 9)
  /-- A rising edge on a PPS input captures every base and drives the PPS servo (R388). -/
  | timePpsIn (pin : Fin 2)
  /-- 2.5 s pass without a PPS edge, and LOCKED returns to 0 (R388). -/
  | ppsEdgeTimeout (tb : TbId)
  /-- A base crosses a whole second, and the PPS output rises for its routed width (R400). -/
  | timePpsOut (pin : Fin 2)
  /-- Every 1 ms the frequency input is classified, and the FREQ servo locks or holds (R400). -/
  | timeFreqIn (cls : Fin 4)
  /-- A slew's last microsecond ends and RADJ returns to FADJ (R396). -/
  | slewEnd (tb : TbId)
  /-- A host MemRd is checked under R309 and returns data or poison, allocating a snoop-filter entry (R410). -/
  | memrd (ld : PlotId) (hpa : Nat)
  /-- A host MemWr is checked and performed or discarded (R410). -/
  | memwr (ld : PlotId) (hpa : Nat) (data : List Byte)
  /-- A back-invalidation response and any dirty data arrive, and the waiting request is decided afresh (R411). -/
  | birsp (ld : PlotId) (line : Nat) (dirty : Option (List Byte)) (shared : Bool)
  /-- A host snoop is answered with RspIHitI (R413). -/
  | hostSnoop
  /-- PERST_N low resets the whole port, aborting staging sessions (R417). -/
  | perstN
  /-- A hot reset resets the whole port as PERST_N does (R417). -/
  | hotReset
  /-- A function-level reset resets one logical device's configuration space, MSI-X table and mailbox (R417). -/
  | functionLevelReset (ld : PlotId)
  /-- A CXL reset of a logical device also clears its decoders and snoop-filter entries (R417). -/
  | cxlReset (ld : PlotId)
  /-- The CXL link completes training (R418). -/
  | cxlLinkUp (speed : BitVec 3) (width : BitVec 5) (port : BitVec 12)
  /-- An IDE check fails, the stream goes insecure and a security event is raised (R332). -/
  | ideCheckFailure (stream : Fin 6)
  /-- A write to MSIX_TRIGGER raises an MSI-X vector of a logical device (R416). -/
  | msixTrigger (init : InitId) (ld : PlotId) (vec : BitVec 7)
  /-- The fabric manager binds a logical device (R414). -/
  | bind (ld : PlotId)
  /-- The fabric manager unbinds a logical device (R414). -/
  | unbind (ld : PlotId)
  /-- The CXL mailbox command Identify Memory Device returns the memory device identity (R408). -/
  | identifyMemoryDevice (ld : PlotId)
  /-- The CXL mailbox command Get Supported Logs returns the supported logs (R408). -/
  | getSupportedLogs (ld : PlotId)
  /-- The CXL mailbox command Get Log returns the Command Effects Log (R408). -/
  | getLog (ld : PlotId) (uuid : List Byte) (off : Nat) (len : Nat)
  /-- The CXL mailbox command Background Operation Status reports background operations (R408). -/
  | backgroundOperationStatus (ld : PlotId)
  /-- SPDM GET_MEASUREMENTS on DOE returns the measurement blocks (R495). -/
  | getMeasurements (ld : PlotId) (op : Byte)
  /-- SPDM GET_CERTIFICATE returns an attestation certificate chain (R483). -/
  | getCertificate (ld : PlotId) (slot : Fin 8) (off : Nat) (len : Nat)
  /-- SPDM END_SESSION ends a session (R427). -/
  | endSession (inst : Inst) (id : Word32)
  /-- A DOE CDAT table access returns the DSMAS and DSLBIS entries (R415). -/
  | cdat (ld : PlotId)
  /-- A write to the CXL staging window appends stream bytes to a session, with header checks as bytes arrive (R628). -/
  | stagingWrite (ld : PlotId) (off : Nat) (data : List Byte)
  /-- A slave-port CMD transaction delivers a command packet (R455). -/
  | cmd (inst : Inst) (cnt : BitVec 24) (words : List Word32) (net : NetIn)
  /-- A slave-port REPLY transaction reads the held reply (R455). -/
  | reply (inst : Inst) (cnt : BitVec 24)
  /-- A slave-port STREAM transaction appends data to the port's session (R455). -/
  | stream (inst : Inst) (words : List Word32)
  /-- A slave-port PSTAT transaction reads the port status word (R455). -/
  | pstat (inst : Inst)
  /-- A packet on a serial, parallel or JTAG transport does not complete within CMD_CFG.TMO, and it is discarded with TIMEOUT
  (R434). -/
  | cmdPacketTimeout (inst : Inst)
  /-- Every FP_POLL µs the loader reads a plot's fabric port and takes a new command (R424). -/
  | fabricPortPoll (plot : PlotId) (net : NetIn)
  /-- IDENTIFY returns the device identity and capabilities (R440). -/
  | identify (inst : Inst) (pkt : Packet)
  /-- GET_STATUS returns the device and plot status (R441). -/
  | getStatus (inst : Inst) (pkt : Packet)
  /-- SHUTDOWN stops the fabric, cores and lanes, optionally runs BIST, and enters SHUTDOWN (R442). -/
  | shutdown (inst : Inst) (pkt : Packet)
  /-- PLOT_RESET stops a plot's cores and subports, ends its rakes and its other sessions (R443). -/
  | plotReset (inst : Inst) (pkt : Packet)
  /-- SESSION_OPEN carries one SPDM message of a session-opening exchange (R425). -/
  | sessionOpen (inst : Inst) (pkt : Packet)
  /-- SESSION_CLOSE ends a session (R427). -/
  | sessionClose (inst : Inst) (pkt : Packet)
  /-- CFG_BEGIN opens a configuration session and reserves staging space (R457). -/
  | cfgBegin (inst : Inst) (pkt : Packet)
  /-- CFG_DATA appends stream bytes to a PATH 1 session (R458). -/
  | cfgData (inst : Inst) (pkt : Packet)
  /-- The stream's signatures and layout checks finish, and the session becomes VERIFIED or REJECTED (R461). -/
  | signatureVerifyComplete (ses : Fin 4)
  /-- CFG_COMMIT judges and begins writing a verified image to its targets (R462). -/
  | cfgCommit (inst : Inst) (pkt : Packet)
  /-- The loader finishes writing, the targets become committed in one instant, and the reply is sent (R463). -/
  | commitPoint (ses : Fin 4)
  /-- CFG_ABORT ends a session, or disarms START_AT (R467). -/
  | cfgAbort (inst : Inst) (pkt : Packet)
  /-- A configuration session spends IDLE_TMO seconds without progress and ends (R459). -/
  | sessionIdleTimeout (ses : Fin 4)
  /-- DONE reads high for 1 µs, the device enters USER and commits waiting on DONE start (R465). -/
  | doneHigh
  /-- INIT_WAIT seconds pass in READY without a full image, and the golden image is loaded (R470). -/
  | initWaitExpiry
  /-- GOLDEN_LOAD loads a named copy of the golden image (R472). -/
  | goldenLoad (inst : Inst) (pkt : Packet)
  /-- BED_FALLOW stops a range of beds and makes them FALLOW (R473). -/
  | bedFallow (inst : Inst) (pkt : Packet)
  /-- BED_RELEASE recommits the retained configurations of fallow beds (R475). -/
  | bedRelease (inst : Inst) (pkt : Packet)
  /-- READBACK captures a bed's state and writes an encrypted dump (R476). -/
  | readback (inst : Inst) (pkt : Packet) (fail : Option Byte)
  /-- ATTEST_GET returns a signed attestation report or parts of its ML-DSA signature (R496). -/
  | attestGet (inst : Inst) (pkt : Packet)
  /-- PLOT_CREATE creates a plot and gives it objects (R489). -/
  | plotCreate (inst : Inst) (pkt : Packet)
  /-- PLOT_DESTROY tears down a plot and returns its objects to plot 0 (R494). -/
  | plotDestroy (inst : Inst) (pkt : Packet)
  /-- KEY_INSTALL installs a wrapped memory key pair or a plot's owner key (R492). -/
  | keyInstall (inst : Inst) (pkt : Packet)
  /-- POLICY_LOAD fetches, verifies and installs a policy table (R507). -/
  | policyLoad (inst : Inst) (pkt : Packet) (net : NetIn)
  /-- LIFECYCLE_ADVANCE moves the fused lifecycle state forward (R485). -/
  | lifecycleAdvance (inst : Inst) (pkt : Packet)
  /-- FAULT_READ returns first-error records, history entries or source words (R550). -/
  | faultRead (inst : Inst) (pkt : Packet)
  /-- FAULT_CLEAR clears first-error records, source words or the history queue (R551). -/
  | faultClear (inst : Inst) (pkt : Packet)
  /-- ERRPIN_RELEASE clears FLT_ERRPIN.LOW (R552). -/
  | errpinRelease (inst : Inst) (pkt : Packet)
  /-- HISTORY_MODE sets the collector's history mode, ERR_N mask, IRQ_MIN and AUTO_RESET (R553). -/
  | historyMode (inst : Inst) (pkt : Packet)
  /-- BIST_RUN tests a range of fallow beds with save and restore (R566). -/
  | bistRun (inst : Inst) (pkt : Packet)
  /-- A BIST run ends, writes its repairs to the carried list and makes its completion record (R569). -/
  | bistComplete (found : List Finding) (unread : List BedId)
  /-- Every 10 µs during BIST the supplies and reference are checked, and a failure aborts the test (R561). -/
  | bistConditionCheck (ok : Bool)
  /-- BIST_RESULT returns the latest BIST result (R570). -/
  | bistResult (inst : Inst) (pkt : Packet)
  /-- REPAIR_COMMIT burns soft repairs into fuse records (R573). -/
  | repairCommit (inst : Inst) (pkt : Packet) (bad : List Bool)
  /-- ALM_READ returns almanac records, redacted for other plots (R521). -/
  | almRead (inst : Inst) (pkt : Packet)
  /-- ALM_SEAL seals the almanac and raises C3 (R520). -/
  | almSeal (inst : Inst) (pkt : Packet)
  /-- ALM_EXPORT acknowledges records and exports a signed block (R522). -/
  | almExport (inst : Inst) (pkt : Packet) (fail : Option Byte)
  /-- An open coalesced almanac record reaches 1 ms of age and is closed, chained and stored (R516). -/
  | recordClose
  /-- TAMPER_N is low for 1 µs, and the event is evaluated by the policy rules (R498). -/
  | tamper
  /-- The shield mesh reports an open or short (R498). -/
  | mesh
  /-- A supply excursion outside the glitch window is evaluated by the policy rules (R498). -/
  | vglitch (die : Fin 9)
  /-- A clock monitor reports missed edges or drift (R498). -/
  | clkmon (die : Fin 9)
  /-- Every 100 µs a temperature sample is evaluated by the rules, and THERM_N is driven (R498). -/
  | temp (sensor : Fin 144) (v : BitVec 12)
  /-- A sensor reads 115 °C or more for 100 µs, and C3 is raised (R618). -/
  | overtemperature (sensor : Fin 144)
  /-- A monitored rail stays outside its limits for 10 µs, and C3 is raised (R600). -/
  | supplyFault (rail : Fin 29)
  /-- A fault report reaches a collector, which updates the source word, forms records, drives ERR_N and signals interrupts
  (R530). -/
  | faultReport (loc : CollectorIn)
  /-- A node collector receives FSAFE and applies the class it carries to its die (R543). -/
  | fsafe (die : DieId)
  /-- The 100 µs minimum low of ERR_N ends, and the pin then follows LOW (R548). -/
  | errNPulseEnd
  /-- The TAP instruction IDCODE shifts out the identification code (R579). -/
  | idcode
  /-- The TAP instruction SAMPLE/PRELOAD accesses the boundary register (R579). -/
  | samplePreload (cells : Nat)
  /-- The TAP instruction EXTEST drives the boundary register in START or READY (R579). -/
  | extest (cells : Nat)
  /-- The TAP instruction BYPASS selects the 1-bit register (R579). -/
  | bypass
  /-- DBG_TRST_N or Test-Logic-Reset resets the TAP and ends the debug session (R576). -/
  | testLogicReset
  /-- An Update-DR of CMD_IO delivers one word of a JTAG command transaction (R580). -/
  | cmdIo (w : Word32) (net : NetIn)
  /-- A word of the DBG_AUTH exchange is taken, delivering a certificate or a challenge response (R583). -/
  | dbgAuth (w : Word32)
  /-- The island finishes verifying a debug certificate and offers a challenge (R582). -/
  | debugCertVerified
  /-- The 1 s lockout after four authentication failures ends (R583). -/
  | debugAuthLockoutEnd
  /-- An Update-DR of DBG_ACCESS checks a debug request and issues it as initiator 0x803 (R586). -/
  | dbgAccess (op : BitVec 2) (eight : Bool) (addr : BitVec 48) (data : Word64)
  /-- A Capture-DR of RET_READ reads a retention SRAM word and advances the index (R589). -/
  | retRead (next : Option (BitVec 13))
  /-- Setting CORE_DBG_CTL.HALT_REQ requests a core halt (R590). -/
  | haltReq (core : CoreId) (on : Bool)
  /-- A requested halt or breakpoint is taken at an allowed boundary, and HALTED is set (R590). -/
  | haltTaken (core : CoreId)
  /-- A halt waiting on a LOCK window reaches its 1,024-cycle deadline and breaks the lock (R591). -/
  | lockDeadline (core : CoreId)
  /-- RESUME clears HALT_REQ and continues a halted core (R592). -/
  | resume (core : CoreId)
  /-- STEP runs a halted core to the next halt boundary (R592). -/
  | step (core : CoreId)
  /-- EXEC issues DBG_BUNDLE once on a halted core (R592). -/
  | exec (core : CoreId)
  /-- Setting MON_REQ pends the MONITOR interrupt source, and clearing it clears DSTAT.MONITOR (R594). -/
  | monReq (core : CoreId) (on : Bool)
  /-- BP0_EN arms breakpoint 0 (R592). -/
  | bp0En (core : CoreId) (on : Bool)
  /-- BP1_EN arms breakpoint 1 (R592). -/
  | bp1En (core : CoreId) (on : Bool)
  /-- MGMT_CTL.HALT_CMD halts or releases the command pair (R593). -/
  | haltCmd (on : Bool)
  /-- MGMT_CTL.HALT_WARDEN halts or releases the warden pair (R593). -/
  | haltWarden (on : Bool)
  /-- A write to FREEZE_CFG sets the plot-level freezes of beds, ports, tiller engines and cores (R595). -/
  | freezeCfg (plot : PlotId) (v : BitVec 4)
  /-- An SMBus Read Word returns device state, temperature or power (R619). -/
  | smbusReadWord (cmd : Byte)
  /-- A block-memory port makes an access in a phase where PAM[k] and CTRL.EN are 1, reading or writing under the code and
  loading RD and RSTAT (R138). -/
  | blockMemoryPortAccess (bed : BedId) (mem : Fin 48)
  /-- An upset or a decoder fault changes a stored bit or check bit of an on-chip SRAM or of the central collector's registers
  (R148). -/
  | upset (hit : Upset)
  /-- A bank's per-bank refresh falls due and becomes owed, to be issued or postponed up to POSTPONE (R281). -/
  | refreshDue (ch : ChanId) (rank : Fin 2) (bank : Fin 16)
  /-- The host answers a RdCurr or WrCur that the CXL stop issued, and the stop forms the Trellis response (R413). -/
  | cxlCacheResponse (init : InitId) (tag : BitVec 10) (data : List Byte)
  /-- The host writes a logical device's configuration space, setting Cache Enable, the HDM decoders or MSI-X state (R413). -/
  | configurationSpaceWrite (ld : PlotId) (w : CfgSpace)
  /-- An IDE_KM or CXL_IDE_KM message over the SPDM secured session installs, starts or refreshes IDE stream keys (R332). -/
  | ideKm (ld : PlotId) (stream : Fin 6) (op : IdeOp)
  /-- The CXL link goes down or trains to a narrower width outside a port reset or C4 (R404). -/
  | cxlLinkDown (narrow : Option (BitVec 5))
  /-- A lane's clock recovery gains lock and STAT.CDR_LOCK is set (R362). -/
  | cdrLockAcquired (lane : LaneId)
  /-- A lane's pattern checker gains or loses synchronisation, changing STAT.PRBS_LOCK and the counting of PRBS_ERR (R362). -/
  | prbsLockChange (lane : LaneId) (on : Bool) (errs : Word32)
  /-- The routed pulse width of a TIME_PPS_OUT pin runs out and the pin falls (R400). -/
  | ppsPulseEnd (pin : Fin 2)
  /-- The recovery flash finishes delivering a golden-image copy, or fails to deliver it, so that checking or the next copy can
  proceed (R471). -/
  | recoveryFlashReadComplete (ptr : List Byte) (image : Option (List Byte))
  /-- The shared DONE line changes level because another device pulls or releases it, restarting or starting the 1 µs high
  filter (R465). -/
  | doneLineChange (others : Bool)
  /-- SYS_RESET_N rises, ending the device reset, and start-up resumes from the checker self-test (R604). -/
  | sysResetNRelease
  /-- The last of VCCAUX, VSTBY and DBG_VPROBE is removed and the debug island loses power, losing the retention SRAM and the
  carried list (R575). -/
  | islandSupplyLoss
  deriving DecidableEq, Repr

end Sys2Proof
end

