-- ==== Sys2Proof/Decode.lean ====
section
/-! DEFINITION. The command table gives no row a bit encoding: commands reach the block as the operations and events that its
chapters describe, so no word spells one. -/
namespace Sys2Proof

/-- The command that a word spells by the table's bits: none, for every row. DESIGN CHOICE (log 2). -/
def decodeTableWord (_nbits _w : Nat) : Option Instr := none

end Sys2Proof
end

