-- ==== Sys2Proof/Config.lean ====
section
/-! DEFINITION. Constants that one device fixes (fused identities, codes) and the free values of the manual.
None has a body: a claim that mentions one holds whatever its value is. -/
namespace Sys2Proof.Config
open Sys2Proof

/-! ## Fused per-device constants (reset "HW") -/

/-- The stepping nibble of compute die n, 1 = A1 or 2 = B0 (R35, R3); other values are not issued. DESIGN CHOICE (log 17). -/
opaque cdStep : Nat → Bool
/-- DEVICE_ID of R440, as a number of 16 bytes. -/
opaque deviceId : Nat
/-- PART of R440. -/
opaque part : Fin 3
/-- MGMT_VERSION of R440. -/
opaque mgmtVersion : Word32
/-- The fused setpoint of VCC_CDn, in mV above 700 (R601). -/
opaque setpoint : Nat → Fin 101
/-- The fused trim code of a shell (R623). -/
opaque trimCode : ShellId → BitVec 24
/-- Offset from the CSR base of the shell window of a macro whose window the spec places nowhere. DESIGN CHOICE (log 157). -/
opaque shellOff : ShellId → Nat
/-- Fault class of a macro for whose shell the spec states none (R40). -/
opaque shellFault : ShellId → Fin 5
/-- The attestation certificate chain of slot 0 (R483). -/
opaque certChain : List Byte

/-! ## Cryptographic functions over byte lists, uninterpreted -/

/-- SHA-384, 48 bytes. DESIGN CHOICE (log 10). -/
opaque sha384 : List Byte → List Byte
/-- AES-CMAC (NIST SP 800-38B) under a key. -/
opaque cmac : List Byte → List Byte → List Byte
/-- AES-256 of one block. -/
opaque aes256 : List Byte → List Byte → List Byte
/-- AES-256-XTS of one 64-byte data unit (IEEE 1619): key 1, key 2, tweak value, data. -/
opaque xts : List Byte → List Byte → Nat → List Byte → List Byte
/-- AES-256-GCM open: key, nonce, additional data, ciphertext and tag; the plaintext when the tag verifies. -/
opaque gcmOpen : List Byte → List Byte → List Byte → List Byte → Option (List Byte)
/-- AES-256-GCM seal: ciphertext followed by the tag. -/
opaque gcmSeal : List Byte → List Byte → List Byte → List Byte → List Byte
/-- HKDF-Expand over SHA-384: PRK, label, length. -/
opaque hkdfExpand : List Byte → List Byte → Nat → List Byte
/-- HKDF-Extract over SHA-384: salt, input. -/
opaque hkdfExtract : List Byte → List Byte → List Byte
/-- RFC 3394 unwrap: key, wrapped bytes. -/
opaque keyUnwrap : List Byte → List Byte → Option (List Byte)
/-- RFC 3394 wrap: key, bytes. -/
opaque keyWrap : List Byte → List Byte → List Byte
/-- ECDSA P-384 and ML-DSA-87 verification: public key, digest, signature. -/
opaque ecdsaOk : List Byte → List Byte → List Byte → Bool
opaque mldsaOk : List Byte → List Byte → List Byte → Bool
/-- Signatures by the device's attestation keys over a digest. -/
opaque ecdsaSign : List Byte → List Byte
opaque mldsaSign : List Byte → List Byte
/-- The SPDM 1.3 responder (R425): its answer to KEY_EXCHANGE or PSK_EXCHANGE, of a request and a draw, and whether it succeeds. -/
opaque spdmExchange : List Byte → Nat → List Byte × Bool
/-- Its answer to FINISH or PSK_FINISH, and the session's export master secret on success: transcript, the owner's ROOT, whether
the requester must authenticate, the request. -/
opaque spdmFinish : List Byte → List Byte → Bool → List Byte → List Byte × Option (List Byte)
/-- Its answer to any other request. -/
opaque spdmOther : List Byte → List Byte
/-- Draw n of the random generator of R481, as many bytes as asked. -/
opaque random : Nat → Nat → List Byte
/-- The device key DK of R480. -/
opaque deviceKey : List Byte
/-- The provisioning image keys honoured in BLANK and RMA (R485). -/
opaque provEcdsa : List Byte
opaque provMldsa : List Byte

/-- The digest of Ilarn's debug root, fused at manufacture (R582). -/
opaque debugRoot : List Byte
/-- The management firmware, as measurement block 2 digests it, and the digest of the built-in policy table (R495). -/
opaque mgmtFirmware : List Byte
opaque builtinDigest : List Byte

/-! ## Free values -/

/-- The first 8 bytes of the SHA-384 digest of an object's state, whose serialisation R510 does not give;
applied to a counter of the state. -/
opaque objectDigest : Nat → Nat
/-- A value that the manual leaves undefined; applied to the free-value counter of the state. DESIGN CHOICE (log 9). -/
opaque free : Nat → Nat

/-- The FADJ that the PPS servo computes: old FADJ, error in units of 2^−48 ns, TC, and a counter (R388). DESIGN CHOICE (log 78). -/
opaque ppsServo : Int → Int → Nat → Nat → BitVec 32
/-- The FADJ to which the FREQ servo locks, by a counter (R388). -/
opaque freqServo : Nat → BitVec 32

/-- The value of a net on a combinational loop, or of a line in a micro-cycle of contention, unpredictable under R75, R90 and R91,
by a counter of the state and the net. -/
opaque loopValue : Nat → Word16
/-- Twice the frequency in Hz of the clock that a lane recovers (R100), by lane and its Lane Table entry. DESIGN CHOICE (log 161). -/
opaque recovered : Nat → List Byte → Nat
/-- The frequency in kHz of FREE mode, by bed and code (FREE_CODE: not characterised). -/
opaque freeKhz : Nat → Nat → Nat

end Sys2Proof.Config
end

