-- ==== Sys2Proof/Machine/StateFabric.lean ====
section
/-! DEFINITION. State of the fabric: coded SRAM arrays, beds with their cells, routing, memories, clocks and borders, rakes. -/
namespace Sys2Proof.Machine
open Sys2Proof

/-! ## Coded arrays (R143 to R149) -/

/-- One on-chip SRAM array: the stored data bits, and for each byte how the syndrome that a read of its own location would compute
differs from what the fill left (0 for valid check bits where the decoders were sound). A persistent decoder fault forces one
address bit; `top` has the bits that were stuck at 0 at the last fill. -/
structure Coded where
  data : Sparse Byte
  syn  : Sparse (BitVec 6)
  dec  : List (Nat × Bool)
  top  : Nat
  deriving DecidableEq, Repr

def Coded.filled : Coded := { data := .empty, syn := .empty, dec := [], top := 0 }

/-! ## Word cells (R50) -/

structure CellCfg where
  bitMode : Bool
  ir      : List Word32
  /-- Word mode: four ports. Bit mode: 64 selections, port * 16 + bit. -/
  xsel    : List Nat
  tables  : List Word16
  deriving DecidableEq, Repr

def CellCfg.blank : CellCfg := { bitMode := false, ir := [], xsel := [], tables := [] }

structure CellSt where
  q0 : Word16
  q1 : Word16
  cl : Bool
  deriving DecidableEq, Repr

def CellSt.zero : CellSt := { q0 := 0, q1 := 0, cl := false }

/-! ## Routing (R82 to R89) -/

structure Tap where
  sel : Nat
  pm  : BitVec 4
  deriving DecidableEq, Repr

def Tap.off : Tap := { sel := 0, pm := 0 }

/-! ## Block memories (R135 to R142, R158) -/

structure BmCfg where
  aspectA : BitVec 3
  aspectB : BitVec 3
  check   : Bool
  rdwA    : BitVec 2
  rdwB    : BitVec 2
  pamA    : BitVec 4
  pamB    : BitVec 4
  used    : Bool
  /-- Input words ADDR, CTRL, WD0 to WD3 of port A, then of port B: 0 is the constant, 1 + p a port of the
  west cluster, 65 + p a port of the east cluster (R137). -/
  inSel   : List Nat
  deriving DecidableEq, Repr

def BmCfg.reset : BmCfg :=
  { aspectA := 0, aspectB := 0, check := false, rdwA := 0, rdwB := 0, pamA := 0, pamB := 0, used := false, inSel := [] }

structure BmStat where
  corr    : Bool
  unc     : Bool
  addr    : Bool
  coll    : Bool
  first   : BitVec 21
  corrCnt : Word16
  uncCnt  : Byte
  collCnt : Byte
  deriving DecidableEq, Repr

def BmStat.reset : BmStat :=
  { corr := false, unc := false, addr := false, coll := false, first := 0, corrCnt := 0, uncCnt := 0, collCnt := 0 }

/-- The output registers of one port (R141). -/
structure PortOut where
  rd    : BitVec 64
  rstat : BitVec 4
  deriving DecidableEq, Repr

def PortOut.zero : PortOut := { rd := 0, rstat := 0 }

structure BmInject where
  mem : BitVec 6
  pos : BitVec 5
  arm : Bool
  deriving DecidableEq, Repr

def BmInject.reset : BmInject := { mem := 0, pos := 0, arm := false }

/-! ## Bed configuration, as an image gives it -/

structure BedCfg where
  fold   : Nat
  /-- Cell `cluster * 16 + cell`. -/
  cells  : Sparse CellCfg
  /-- Output selector `cluster * 32 + length4 * 16 + side * 4 + line` (sides N, E, S, W): 0 undriven, else port + 1. -/
  outSel : Sparse Nat
  /-- Taps: see `hTap` and `vTap` in Machine/Fabric.lean. -/
  taps   : Sparse Tap
  /-- Bed-line drivers: cluster and port. -/
  blines : List (Option (Nat × Nat))
  bms    : Sparse BmCfg
  deriving DecidableEq, Repr

def BedCfg.blank : BedCfg :=
  { fold := 1, cells := .empty, outSel := .empty, taps := .empty, blines := List.replicate 8 none, bms := .empty }

/-! ## Bed clock (R95 to R105) -/

structure BedClock where
  signedFreq   : BitVec 24
  stretchCfg   : Word32
  lockCfg      : Word32
  stretchCount : Word32
  droopEvents  : Word32
  freeCode     : BitVec 12
  /-- LOCK_CFG and FREE_CODE as sampled with EN. -/
  lockEff      : Word32
  freeEff      : BitVec 12
  /-- Twice the frequency in Hz of the reference that LOCKED is locked to, or was last (R100). -/
  refFreq      : Nat
  /-- THROTTLE.STEP as written, and as in effect since the last user-cycle start. -/
  throttle     : BitVec 4
  thrEff       : Nat
  /-- Stretch step s of R98; a flag seen in the current and in the previous micro-cycle. -/
  s            : Nat
  /-- The s in the period of the micro-cycle in progress: a flag within 300 ps of its edge leaves it (R98 step 2). -/
  sEdge        : Nat
  flagged      : Bool
  run          : Bool
  clean        : Nat
  atMax        : Nat
  /-- Elapsed part of the micro-cycle in progress: 256 times picoseconds times the frequency. -/
  acc          : Nat
  /-- A stop (EN = 0) or a pause (READBACK, debug freeze) is due at the end of the user cycle. -/
  stopDue      : Bool
  pauseDue     : Bool
  deriving DecidableEq, Repr

def BedClock.reset : BedClock :=
  { signedFreq := 0, stretchCfg := 0x20100204, lockCfg := 0x101, stretchCount := 0, droopEvents := 0, freeCode := 0, lockEff := 0x101, freeEff := 0, refFreq := 0,
    throttle := 0, thrEff := 0, s := 0, sEdge := 0, flagged := false, run := false, clean := 0, atMax := 0, acc := 0,
    stopDue := false, pauseDue := false }

/-! ## Border (chapter "Border channels") -/

/-- A captured token and the end that it was captured for (R119). -/
structure Token where
  val  : BitVec 128
  dest : Option ChanEnd
  deriving DecidableEq, Repr

structure ChanSt where
  cfg     : Word32
  tx      : List Token
  /-- Tokens across dies that have left the transmit buffer, oldest first: their slots stand in frames or at the hub. -/
  flight  : List Token
  /-- Level updates that wait, and those across dies whose slots are under way, with their receiver: none once a commit or the end
  of service of the sender has made the update void (R107, R121). -/
  levels  : List (Word32 × Option ChanEnd)
  lvlFly  : List (Word32 × Option ChanEnd)
  credits : Nat
  /-- Credits that wait at the receiving end for a credit slot (R126). -/
  credBack : Nat
  fifo    : List (BitVec 128)
  arrive  : Word32
  /-- Value of an outgoing level channel. -/
  level   : Word32
  /-- Last value received on an incoming level channel since the commit. -/
  rxLevel : Option Word32
  /-- The sender's bed has completed a boundary since its commit (R121). -/
  rxLive  : Bool
  deriving DecidableEq, Repr

def ChanSt.reset : ChanSt :=
  { cfg := 0, tx := [], flight := [], levels := [], lvlFly := [], credits := 64, credBack := 0, fifo := [], arrive := 0, level := 0,
    rxLevel := none, rxLive := false }

/-- A boundary that has begun: its sets O and I as channel keys `side * 64 + k`, and what was carried in
φ(F − 1) (R111 to R113). -/
structure Boundary where
  outs   : List (Nat × BitVec 128)
  ins    : List Nat
  levels : List (Nat × Word32)
  /-- GPIO values and output enables of the outward lines in φ(F − 1) (R612). -/
  pins   : Word32 × Word32
  /-- The boundary has made the bed wait, for this many ns before the wait was last interrupted. -/
  waited : Option Nat
  deriving DecidableEq, Repr

inductive BedState where
  | unconfigured | committed | running | waiting | paused | stopped | fallow | cut
  deriving DecidableEq, Repr

structure Border where
  chans     : Sparse ChanSt
  bound     : Option Boundary
  waitStart : Nat
  alarmed   : Bool
  alarm     : Bool
  blk       : Option (Nat × Nat × Bool)
  waitCount : Word32
  waitLimit : BitVec 20
  discards  : Word32
  sunk      : List Nat
  deriving DecidableEq, Repr

def Border.reset : Border :=
  { chans := .empty, bound := none, waitStart := 0, alarmed := false, alarm := false, blk := none, waitCount := 0,
    waitLimit := 0, discards := 0, sunk := [0, 0, 0, 0] }

/-! ## Beds -/

structure Contention where
  seen   : Bool
  first  : Option (Bool × Nat × Nat × Nat)
  count  : Nat
  deriving DecidableEq, Repr

def Contention.reset : Contention := { seen := false, first := none, count := 0 }

structure Bed where
  st        : BedState
  cutFlag   : Bool
  cfg       : BedCfg
  cells     : Sparse CellSt
  phase     : Nat
  cycle     : Nat
  rowEn     : Word16
  rowCe     : Word32
  rowCeSrc  : BitVec 3
  /-- Bed-line values of the last phase of the previous user cycle (R93). -/
  blines    : List Word16
  /-- Taps disabled after a contention (R90). -/
  tapsOff   : List Nat
  contention : Contention
  clock     : BedClock
  border    : Border
  ports     : Sparse PortOut
  bmStat    : Sparse BmStat
  bmBad     : Sparse Bool
  inject    : BmInject
  /-- REPAIR: logical column and SOURCE, when a column repair is applied (R78). -/
  repair    : Option (Nat × Bool)
  unusable  : Bool
  /-- The loader's stop in progress leaves the bed FALLOW (R473), and whether a policy action asked for it. -/
  fallowDue : Option Bool
  /-- Configuration frame of type t and index i at key t * 65536 + i; no frame is the all-zero frame (R448, R449). -/
  frames    : Sparse (List Byte)
  /-- The bed keeps a configuration (R474), its digest at the commit, and whether a policy action made it fallow. -/
  kept      : Bool
  digest    : List Byte
  byPolicy  : Bool
  /-- READBACK holds the bed PAUSED (R477): during a capture, or by HOLD = 1. -/
  rbHold    : Bool
  /-- GPIO pins of the W and E side as sampled for the user cycle: bit cluster row * 2 + line (R612). -/
  pinW      : Word32
  pinE      : Word32
  /-- Values and output enables that the pins took at the last completed boundary. -/
  pinOut    : Word32
  pinEn     : Word32
  deriving DecidableEq, Repr

def Bed.reset : Bed :=
  { st := .unconfigured, cutFlag := false, cfg := .blank, cells := .empty, phase := 0, cycle := 0, rowEn := 0,
    rowCe := 0xFFFF0000, rowCeSrc := 0, blines := List.replicate 8 0, tapsOff := [], contention := .reset,
    clock := .reset, border := .reset, ports := .empty, bmStat := .empty, bmBad := .empty, inject := .reset,
    repair := none, unusable := false, fallowDue := none, frames := .empty, kept := false, digest := [], byPolicy := false, rbHold := false, pinW := 0, pinE := 0, pinOut := 0, pinEn := 0 }

/-- The stream ports of one Fraelm core (R110, R201): inbound FIFOs and transmit buffers. -/
structure CoreIo where
  lIn      : List (BitVec 128)
  uIn      : List (BitVec 128)
  lOut     : List (BitVec 128)
  uOut     : List (BitVec 128)
  /-- The core cannot be used (R171). -/
  unusable : Bool
  deriving DecidableEq, Repr

def CoreIo.reset : CoreIo := { lIn := [], uIn := [], lOut := [], uOut := [], unusable := false }

/-! ## Rakes (R152 to R157) -/

structure Rake where
  cls      : Nat
  repairMode : Bool
  index    : Nat
  start    : Nat
  len      : Nat
  /-- Bytes covered so far, and the counters of the summary record. -/
  done     : Nat
  words    : Nat
  corr     : Nat
  unc      : Nat
  addr     : Nat
  repaired : Nat
  firstCorr : Option (Nat × Nat)
  firstBad : Option (Nat × Nat)
  skipped  : Nat
  tStart   : Nat
  aborted  : Bool
  inst     : Inst
  /-- Device time, in ns, of the latest slot or skip, or of the start of the pass. -/
  slotAt   : Nat
  deriving DecidableEq, Repr

end Sys2Proof.Machine
end

