-- ==== Sys2Proof/Machine/StateBoard.lean ====
section
/-! DEFINITION. State of self-test and repair (R555 to R573), of start-up (R150, R352, R480, R601) and of the board's
monitors (R618, R619). -/
namespace Sys2Proof.Machine
open Sys2Proof

/-- What the save region holds of a bed under test (R567): the bed, and its block memories in ascending order. -/
structure SavedBed where
  bed   : Nat
  state : Bed
  mems  : List Coded
  deriving DecidableEq, Repr

/-- A BIST in progress. -/
structure BistRun where
  /-- 1 at shutdown, 2 by BIST_RUN (R571). -/
  kind   : Nat
  repair : Bool
  /-- Beds still under test, and the range of BIST_RUN. -/
  beds   : List Nat
  first  : Nat
  count  : Nat
  start  : Nat
  /-- Soft repairs in effect before it, and whether the history queue ran. -/
  before : Nat
  hist   : Bool
  /-- Empty in a BIST at shutdown, which saves no state (R563). -/
  saves  : List SavedBed
  deriving DecidableEq, Repr

structure Bist where
  /-- Fuse record slots that have been burnt, in order, and the soft repairs in effect (R556, R558). -/
  fuses : List Nat
  soft  : List Nat
  run   : Option BistRun
  /-- What the monitors of R561 last found. -/
  condOk : Bool
  deriving DecidableEq, Repr

def Bist.reset : Bist := { fuses := [], soft := [], run := none, condOk := true }

structure Startup where
  /-- Start-up follows POR_N, not a device reset. -/
  por     : Bool
  /-- SYS_RESET_N is low: the device reset lasts. -/
  sysLow  : Bool
  /-- A device reset waits for the safe state to be complete (R544). -/
  due     : Bool
  checker : Bool
  fill    : Bool
  links   : Bool
  puf     : Bool
  trained : Bool
  /-- Start-up has stopped before any management core leaves reset (R150, R352, R601). -/
  stopped : Bool
  /-- Rails whose first setpoint has been acknowledged, and the setpoints in mV (R601). -/
  acks    : Byte
  rails   : List Nat
  /-- When each rail's setpoint moved last, in ns. -/
  moved   : List Nat
  /-- What link training found before the fill was complete (R352). -/
  found   : Option (List LinkTrain)
  /-- Almanac records lost by the reset: first SEQ and number (R519). -/
  lost    : Option (Nat × Nat)
  deriving DecidableEq, Repr

def Startup.reset : Startup :=
  { por := true, sysLow := false, due := false, checker := false, fill := false, links := false, puf := false, trained := false,
    stopped := false, acks := 0, rails := List.replicate 8 750, moved := List.replicate 8 0, found := none, lost := none }

structure Board where
  /-- The latest sample of each TEMP instance, in units of 0.25 °C. -/
  temps : Sparse Int
  /-- THERM_N is driven low. -/
  therm : Bool
  /-- The word that SMBus last returned; `none` a NACK. -/
  smbus : Option Word16
  deriving DecidableEq, Repr

def Board.reset : Board := { temps := .empty, therm := false, smbus := none }

end Sys2Proof.Machine
end

