-- ==== Sys2Proof/Machine/StateInfra.lean ====
section
/-! DEFINITION. State of the whole-device units: digital shells, fault collectors, Trellis, time,
plots and trust, almanac, management transports. -/
namespace Sys2Proof.Machine
open Sys2Proof

/-! ## Digital shells (R36 to R45) -/

structure Shell where
  en        : Bool
  mspec     : BitVec 15
  start     : Bool
  kind      : BitVec 3
  cont      : Bool
  result    : BitVec 2
  measVal   : BitVec 24
  measSeq   : BitVec 7
  measValid : Bool
  st        : ShellSt
  err       : Bool
  mstat     : Word16
  /-- TRIM.VALUE once software has written it; `none` is the fused code (R623). -/
  trim      : Option (BitVec 24)
  trimLock  : Bool
  /-- R38: a write of EN = 0 remembered during STARTING. -/
  pendStop  : Bool
  /-- The trim that the last start sequence applied (TRIM.VALUE: applied on entry to STARTING). -/
  applied   : Option (BitVec 24)
  /-- R44: plot and initiator of an accepted deferred enable whose SELF record is still due. -/
  deferral  : Option (Nat × Nat)
  /-- MSPEC as sampled with EN on entry to STARTING (R608). -/
  sampled   : BitVec 15
  deriving DecidableEq, Repr

def Shell.reset : Shell :=
  { en := false, mspec := 0, start := false, kind := 0, cont := false, result := 0, measVal := 0,
    measSeq := 0, measValid := false, st := .idle, err := false, mstat := 0, trim := none,
    trimLock := false, pendStop := false, applied := none, deferral := none, sampled := 0 }

/-! ## Faults (chapter "Faults and the safe state") -/

structure SrcWord where
  sticky : Bool
  maxCls : Nat
  count  : Nat
  deriving DecidableEq, Repr

def SrcWord.reset : SrcWord := { sticky := false, maxCls := 0, count := 0 }

/-- A fault record (R536). -/
structure FltRec where
  rep        : Report
  plotValid  : Bool
  plot       : Nat
  merged     : Nat
  safe       : Bool
  overflowed : Bool
  almSeq     : Nat
  deriving DecidableEq, Repr

/-- A report on a node collector's FREPORT line, with its merged count (R530). -/
structure Sending where
  die    : DieId
  rep    : Report
  merged : Nat
  deriving DecidableEq, Repr

/-- The safe state that holds: none, C3 or C4 (R529, R541). -/
inductive SafeLevel where
  | none | c3 | c4
  deriving DecidableEq, Repr

structure Faults where
  /-- Reports detected and not yet taken by their collector, oldest first. -/
  arriving  : List Report
  /-- Reports on FREPORT lines, oldest first. -/
  sending   : List Sending
  words     : Sparse SrcWord
  first     : List (Option FltRec)
  history   : List FltRec
  histOvf   : Nat
  errMask   : BitVec 3
  mode      : Bool
  irqMin    : BitVec 2
  autoReset : Word16
  low       : Bool
  held      : Bool
  /-- Device time at which the 100 µs minimum began, while it runs (R548). -/
  pulse     : Option Nat
  clearDue  : Bool
  selfFault : Bool
  selfCorr  : Nat
  /-- The class that each compute die has applied (R543), and the hub's own. -/
  dieSafe   : List SafeLevel
  fsafe     : SafeLevel
  fatalAt   : Option Nat
  /-- Reports handled as records before DEV_STATE first became USER (R538). -/
  histRun   : Bool
  lastFault : Option FltRec
  deriving DecidableEq, Repr

def Faults.reset : Faults :=
  { arriving := [], sending := [], words := .empty, first := [none, none, none, none, none],
    history := [], histOvf := 0, errMask := 4, mode := false, irqMin := 2, autoReset := 0,
    low := false, held := false, pulse := none, clearDue := false, selfFault := false,
    selfCorr := 0, dieSafe := [.none, .none, .none, .none, .none, .none, .none, .none],
    fsafe := .none, fatalAt := none, histRun := true, lastFault := none }

/-! ## Trellis -/

inductive TagState where
  | free | busy | expired | tainted
  deriving DecidableEq, Repr

structure Tag where
  st     : TagState
  gen    : BitVec 2
  /-- Device time at which the timer started, and the timeout then in force (R253). -/
  start  : Nat
  tmo    : Nat
  opc    : Opc
  bytes  : Nat
  addr   : Nat
  deriving DecidableEq, Repr

def Tag.reset : Tag := { st := .free, gen := 0, start := 0, tmo := 0, opc := .read, bytes := 0, addr := 0 }

/-- The statistics counters of one initiator (R260). -/
structure Stats where
  rdBytes : Nat
  wrBytes : Nat
  reqs    : Nat
  maxLat  : Nat
  tmo     : Nat
  near    : Nat
  late    : Nat
  err     : Nat
  hist    : List Nat
  deriving DecidableEq, Repr

def Stats.reset : Stats :=
  { rdBytes := 0, wrBytes := 0, reqs := 0, maxLat := 0, tmo := 0, near := 0, late := 0, err := 0,
    hist := List.replicate 16 0 }

/-- One initiator window with its tags and taint entries (R254 to R265). -/
structure InitWin where
  weight    : BitVec 4
  /-- INIT_CFG.PRI once written; `none` is the default of R239. -/
  pri       : Option (BitVec 2)
  tmo       : BitVec 30
  taint     : Word16
  freeze    : Bool
  stats     : Stats
  tags      : Sparse Tag
  /-- Taint entries in use: tag and the device time at which the entry runs out (ns). -/
  taints    : List (Nat × Nat)
  /-- EXPIRED tags, in the order in which they expired. -/
  expired   : List Nat
  stalled   : Bool
  /-- R250: the packet at the head of its queue competes as class 2. -/
  promoted  : Bool
  deriving DecidableEq, Repr

def InitWin.reset : InitWin :=
  { weight := 1, pri := none, tmo := 0x186A0, taint := 0x3E8, freeze := true, stats := .reset,
    tags := .empty, taints := [], expired := [], stalled := false, promoted := false }

/-- Ring registers of a die, or of the spine (R263, R264). -/
structure Rings where
  starve  : BitVec 10
  promote : BitVec 12
  laps    : Word32
  corr    : Word16
  unc     : Word16
  /-- Marks of R252: the position of the stop that holds one, and the ring. -/
  marks   : List (Nat × Nat)
  /-- R234: the first refused packet, for which a stop holds the next buffer that frees: position of the stop, ring and initiator. -/
  refused : List (Nat × Nat × InitId)
  deriving DecidableEq, Repr

def Rings.reset : Rings :=
  { starve := 128, promote := 256, laps := 0, corr := 0, unc := 0, marks := [], refused := [] }

/-- Where a packet of the network stands (R230 to R237): in the queue of a stop, on a ring of its site, or at a bridge, waiting to
cross a link in one direction. -/
inductive Stage where
  | queue
  | ring
  | bridge (link dir : Nat)
  deriving DecidableEq, Repr

/-- A packet of the network on one site, which is a compute die 0 to 7 or the spine 8: the stop that inserts it, the stop and the ring
that take it on, and whether that stop is its destination or a bridge. -/
structure Leg where
  id    : Nat
  body  : Parcel
  site  : Nat
  stop  : Nat
  dst   : Nat
  ring  : Nat
  final : Bool
  stage : Stage
  /-- Ring cycle at which it entered the queue, and at which it came to the head of its initiator's queue (R250). -/
  since : Nat
  head  : Option Nat
  /-- Flits inserted, and flits ejected at `dst`, whose header that stop has accepted. -/
  sent  : Nat
  got   : Nat
  /-- The link and direction (link * 2 + direction) whose flit buffers it holds at this bridge (R344). -/
  src   : Option Nat
  deriving DecidableEq, Repr

/-- A flit on a ring: its packet and its place in it. -/
structure Flit where
  leg : Nat
  idx : Nat
  deriving DecidableEq, Repr

/-- A ring slot that is full, marked or reserved (R230, R252): the position it stands at, the stop that has marked it, and the stop
that it is reserved for. -/
structure Slot where
  site : Nat
  ring : Nat
  pos  : Nat
  flit : Option Flit
  mark : Option Nat
  resv : Option Nat
  deriving DecidableEq, Repr

/-- The arbitration state of a stop: for each ring the cycle from which it has had a flit ready without a slot, plus 1 (R252);
packets inserted in the current round, at key class * 256 + local index (R249); and whether each of the latest three insertions was
of class 3 (R251). -/
structure StopSt where
  ready  : Sparse Nat
  round  : Sparse Nat
  recent : List Bool
  deriving DecidableEq, Repr

def StopSt.reset : StopSt := { ready := .empty, round := .empty, recent := [] }

/-- A reservation at a target stop (R245): stop (0 MW, 1 ME, 2 + core), initiator, line. -/
structure Resv where
  stop : Nat
  init : InitId
  line : Nat
  deriving DecidableEq, Repr

/-- Why a request waits at its target (R248, R327, R411, R287). -/
inductive WaitFor where
  | pageLock (page : Nat)
  /-- Line whose answer is awaited, and lines already answered. -/
  | snoop (line : Nat) (done : List Nat)
  | selfRefresh (chan : Nat)
  | queue (chan : Nat)
  /-- At the access point of a bed, which has not accepted it; and accepted by the bed (R30). -/
  | bed (n : Nat)
  | taken (n : Nat)
  | map
  deriving DecidableEq, Repr

structure Waiting where
  pkt  : Pkt
  why  : WaitFor
  deriving DecidableEq, Repr

structure Trellis where
  wins      : Sparse InitWin
  rings     : List Rings
  spine     : Rings
  hlUp      : Byte
  nlUp      : BitVec 6
  /-- Requests issued and not yet taken at their target. -/
  net       : List Pkt
  /-- Requests held at a target. -/
  waiting   : List Waiting
  /-- Responses in the network. -/
  rsps      : List Rsp
  resvs     : List Resv
  /-- Half latches of R10, normal and debug: register address ↦ (initiator, upper half). -/
  latch     : Sparse (Nat × Nat)
  latchDbg  : Sparse (Nat × Nat)
  /-- The plot of the loader's and the tiller engines' operations, by local index (R240). -/
  opPlot    : Sparse Nat
  /-- Links of the path that a bridge chose last (R236). -/
  lastRoute : List Nat
  /-- Where the packets of `net` and `rsps` stand: one that has no leg has just come to its stop's queue. -/
  legs      : List Leg
  slots     : List Slot
  /-- Stop at position p of site n at key n * 128 + p. -/
  stops     : Sparse StopSt
  /-- The next number of a leg. -/
  serial    : Nat
  /-- A read of the running row's transfer must wait at its target; false between rows. -/
  stuck     : Bool
  deriving DecidableEq, Repr

def Trellis.reset : Trellis :=
  { wins := .empty, rings := List.replicate 8 Rings.reset, spine := .reset, hlUp := 0, nlUp := 0,
    net := [], waiting := [], rsps := [], resvs := [], latch := .empty, latchDbg := .empty,
    opPlot := .empty, lastRoute := [], legs := [], slots := [], stops := .empty, serial := 0, stuck := false }

/-! ## Time (chapter "Time bases and time-stamps") -/

/-- Discipline of a base (R387). -/
inductive TbMode where
  | software | pps | freq
  deriving DecidableEq, Repr

/-- A scheduled change of RADJ (R396): the microsecond at whose start it takes effect, and the new FADJ or
slew contribution. -/
structure RadjChange where
  atUs    : Nat
  fadj    : Option Int
  contrib : Option Int
  /-- The change that ends a slew. -/
  ends    : Bool
  deriving DecidableEq, Repr

structure TimeBase where
  /-- The value in units of 2^−48 ns (R385, R386). -/
  val      : Nat
  /-- TB_FADJ, and the FADJ and slew contribution now in force, whose sum is RADJ (R396). -/
  fadj     : Int
  fadjEff  : Int
  contrib  : Int
  pend     : List RadjChange
  /-- The running slew: total OFFSET in units of 2^−16 ns, and its first microsecond (R390). -/
  slew     : Int
  slewFrom : Nat
  mode     : TbMode
  pin      : Bool
  tc       : Byte
  locked   : Bool
  /-- Servo: an edge has been taken since the mode was selected, consecutive good edges, last edge (ns). -/
  gotEdge  : Bool
  good     : Nat
  lastEdge : Nat
  isSet    : Bool
  secLatch : Nat
  /-- A TB_SET value, and a step, that take effect at the next tick (R389, R390). -/
  load     : Option Nat
  step     : Int
  /-- The base was set or stepped since the hub last sent its words (R394). -/
  moved    : Bool
  deriving DecidableEq, Repr

def TimeBase.reset : TimeBase :=
  { val := 0, fadj := 0, fadjEff := 0, contrib := 0, pend := [], slew := 0, slewFrom := 0, mode := .software,
    pin := false, tc := 16, locked := false, gotEdge := false, good := 0, lastEdge := 0, isSet := false,
    secLatch := 0, load := none, step := 0, moved := false }

/-- A compute die's replica of one source (R394 to R396), kept against the hub's value. -/
structure Replica where
  /-- Replica minus hub, in units of 2^−48 ns. -/
  off       : Int
  /-- The replica's RADJ, and those that messages announced: the microsecond at whose start each takes effect (R396). -/
  radj      : Int
  due       : List (Nat × Int)
  /-- Residual error being slewed out, and the ticks left for it (R395). -/
  slew      : Int
  slewTicks : Nat
  /-- Device time of the last WORD 0, in ns. -/
  lastRx    : Nat
  holdover  : Bool
  deriving DecidableEq, Repr

def Replica.reset : Replica :=
  { off := 0, radj := 0, due := [], slew := 0, slewTicks := 0, lastRx := 0, holdover := false }

structure PpsOut where
  tb    : TbId
  width : Byte
  /-- Device time at which the pulse ends, while the pin is high. -/
  high  : Option Nat
  deriving DecidableEq, Repr

structure StartAt where
  tb     : TbId
  target : Nat
  /-- R402: a backward set re-arms the comparison. -/
  fired  : Bool
  deriving DecidableEq, Repr

structure Time where
  ticks      : Nat
  /-- Device time at which the latest reset ended the replicas' earlier lives, in ns. -/
  began      : Nat
  bases      : List TimeBase
  /-- Replica of source `src` (0 to 7 the bases, 8 device time) on die `d`, at key `d * 9 + src`. -/
  replicas   : Sparse Replica
  /-- Sideband latency measured by each die in link training, in ticks (R395). -/
  latency    : List Nat
  /-- The TIME messages of the latest broadcast: die and message bits [47:8] (R394). -/
  sent       : List (Nat × Nat)
  freqClass  : BitVec 2
  failed     : Byte
  onestep    : Word32
  /-- PPS_CAP of input k and base n at key `k * 8 + n`: the 96-bit value. -/
  ppsCap     : Sparse Nat
  ppsOut     : List PpsOut
  ppsIn      : List Bool
  rxBase     : Sparse Nat
  startAt    : Option StartAt
  deriving DecidableEq, Repr

def Time.reset : Time :=
  { ticks := 0, began := 0, bases := List.replicate 8 TimeBase.reset, replicas := .empty,
    latency := List.replicate 8 0, sent := [], freqClass := 0, failed := 0,
    onestep := 0, ppsCap := .empty,
    ppsOut := [{ tb := 0, width := 0, high := none }, { tb := 0, width := 0, high := none }],
    ppsIn := [false, false], rxBase := .empty, startAt := none }

/-! ## Plots, keys, policy (chapter "Trust, plots and the almanac") -/

/-- Lifecycle state codes (R624). -/
inductive Lifecycle where
  | blank | provisioned | deployed | rma | decommissioned
  deriving DecidableEq, Repr

structure PlotSt where
  present   : Bool
  sealed    : Bool
  ownerKey  : Option (List Byte)
  /-- ROOT, ECDSA_PUB and MLDSA_PUB as PLOT_CREATE delivered them (R489). -/
  root      : List Byte
  ecdsaPub  : List Byte
  mldsaPub  : List Byte
  quota     : Nat
  fallow    : Bool
  zeroised  : Bool
  /-- R436: PLOT_DESTROY has been accepted; and its steps 1 to 5 have begun (R494). -/
  dying     : Bool
  torn      : Bool
  /-- Measurement blocks 5 and 6 (R495). -/
  meas5     : List Byte
  meas6     : List Byte
  /-- The fabric port's area (R424). -/
  portAddr  : Nat
  /-- The value of POST that the command in progress answers. -/
  portPost  : Nat
  deriving DecidableEq, Repr

def PlotSt.none : PlotSt :=
  { present := false, sealed := false, ownerKey := .none, root := [], ecdsaPub := [], mldsaPub := [],
    quota := 0, fallow := false, zeroised := false, dying := false, torn := false, meas5 := [], meas6 := [],
    portAddr := 0, portPost := 0 }

/-- A policy rule (R501). -/
structure Rule where
  kind     : Byte
  cmp      : Byte
  inst     : Word16
  thresh   : Int
  count    : Nat
  window   : Nat
  action   : Byte
  arg      : Byte
  target   : Word16
  holdoff  : Nat
  deriving DecidableEq, Repr

/-- n, s and h of one rule and sensor (R502), in ns. -/
structure RuleCount where
  n : Nat
  s : Nat
  h : Nat
  deriving DecidableEq, Repr

def RuleCount.zero : RuleCount := { n := 0, s := 0, h := 0 }

structure Policy where
  /-- `none` while the built-in rules of R506 apply. -/
  table   : Option (List Rule)
  version : Word32
  floor   : Word32
  classes : List Nat
  digest  : List Byte
  /-- Counts of rule r and sensor i at key `r * 65536 + i`. -/
  counts  : Sparse RuleCount
  fired   : Sparse Nat
  /-- Occurrences waiting for evaluation (R509): kind, instance, value, device time in ns. -/
  queue   : List (Nat × Nat × Int × Nat)
  deriving DecidableEq, Repr

def Policy.reset : Policy :=
  { table := none, version := 0, floor := 0, classes := [4, 4, 4, 4, 2], digest := [], counts := .empty,
    fired := .empty, queue := [] }

/-- An almanac record (R510). -/
structure AlmRec where
  seq       : Nat
  origin    : Nat
  time      : Nat
  principal : Nat
  objClass  : Nat
  objId     : Nat
  action    : Nat
  status    : Nat
  before    : Nat
  after     : Nat
  chain     : Nat
  tb0ns     : Nat
  tb0sec    : Nat
  flags     : Nat
  count     : Nat
  deriving DecidableEq, Repr

structure Almanac where
  /-- Closed records still in the buffer, oldest first. -/
  recs      : List AlmRec
  opened    : Option AlmRec
  next      : Nat
  acked     : Nat
  exported  : Option Nat
  chain     : Nat
  epoch     : Nat
  lost      : Nat
  sealed    : Bool
  exhausted : Bool
  deriving DecidableEq, Repr

def Almanac.reset : Almanac :=
  { recs := [], opened := none, next := 0, acked := 0, exported := none, chain := 0, epoch := 0, lost := 0,
    sealed := false, exhausted := false }

/-- Trust state of the warden pair. -/
structure Trust where
  lifecycle : Lifecycle
  dk        : Bool
  pufFail   : Bool
  /-- The boot nonce of R481, as a draw number of the random generator; `none` before it is drawn. -/
  nonce     : Option Nat
  /-- PRK_B keys (key 255, KT) and KW held: false once zeroised. -/
  bootKeys  : Bool
  kw        : Bool
  /-- The owner fuse block: its payload bytes once burned (R485), and its invalidation fuse. -/
  ownerBlk  : Option (List Byte)
  ownerInv  : Bool
  slot1     : List Byte
  plots     : List PlotSt
  /-- Report and its instance for ATTEST_GET PART 1 and 2 (R496). -/
  reports   : List (Inst × List Byte)
  /-- Number of values drawn from the random generator. -/
  draws     : Nat
  /-- TRIM.LOCK has been set in every shell at once (R485, TRIM). -/
  trimLockAll : Bool
  deriving DecidableEq, Repr

/-- Plot 0 exists at every start (R488); 254 key slots less the other plots' quotas (PLOT_STATE). -/
def PlotSt.zero : PlotSt := { PlotSt.none with present := true, quota := 254 }

/-- No fuse burnt, no key present. DESIGN CHOICE (log 7). -/
def Trust.reset : Trust :=
  { lifecycle := .blank, dk := false, pufFail := false, nonce := none, bootKeys := false, kw := false,
    ownerBlk := none, ownerInv := false, slot1 := [], plots := PlotSt.zero :: List.replicate 15 PlotSt.none,
    reports := [], draws := 0, trimLockAll := false }

/-- MSI-X state of the sixteen logical devices (R416): table entry v of device n at key `n * 128 + v`. -/
structure MsixEntry where
  mask    : Bool
  pending : Bool
  addr    : Word64
  data    : Word32
  deriving DecidableEq, Repr

/-- MSI-X table entries are masked after reset, as the MSI-X definition has them. PRESUMED (log 85). -/
def MsixEntry.reset : MsixEntry := { mask := true, pending := false, addr := 0, data := 0 }

structure Msix where
  entries : Sparse MsixEntry
  enable  : Word16
  fmask   : Word16
  /-- Interrupt messages sent, oldest first: logical device and vector. -/
  sent    : List (Nat × Nat)
  deriving DecidableEq, Repr

def Msix.reset : Msix := { entries := .empty, enable := 0, fmask := 0, sent := [] }

/-- Owners of the divisible objects (R31, R488): plot numbers, 0 unless listed. -/
structure Owners where
  beds    : Sparse Nat
  cores   : Sparse Nat
  lanes   : Sparse Nat
  engines : Sparse Nat
  deriving DecidableEq, Repr

def Owners.reset : Owners := { beds := .empty, cores := .empty, lanes := .empty, engines := .empty }

/-! ## Management commands -/

/-- The replay window of R428 and the statuses of R429. -/
structure SeqWin where
  high     : Word32
  accepted : Word64
  statuses : List (Word32 × Word16)
  deriving DecidableEq, Repr

def SeqWin.reset : SeqWin := { high := 0, accepted := 0, statuses := [] }

structure Session where
  id       : Word32
  opening  : Bool
  plot     : PlotId
  inst     : Inst
  win      : SeqWin
  /-- The SPDM transcript so far, and the export master secret once the exchange has finished. -/
  script   : List Byte
  secret   : List Byte
  deriving DecidableEq, Repr

structure Reply where
  opcode  : Word16
  status  : Word16
  seq     : Word32
  plot    : Byte
  rflags  : Byte
  session : Word32
  mac     : List Byte
  payload : List Byte
  deriving DecidableEq, Repr

/-- Objects that a command holds while in progress (R432). -/
inductive Obj where
  | bed (b : Nat) | core (c : Nat) | lane (l : Nat) | engine (e : Nat) | chan (c : Nat)
  | region (r : Nat) | key (k : Nat) | plot (p : Nat) | almanac | policy | array (cls mode idx : Nat)
  | loader | device
  deriving DecidableEq, Repr

/-- A command in progress on a transport (R423, R432). -/
structure Progress where
  inst   : Inst
  opcode : Word16
  pkt    : Packet
  holds  : List Obj
  /-- Its reply is discarded: its logical device has been reset (R417). -/
  mute   : Bool
  deriving DecidableEq, Repr

/-- Bytes of a packet arriving on a byte transport, and the device time of its first byte (R434). -/
structure Arriving where
  inst  : Inst
  bytes : List Byte
  start : Nat
  deriving DecidableEq, Repr

/-- DEV_STATE (R437), and the state after C4 in which no transport answers. -/
inductive DevState where
  | start | ready | user | shutdown | fatal
  deriving DecidableEq, Repr

structure Mgmt where
  dev      : DevState
  /-- The management cores have left reset, and no C4 holds. -/
  up       : Bool
  /-- Entries 0 to 31 of R444. -/
  sessions : List (Option Session)
  ports    : List SeqWin
  progress : List Progress
  /-- Objects held without a command in progress: by a BIST run after its reply, and by the automatic golden load. -/
  held     : List Obj
  replies  : List (Inst × Reply)
  partials : List Arriving
  tmo      : Word16
  fpPoll   : Byte
  authFail : Word16
  replay   : Byte
  near     : Byte
  /-- Commands that arrived while the command pair was halted (R593): instance, opcode, packet. -/
  parked   : List (Inst × Nat × Packet)
  /-- The bytes that a host last read from a slave port, a mailbox or a DOE. -/
  sent     : List Byte
  deriving DecidableEq, Repr

def Mgmt.reset : Mgmt :=
  { dev := .start, up := false, sessions := List.replicate 32 none, ports := List.replicate 16 SeqWin.reset, progress := [], held := [],
    replies := [], partials := [], tmo := 100, fpPoll := 4, authFail := 0, replay := 0, near := 0, parked := [], sent := [] }

end Sys2Proof.Machine
end

