-- ==== Sys2Proof/Machine/StateCfg.lean ====
section
/-! DEFINITION. State of the configuration loader (R453 to R479), of start-up, and of the board monitor (R599 to R619). -/
namespace Sys2Proof.Machine
open Sys2Proof

/-- States of a configuration session (R459). -/
inductive SesState where
  | receiving | rejected | verifying | verified | applying | waitingStart
  deriving DecidableEq, Repr

structure CfgSes where
  st      : SesState
  plot    : Nat
  /-- 0 staging window, 1 CFG_DATA, 2 slave port (R457), 3 the golden load. -/
  path    : Nat
  inst    : Inst
  /-- Its part of the staging region, in units of 2 MiB, and RESERVE. -/
  base    : Nat
  units   : Nat
  reserve : Nat
  bytes   : List Byte
  status  : Nat
  start   : Nat
  /-- Device time of the last byte or command (R459). -/
  touched : Nat
  /-- Committed beds whose generators start with the session, and the cores that it enables (R464). -/
  beds    : List Nat
  cores   : List Nat
  deriving DecidableEq, Repr

/-- A golden load in progress: the copy being tried, those still to try, its session entry, and the command's transport. -/
structure Golden where
  /-- The recovery flash has yet to deliver the first of `rest`. -/
  reading : Bool
  copy  : Nat
  rest  : List Nat
  entry : Option Nat
  cmd   : Option Inst
  /-- Objects held while the image is applied. -/
  holds : List Obj
  deriving DecidableEq, Repr

structure Cfg where
  mode     : BitVec 3
  ctl      : Word32
  doneHeld : Bool
  /-- Another device pulls DONE low, and since when DONE reads high (R465). -/
  others   : Bool
  since    : Option Nat
  /-- The initial commit starts by START_AT: DONE is ignored. -/
  ignored  : Bool
  initDone : Bool
  golden   : BitVec 2
  missed   : Bool
  ses      : List (Option CfgSes)
  gens     : List Nat
  load     : Option Golden
  /-- A golden load waits for a commit in progress (R470). -/
  loadDue  : Bool
  /-- Device time of the entry to READY, until INIT_WAIT has led to a load. -/
  ready    : Option Nat
  deriving DecidableEq, Repr

def Cfg.reset : Cfg :=
  { mode := 0, ctl := 0x000A001E, doneHeld := true, others := false, since := none, ignored := false, initDone := false,
    golden := 0, missed := false, ses := [none, none, none, none], gens := [0, 0, 0, 0], load := none, loadDue := false,
    ready := none }

end Sys2Proof.Machine
end

