-- ==== Sys2Proof/Machine/StateCore.lean ====
section
/-! DEFINITION. State of the Fraelm cores (R162, R165, R192 to R204), their debug registers (R598), and the debug island. -/
namespace Sys2Proof.Machine
open Sys2Proof

/-- The register files of R162 and R218, with the predicates, vectors and accumulators. -/
inductive RegFile where
  | v | ac | s | a | m | b | l | p | ctl | loop
  deriving DecidableEq, Repr

/-- A physical register: file and number. -/
structure Reg where
  file : RegFile
  idx  : Nat
  deriving DecidableEq, Repr

/-- What an operation in flight does when its latency has elapsed (R172). -/
inductive Landing where
  /-- The bits of `mask` take those of `val`. -/
  | write (r : Reg) (mask val : Nat)
  /-- Each lane of `lane` bits that `mask` covers adds the lane of `delta` (R214). -/
  | accum (idx lane mask delta : Nat)
  /-- Sticky PSTAT flags. -/
  | flags (f : Nat)
  /-- A load read an uncorrectable byte: exception DATA_ERR (R170, R189). -/
  | dataErr (addr : Nat)
  deriving DecidableEq, Repr

structure Flight where
  left  : Nat
  /-- The bank that was current at issue (R186). -/
  bank  : Bool
  /-- A handler has been entered since the operation issued (R173). -/
  entered : Bool
  what  : Landing
  deriving DecidableEq, Repr

/-- One copy of the shadowed registers. -/
structure RegBank where
  s   : Sparse Word32
  a   : Sparse Word32
  lc0 : Word32
  lc1 : Word32
  ec  : Word32
  rrb : Word32
  lb0 : Word16
  lb1 : Word16
  le0 : Word16
  le1 : Word16
  /-- Loop 0 was set up by LOOPE (R225). -/
  loopE : Bool
  deriving DecidableEq, Repr

def RegBank.zero : RegBank :=
  { s := .empty, a := .empty, lc0 := 0, lc1 := 0, ec := 0, rrb := 0, lb0 := 0, lb1 := 0, le0 := 0, le1 := 0,
    loopE := false }

/-- The state of R162 that is cleared on entry to STARTING, DSTAT and PC apart. -/
structure CoreRegs where
  v      : Sparse (BitVec 512)
  ac     : Sparse (BitVec 1536)
  sHi    : Sparse Word32
  aHi    : Sparse Word32
  m      : Sparse Word32
  b      : Sparse Word32
  l      : Sparse Word32
  p      : Sparse Word64
  main   : RegBank
  shadow : RegBank
  /-- The current bank: `true` is the shadow copy. -/
  bank   : Bool
  pstat  : BitVec 6
  istat  : BitVec 8
  ien    : Word32
  /-- Edge sources that pend. -/
  ipend  : Word32
  ira    : Word16
  ipstat : Word32
  vbase  : Word16
  eaddr  : Word32
  deriving DecidableEq, Repr

def CoreRegs.zero : CoreRegs :=
  { v := .empty, ac := .empty, sHi := .empty, aHi := .empty, m := .empty, b := .empty, l := .empty, p := .empty,
    main := .zero, shadow := .zero, bank := false, pstat := 0, istat := 0, ien := 0, ipend := 0, ira := 0,
    ipstat := 0, vbase := 0, eaddr := 0 }

/-- Why a bundle is held at issue (R175). -/
inductive Hold where
  | none
  /-- An exclusive access whose response has not arrived. -/
  | excl
  /-- Its response: RCODE and value. -/
  | answered (rc : Byte) (val : Word64)
  /-- A stream access waits; core cycles waited. -/
  | stream (cycles : Nat)
  deriving DecidableEq, Repr

/-- A branch that waits for its delay bundles (R219). -/
inductive BranchTo where
  | fall | target (pc : Word16) | handler
  deriving DecidableEq, Repr

/-- DMA channel (R199). -/
structure Dma where
  src    : Word64
  dst    : Word64
  len    : BitVec 25
  smode  : BitVec 3
  irq    : Bool
  busy   : Bool
  done   : Bool
  err    : Bool
  refused : Bool
  code   : Byte
  /-- The transfer in progress: its source, destination, length and mode. -/
  tSrc   : Nat
  tDst   : Nat
  tLen   : Nat
  tMode  : Nat
  /-- Bytes requested or taken so far, bytes whose write has been issued, and bytes delivered. -/
  next   : Nat
  put    : Nat
  fin    : Nat
  /-- Outstanding reads and writes: tag, offset, length. -/
  reads  : List (Nat × Nat × Nat)
  writes : List (Nat × Nat × Nat)
  /-- Data read and not yet written. -/
  ready  : List (Nat × List Byte)
  /-- The code with which the channel stops once nothing is outstanding. -/
  stop   : Option Byte
  deriving DecidableEq, Repr

def Dma.reset : Dma :=
  { src := 0, dst := 0, len := 0, smode := 0, irq := false, busy := false, done := false, err := false,
    refused := false, code := 0, tSrc := 0, tDst := 0, tLen := 0, tMode := 0, next := 0, put := 0, fin := 0, reads := [],
    writes := [], ready := [], stop := none }

inductive SynClass where
  | clean | corrCheck | corrData (i : Nat) | address | uncorrectable
  deriving DecidableEq, Repr

/-- One byte of a read. -/
structure ByteRead where
  data : Byte
  syn  : BitVec 6
  cls  : SynClass
  deriving DecidableEq, Repr

/-- A write to instruction memory in the last 8 cycles: where, the bytes before it, and the cycles until fetches must see it (R169). -/
structure CodeWrite where
  off  : Nat
  old  : List ByteRead
  left : Nat
  deriving DecidableEq, Repr

/-- Debug control of one core (CORE_DBG_CTL, CORE_DBG_STAT, BP0, BP1, DBG_BUNDLE). -/
structure CoreDbg where
  haltReq  : Bool
  monReq   : Bool
  bp0En    : Bool
  bp1En    : Bool
  bp0      : Word16
  bp1      : Word16
  bundle   : BitVec 128
  /-- A STEP in progress. -/
  stepping : Bool
  /-- A STEP or RESUME lets the bundle at a breakpoint issue once. -/
  pass     : Bool
  /-- The halt has been taken and writes are landing; then DSTAT.HALTED. -/
  halting  : Bool
  halted   : Bool
  /-- Core cycles since the request that waits on a LOCK window (R591). -/
  waited   : Option Nat
  /-- EXEC has been asked for, and its bundle has not issued. -/
  feeding  : Bool
  fedErr   : Bool
  fedCode  : BitVec 5
  near     : Byte
  tgtReset : Bool
  /-- FREEZE_CFG.NOW stalled the core in its latest cycle. -/
  now      : Bool
  /-- A lock was broken while an exclusive load waited, whose reservation ends with it. -/
  cut      : Bool
  deriving DecidableEq, Repr

def CoreDbg.reset : CoreDbg :=
  { haltReq := false, monReq := false, bp0En := false, bp1En := false, bp0 := 0, bp1 := 0, bundle := 0,
    stepping := false, pass := false, halting := false, halted := false, waited := none, feeding := false, fedErr := false,
    fedCode := 0, near := 0, tgtReset := false, now := false, cut := false }

structure Core where
  en        : Bool
  st        : ShellSt
  err       : Bool
  lastStop  : BitVec 3
  bootPc    : Word16
  bootVbase : Word16
  pcSample  : Word16
  /-- R38: a write of EN = 0 remembered during STARTING. -/
  pendStop  : Bool
  /-- R44: plot and initiator of an accepted deferred enable whose SELF record is still due. -/
  deferral  : Option (Nat × Nat)
  regs      : CoreRegs
  /-- DSTAT: MONITOR, WDT_RELOAD, LOCK_BROKEN, TGT_RESET in bits 1 to 4. -/
  dstat     : BitVec 5
  pc        : Word16
  flights   : List Flight
  /-- Delay bundles left after a branch, and where it goes. -/
  branch    : Option (Nat × BranchTo)
  /-- The return cycle of RETI is next. -/
  returning : Bool
  /-- LOCK window bundles that remain, and repetitions that remain of the bundle at PC. -/
  lock      : Nat
  rpt       : Nat
  /-- The latest boundary allows no interrupt (R184). -/
  closed    : Bool
  /-- The latest boundary lies in a LOCK window. -/
  inLock    : Bool
  /-- The latest boundary lies in an RPT repetition, or between a branch and its second delay bundle. -/
  inSpan    : Bool
  hold      : Hold
  /-- The bundle that is held at issue. -/
  held      : Option (BitVec 128)
  /-- Cycles in which no bundle issues (a skipped loop), and stall cycles left. -/
  idle      : Nat
  stall     : Nat
  wfi       : Bool
  /-- An exception to be entered in the next cycle: code, IRA, RESUMABLE. -/
  exc       : Option (Nat × Word16 × Bool)
  timerEn   : Bool
  periodic  : Bool
  prescale  : Byte
  preCnt    : Nat
  timerLoad : Word32
  timerCnt  : Word32
  wdtEn     : Bool
  wdtAction : Bool
  wdtLock   : Bool
  wdtStage  : Bool
  wdtPeriod : Word32
  wdtCnt    : Word32
  wdtPre    : Nat
  freeze    : BitVec 3
  enL       : Bool
  enU       : Bool
  tmo       : Word16
  dma0      : Dma
  dma1      : Dma
  dbg       : CoreDbg
  wrote     : List CodeWrite
  deriving DecidableEq, Repr

def Core.reset : Core :=
  { en := false, st := .idle, err := false, lastStop := 0, bootPc := 0, bootVbase := 0xF000, pcSample := 0,
    pendStop := false, deferral := none, regs := .zero, dstat := 0, pc := 0, flights := [], branch := none,
    returning := false, lock := 0, rpt := 0, closed := false, inLock := false, inSpan := false, hold := .none, held := none, idle := 0, stall := 0,
    wfi := false, exc := none, timerEn := false, periodic := false, prescale := 0, preCnt := 0, timerLoad := 0,
    timerCnt := 0, wdtEn := false, wdtAction := false, wdtLock := false, wdtStage := false,
    wdtPeriod := 0xFFFFFFFF, wdtCnt := 0xFFFFFFFF, wdtPre := 0, freeze := 7, enL := false, enU := false, tmo := 0,
    dma0 := .reset, dma1 := .reset, dbg := .reset, wrote := [] }

/-! ## The debug island (chapter "Debug") -/

structure DbgSession where
  plot   : PlotId
  rights : BitVec 5
  deriving DecidableEq, Repr

/-- The stages of the DBG_AUTH exchange (R583). -/
inductive AuthStage where
  | idle | certificate | verifying | challenge | response
  deriving DecidableEq, Repr

/-- A JTAG transaction on CMD_IO (R580, R455): words of a command, or words that are ignored, still to come. -/
inductive IoStage where
  | idle | command (left : Nat) | skip (left : Nat)
  deriving DecidableEq, Repr

structure Dbg where
  vccaux    : Bool
  vstby     : Bool
  vprobe    : Bool
  ir        : Byte
  boundary  : Nat
  stage     : AuthStage
  words     : List Word32
  challenge : List Byte
  offers    : List Word32
  fails     : Nat
  lockout   : Option Nat
  session   : Option DbgSession
  /-- DBG_ACCESS: data and RCODE of the latest request, 0xFE while it is pending. -/
  data      : Word64
  rcode     : Byte
  /-- The tag and data size of the pending request. -/
  request   : Option (Nat × Bool)
  retIdx    : BitVec 13
  ioStage   : IoStage
  ioOut     : List Word32
  /-- What the latest Capture-DR loaded. -/
  dr        : Nat
  /-- FREEZE_CFG bits [3:0] of each plot; reset 4. -/
  freezeCfg : Sparse (BitVec 4)
  /-- MGMT_CTL bits [2:0]. -/
  mgmtCtl   : BitVec 3
  deriving DecidableEq, Repr

def Dbg.reset : Dbg :=
  { vccaux := true, vstby := false, vprobe := false, ir := 0x01, boundary := 0, stage := .idle, words := [],
    challenge := [], offers := [], fails := 0, lockout := none, session := none, data := 0, rcode := 0,
    request := none, retIdx := 0, ioStage := .idle, ioOut := [], dr := 0, freezeCfg := .empty,
    mgmtCtl := 4 }

end Sys2Proof.Machine
end

