-- ==== Sys2Proof/Machine/StateLinks.lean ====
section
/-! DEFINITION. State of the die links, the lanes and the port engines. -/
namespace Sys2Proof.Machine
open Sys2Proof

/-! ## Die links (R334 to R358) -/

/-- What a frame carries: its payload, whether as slots of a fabric strand or as bytes of a packet strand, and the strand whose map
or byte stream it continues, which after R347 step 2 is not the strand that sends it. -/
structure Load where
  stream : Nat
  fab    : Bool
  bits   : BitVec 240
  deriving DecidableEq, Repr

/-- A frame in a replay buffer: SEQ, payload, time of its last transmission (ns), times replayed. -/
structure Frame where
  seq     : Byte
  load    : Load
  sent    : Nat
  replays : Nat
  deriving DecidableEq, Repr

inductive StrandSt where
  | working | testing | grafting | retired
  deriving DecidableEq, Repr

/-- One strand of one direction: both ends. -/
structure Strand where
  st      : StrandSt
  /-- Transmitter: next SEQ, unacknowledged frames, those of them that it is resending, and payloads that go out ahead of new
  traffic: those taken over from a quiesced strand. -/
  next    : Byte
  buf     : List Frame
  resend  : List Byte
  todo    : List Load
  /-- Packet strand (R344): bytes of units that wait to be sent, bytes of a unit that has arrived in part, and of the packet in
  arrival its header flit (32 bytes, none between packets) and its data flits. -/
  txq     : List Byte
  rxq     : List Byte
  rxHead  : List Byte
  rxData  : List Byte
  /-- Fabric strand (R129): the record of both ends, strand-local index and link-wide index, and the link-wide index that took the
  latest slot. -/
  smap    : List (Nat × Nat)
  served  : Nat
  /-- Receiver: SEQ expected, frames delivered since the last ACK and the time of the first, NAK sent. -/
  expect  : Byte
  unacked : Nat
  since   : Nat
  nak     : Bool
  wire0   : BitVec 6
  src0    : Bool
  bad0    : Bool
  wire1   : BitVec 6
  src1    : Bool
  bad1    : Bool
  cause   : BitVec 2
  /-- A test, or faulty wires, that wait for another strand of the direction (R349). -/
  testDue : Bool
  faults  : List Nat
  /-- Wires that showed an error in the latest maintenance window. -/
  suspect : List Nat
  deriving DecidableEq, Repr

def Strand.reset : Strand :=
  { st := .working, next := 0, buf := [], resend := [], todo := [], txq := [], rxq := [], rxHead := [], rxData := [], smap := [], served := 0, expect := 0, unacked := 0, since := 0, nak := false, wire0 := 63,
    src0 := false, bad0 := false, wire1 := 63, src1 := false, bad1 := false, cause := 0, testDue := false, faults := [],
    suspect := [] }

inductive LinkMode where
  | down | up | failed
  deriving DecidableEq, Repr

structure Link where
  mode    : LinkMode
  /-- Sideband groups lost, and those that failed their latest window: direction * 2 + group. -/
  sbLost  : List Nat
  sbSusp  : List Nat
  detour  : Bool
  fab0    : Nat
  fab1    : Nat
  crcErr  : Nat
  replays : Nat
  tests   : Nat
  near    : Nat
  /-- CRC errors of the 1 ms period in progress (R345). -/
  period  : Nat
  tChange : Nat
  /-- Strand s of direction d at key d * 16 + s. -/
  strands : Sparse Strand
  /-- Flit buffers of R344 at key direction * 2 + class: those for which the sender holds credits, and those freed at the receiver
  whose return has not been sent. -/
  credits : List Nat
  freed   : List Nat
  /-- Hub link: slots, and credit returns, that wait at the hub to leave on this link: link-wide index, and value or count (R129). -/
  stage   : List (Nat × Word32)
  hubCred : List (Nat × Nat)
  /-- The latest sideband message of each direction. -/
  msg0    : Word64
  msg1    : Word64
  deriving DecidableEq, Repr

def Link.reset : Link :=
  { mode := .down, sbLost := [], sbSusp := [], detour := false, fab0 := 0, fab1 := 0, crcErr := 0, replays := 0, tests := 0,
    near := 0, period := 0, tChange := 0, strands := .empty, credits := List.replicate 4 256, freed := List.replicate 4 0, stage := [], hubCred := [], msg0 := 0, msg1 := 0 }

structure D2d where
  cap    : Word64
  dieCap : List Word32
  links  : Sparse Link
  /-- The hub's pairing of hub-facing channels (R129): link-wide index w of HLn at n * 512 + w, and its partner's key plus 1. -/
  pairs  : Sparse Nat
  deriving DecidableEq, Repr

def D2d.reset : D2d := { cap := 0, dieCap := List.replicate 8 0, links := .empty, pairs := .empty }

/-! ## Lanes and port engines (R359 to R382) -/

structure Lane where
  retired  : Bool
  sigDet   : Bool
  cdrLock  : Bool
  prbsLock : Bool
  prbsErr  : Nat
  lockLoss : Nat
  restarts : Nat
  pmaLat   : Word32
  /-- The cached entry, 128 bytes; none until the first refresh. -/
  entry    : List Byte
  version  : Nat
  /-- An accepted entry that waits for the lane to stop (R371). -/
  next     : Option (List Byte)
  deriving DecidableEq, Repr

def Lane.reset : Lane :=
  { retired := false, sigDet := false, cdrLock := false, prbsLock := false, prbsErr := 0, lockLoss := 0, restarts := 0,
    pmaLat := 0, entry := [], version := 0, next := none }

/-- A LANE_REFRESH in progress: its range and table, and once its entries are applied the status of each lane and the digest
of the cached entries before. -/
structure LaneJob where
  inst     : Inst
  first    : Nat
  count    : Nat
  table    : Nat
  applied  : Option (List Nat × Option Nat)
  deriving DecidableEq, Repr

structure Ring where
  base : Nat
  size : BitVec 5
  tail : Word16
  head : Word16
  deriving DecidableEq, Repr

def Ring.reset : Ring := { base := 0, size := 4, tail := 0, head := 0 }

structure Subport where
  ctl     : Word32
  aligned : Bool
  local'  : Bool
  remote  : Bool
  fecLock : Bool
  txr     : Ring
  rxr     : Ring
  txFrames : Nat
  txBytes  : Nat
  rxFrames : Nat
  rxBytes  : Nat
  fcsErr   : Nat
  rxDrop   : Nat
  fecCorr  : Nat
  fecUnc   : Nat
  /-- The frame that left last. -/
  wire     : List Byte
  /-- R44: an accepted deferred enable whose SELF record is still due. -/
  deferral : Bool
  deriving DecidableEq, Repr

def Subport.reset : Subport :=
  { ctl := 0x05F00000, aligned := false, local' := false, remote := false, fecLock := false, txr := .reset, rxr := .reset,
    txFrames := 0, txBytes := 0, rxFrames := 0, rxBytes := 0, fcsErr := 0, rxDrop := 0, fecCorr := 0, fecUnc := 0, wire := [], deferral := false }

structure Ports where
  lanes : Sparse Lane
  jobs  : List LaneJob
  /-- Subport s of engine e at key e * 8 + s. -/
  subs  : Sparse Subport
  /-- Classification of XREF input 4 × die + i: frequency code plus 1, 0 where absent (R360). -/
  xref  : Sparse Nat
  deriving DecidableEq, Repr

def Ports.reset : Ports := { lanes := .empty, jobs := [], subs := .empty, xref := .empty }

end Sys2Proof.Machine
end

