-- ==== Sys2Proof/Machine/StateMem.lean ====
section
/-! DEFINITION. State of LPDDR6 memory, of its protection, and of the CXL port. -/
namespace Sys2Proof.Machine
open Sys2Proof

/-! ## Lines -/

/-- The context under which a line is encrypted (R298, R299). -/
structure Seal where
  ka    : List Byte
  kb    : List Byte
  level : Nat
  addr  : Nat
  major : Nat
  minor : Nat
  kgen  : Nat
  deriving DecidableEq, Repr

/-- A 64-byte line in a channel: never written, plaintext with the context it is encrypted under, or lost (R285). DESIGN CHOICE (log 5), DESIGN CHOICE (log 57). -/
inductive Line where
  | blank
  | held (data : List Byte) (ctx : Option Seal)
  | lost
  deriving DecidableEq, Repr

/-! ## Channels -/

/-- A line read that waits for its channel: the operation it belongs to, the line's device address / 64 and its channel address / 64,
and how often it was passed (R280). -/
structure RdEntry where
  txn    : Nat
  dline  : Nat
  line   : Nat
  passed : Nat
  deriving DecidableEq, Repr

structure WrEntry where
  line   : Nat
  data   : List Byte
  ctx    : Option Seal
  keyId  : Nat
  time   : Nat
  passed : Nat
  deriving DecidableEq, Repr

inductive SrState where
  | off | entering | on | exiting
  deriving DecidableEq, Repr

structure Chan where
  present   : BitVec 2
  rate      : BitVec 3
  density   : BitVec 2
  failed    : Bool
  draining  : Bool
  seg0      : Byte
  seg1      : Byte
  sched     : Word32
  refresh   : Word32
  corr      : Nat
  unc       : Nat
  addr      : Nat
  first     : Word64
  sr        : SrState
  autoExit  : Bool
  /-- An exit accepted while entering (R287). -/
  exitDue   : Bool
  /-- Attempt number of the periodic retraining that runs (R283). -/
  retrain   : Option Nat
  tempHi    : Bool
  /-- The refresh-rate indication of each rank at the latest poll (R281). -/
  rateCode  : Byte
  rateCode1 : Byte
  eye       : Word16
  rd        : List RdEntry
  wr        : List WrEntry
  /-- Lines that the protection engine writes when the write queue has room, oldest first. -/
  held      : List WrEntry
  /-- Open row of each bank of each rank, plus 1. -/
  rows      : Sparse Nat
  /-- Refreshes owed by each bank of each rank. -/
  owed      : Sparse Nat
  deriving DecidableEq, Repr

def Chan.reset : Chan :=
  { present := 0, rate := 0, density := 0, failed := false, draining := false, seg0 := 0, seg1 := 0,
    sched := 0x080A1030, refresh := 0x00080164, corr := 0, unc := 0, addr := 0, first := 0, sr := .off,
    autoExit := false, exitDue := false, retrain := none, tempHi := false, rateCode := 0, rateCode1 := 0, eye := 0, rd := [], wr := [], held := [],
    rows := .empty, owed := .empty }

structure Window where
  base   : Nat
  size   : Nat
  chBase : Nat
  mask   : Nat
  grain  : Nat
  hash   : Bool
  valid  : Bool
  deriving DecidableEq, Repr

def Window.off : Window := { base := 0, size := 0, chBase := 0, mask := 0, grain := 0, hash := false, valid := false }

/-! ## Protection -/

inductive SlotSt where
  | empty | installed | retiring
  deriving DecidableEq, Repr

structure KeySlot where
  st    : SlotSt
  owner : Nat
  gen   : Nat
  ka    : List Byte
  kb    : List Byte
  deriving DecidableEq, Repr

def KeySlot.reset : KeySlot := { st := .empty, owner := 0, gen := 0, ka := [], kb := [] }

inductive RegionSt where
  | free | initialising | active | rotating | retiring | poisoned
  deriving DecidableEq, Repr

/-- A Region Table entry (R304). -/
structure Region where
  st       : RegionSt
  level    : Nat
  owner    : Nat
  keyId    : Nat
  keyGen   : Nat
  newKeyId : Nat
  newGen   : Nat
  poison   : Nat
  base     : Nat
  size     : Nat
  metaBase : Nat
  metaSize : Nat
  rmask    : Word16
  wmask    : Word16
  till     : Nat
  rate     : Nat
  deriving DecidableEq, Repr

def Region.reset : Region :=
  { st := .free, level := 0, owner := 0, keyId := 0, keyGen := 0, newKeyId := 0, newGen := 0, poison := 0, base := 0,
    size := 0, metaBase := 0, metaSize := 0, rmask := 0, wmask := 0, till := 0, rate := 0 }

/-- An entry of the root store (R303): the MAC of the top node, none where the tree still is as its fill built it, and the generation of
the key under which the region was filled. -/
structure Root where
  gen : Nat
  mac : Option (List Byte)
  deriving DecidableEq, Repr

/-- A line of the counter cache (R312): its device address / 64, its place in the array, and whether it is dirty. -/
structure CacheLine where
  line  : Nat
  slot  : Nat
  dirty : Bool
  deriving DecidableEq, Repr

inductive TillOp where
  | idle | fill | rotation
  deriving DecidableEq, Repr

structure Tiller where
  op     : TillOp
  region : Nat
  rate   : Nat
  pages  : Nat
  /-- The page whose renewal is in progress, and when the latest renewal started (ns). -/
  page   : Option Nat
  last   : Option Nat
  deriving DecidableEq, Repr

def Tiller.reset : Tiller := { op := .idle, region := 0, rate := 0, pages := 0, page := none, last := none }

/-- The part of one line that a request covers: device line, channel, line of the channel, first byte and length. -/
structure Span where
  dline : Nat
  chan  : Nat
  line  : Nat
  lo    : Nat
  n     : Nat
  deriving DecidableEq, Repr

/-- What a request waits for: its own lines, or the Region Table entry that decides it (R307). -/
inductive Job where
  | access
  | lookup (index : Nat)
  deriving DecidableEq, Repr

/-- The line reads of an operation, by device address / 64: those in a channel's queue, those that wait for room there, and those that have
come with their bytes: plaintext, or for a P2 region what the channel holds. -/
structure Reads where
  need : List Nat
  todo : List Nat
  got  : List (Nat × List Byte)
  deriving DecidableEq, Repr

def Reads.of (l : List Nat) : Reads := { need := [], todo := l.eraseDups, got := [] }
def Reads.done (r : Reads) : Bool := r.need.isEmpty && r.todo.isEmpty
def Reads.at (r : Reads) (a : Nat) : Option (List Byte) := (r.got.find? fun e => e.1 = a / 64).map (·.2)

/-- A request that waits for lines of its channels. -/
structure Txn where
  id     : Nat
  pkt    : Pkt
  job    : Job
  region : Option Nat
  /-- The key that its lines use, 0 for none. -/
  keyId  : Nat
  /-- The lines of the request, mapped when it entered (R277). -/
  spans  : List Span
  reads  : Reads
  deriving DecidableEq, Repr

/-- A page renewal in progress, which holds the page lock (R319 to R321). -/
structure Renewal where
  id     : Nat
  region : Nat
  page   : Nat
  /-- The engine that makes it, none for an overflow renewal. -/
  tiller : Option Nat
  /-- The key that it reads under, and the key and generation that it writes under. -/
  keyId  : Nat
  under  : Nat × Nat
  reads  : Reads
  /-- Lines that came UNCORRECTABLE or ADDRESS. -/
  bad    : List Nat
  /-- The lines that the write which caused it carries, and its answer (R311). -/
  carry  : List (Span × List Byte)
  answer : Option (Pkt × Byte × List Byte)
  /-- The read requests of the engine (R239). -/
  tags   : List Pkt
  deriving DecidableEq, Repr

/-- KEY_RETIRE operations that wait for the in-flight count (R330). -/
structure Retire where
  keyId  : Nat
  index  : Nat
  /-- `true` where a command waits for the reply; PLOT_DESTROY and the policy engine make none. -/
  reply  : Bool
  deriving DecidableEq, Repr

structure Mem where
  chans   : Sparse Chan
  windows : List Window
  /-- Lines of channel `c` at key `c * 2 ^ 29 + line`. -/
  lines   : Sparse Line
  trained : Bool
  txns    : List Txn
  nextTxn : Nat
  regions : Sparse Region
  /-- On-chip: roots by region, 1,024 the Region Table area's; the lines of the counter cache and the entries of the region cache, oldest use
  first (R303, R307, R312). -/
  roots   : Sparse (Option Root)
  cache   : List CacheLine
  entries : List Nat
  /-- Lines of P2 regions that stay unreadable until they are written whole (R314). -/
  unread  : List Nat
  /-- Entries changed without a command, whose line of the table is written at the next tick. -/
  due     : List Nat
  renews  : List Renewal
  keys    : Sparse KeySlot
  tillers : List Tiller
  retires : List Retire
  rtReady : Bool
  rtBase  : Nat
  metaCorr : Nat
  dataInteg : Nat
  metaInteg : Nat
  ccCorr  : Nat
  ccUnc   : Nat
  renewals : Nat
  /-- Ranges of freed encrypted regions, whose blank lines hold ciphertext. -/
  remnants : List (Nat × Nat)
  /-- Segments of each channel that have been dropped, whose blank lines are lost (R285): bit 8 × rank + segment. -/
  lostSegs : Sparse Nat
  deriving DecidableEq, Repr

def Mem.reset : Mem :=
  { chans := .empty, windows := List.replicate 8 Window.off, lines := .empty, trained := false, txns := [], nextTxn := 0,
    regions := .empty, roots := .empty, cache := [], entries := [], unread := [], due := [], renews := [], keys := .empty, tillers := List.replicate 4 Tiller.reset, retires := [],
    rtReady := false, rtBase := 0, metaCorr := 0, dataInteg := 0, metaInteg := 0, ccCorr := 0, ccUnc := 0, renewals := 0,
    remnants := [], lostSegs := .empty }

/-! ## CXL port -/

/-- An HDM decoder: host range, first device address, ways and granularity. -/
structure Hdm where
  base : Nat
  size : Nat
  dpa  : Nat
  ways : Nat
  gran : Nat
  deriving DecidableEq, Repr

/-- An IDE stream (R332): the key in use, and one that has been programmed and waits for its start. -/
structure Ide where
  key      : List Byte
  next     : Option (List Byte)
  running  : Bool
  insecure : Bool
  deriving DecidableEq, Repr

def Ide.reset : Ide := { key := [], next := none, running := false, insecure := false }

/-- What the port sends to the host. -/
inductive HostMsg where
  | memData (ld : Nat) (data : List Byte) (poison : Bool)
  | memCmp (ld : Nat)
  | biSnp (ld line : Nat) (inv : Bool)
  | rdCurr (ld addr len : Nat)
  | wrCur (ld addr : Nat) (data : List Byte)
  | snoopRsp
  | barRead (ld : Nat) (data : List Byte)
  | unsupported (ld : Nat)
  | abort (ld : Nat)
  | mailbox (ld code : Nat) (payload : List Byte)
  | doe (ld : Nat) (payload : List Byte)
  deriving DecidableEq, Repr

structure Cxl where
  linkUp    : Bool
  speed     : BitVec 3
  width     : BitVec 5
  viral     : Bool
  portId    : BitVec 12
  stageDrop : Word32
  bound     : Word16
  cacheEn   : Word16
  memActive : Word16
  /-- Decoder k of logical device n at key `n * 4 + k`. -/
  hdm       : Sparse (Option Hdm)
  /-- IDE streams: 0 the link stream, 1 to 4 selective, 5 CXL.cache and CXL.mem. -/
  ide       : Sparse Ide
  /-- Snoop filters of MW and ME: line and logical device, oldest first. -/
  filterW   : List (Nat × Nat)
  filterE   : List (Nat × Nat)
  /-- Requests that wait for the host's answer (R413), oldest first. -/
  hostReqs  : List Pkt
  /-- The latest messages to the host, newest first, at most 16. -/
  sent      : List HostMsg
  deriving DecidableEq, Repr

def Cxl.reset : Cxl :=
  { linkUp := false, speed := 0, width := 0, viral := false, portId := 0, stageDrop := 0, bound := 0, cacheEn := 0,
    memActive := 0, hdm := .empty, ide := .empty, filterW := [], filterE := [], hostReqs := [], sent := [] }

end Sys2Proof.Machine
end

