-- ==== Sys2Proof/Machine/State.lean ====
section
/-! DEFINITION. The state of the block, its reset, and the reasons a step can stop. -/
namespace Sys2Proof.Machine
open Sys2Proof

/-- Everything the specification gives the block. -/
structure Device where
  time    : Time
  flt     : Faults
  trl     : Trellis
  trust   : Trust
  policy  : Policy
  alm     : Almanac
  own     : Owners
  mgmt    : Mgmt
  shells  : Sparse Shell
  /-- PIN_CFG of pin p of bank g at key g * 48 + p (R610). -/
  gpio    : Sparse Word32
  msix    : Msix
  beds    : Sparse Bed
  /-- Coded SRAM arrays: class c, index i at key `c * 65536 + i` (R143). -/
  arrays  : Sparse Coded
  rakes   : List Rake
  coreIo  : Sparse CoreIo
  cores   : Sparse Core
  dbg     : Dbg
  mem     : Mem
  cxl     : Cxl
  d2d     : D2d
  ports   : Ports
  cfg     : Cfg
  bist    : Bist
  start   : Startup
  board   : Board
  /-- The answer to the last register access made by a row of its own: RCODE and data. -/
  answer  : Option (Byte × Word64)
  /-- The model's own counter, to which free values are applied. -/
  free    : Nat
  deriving DecidableEq, Repr

/-- The block with the commands that wait for it, first in, first out. DESIGN CHOICE (log 4). -/
structure State where
  pending : List Instr
  dev     : Device
  deriving DecidableEq, Repr

/-- Reasons for which a command stops. -/
inductive Fault where
  /-- Raised by a command whose operands name no object of the device (WellFormed refuses it). Safe. -/
  | illFormed (what : String)
  deriving DecidableEq, Repr

/-- Reasons for which the model gives a command no meaning. -/
inductive Refusal where
  /-- The dispatch arm of a command without a meaning. Safe. -/
  | notModelled (mnemonic : String)
  deriving DecidableEq, Repr

/-- The device at POR_N's release. DESIGN CHOICE (log 6), DESIGN CHOICE (log 8). -/
def Device.reset : Device :=
  { time := .reset, flt := .reset, trl := .reset, trust := .reset, policy := .reset,
    alm := .reset, own := .reset, mgmt := .reset, shells := .empty, gpio := .empty, msix := .reset, beds := .empty, arrays := .empty,
    rakes := [], coreIo := .empty, cores := .empty, dbg := .reset,
    mem := .reset, cxl := .reset, d2d := .reset, ports := .reset, cfg := .reset, bist := .reset, start := .reset, board := .reset, answer := none, free := 0 }

/-- The block as power-on reset leaves it, start-up not yet begun, with no command waiting. -/
def State.reset : State := { pending := [], dev := .reset }

abbrev Out := Host.Outcome State Fault Refusal

end Sys2Proof.Machine
end

