-- ==== Sys2Proof/Machine/Code.lean ====
section
/-! DEFINITION. The on-chip code: signatures, syndromes, classes, reads, writes and the fill of one coded array (R143 to R149, R151),
upsets and decoder faults. -/
namespace Sys2Proof.Machine
open Sys2Proof

/-- The address signature of R144, with enough rounds for any 32-bit address. -/
def sigOf (a : Nat) : BitVec 6 := go 6 a
where
  go : Nat → Nat → BitVec 6
    | 0, _ => 0
    | n + 1, a => BitVec.ofNat 6 a ^^^ go n (a / 64)

/-- Columns of the check matrix (R145). -/
def colD (i : Nat) : BitVec 6 := ([0x07, 0x0B, 0x0D, 0x0E, 0x13, 0x15, 0x19, 0x23] : List (BitVec 6)).getD i 0
def colC (i : Nat) : BitVec 6 := 1#6 <<< i
def colG (i : Nat) : BitVec 6 := ([0x3E, 0x3D, 0x3B, 0x37, 0x2F, 0x1F] : List (BitVec 6)).getD i 0

def xorCols (col : Nat → BitVec 6) (n v : Nat) : BitVec 6 :=
  (List.range n).foldl (fun acc i => if bitAt v i then acc ^^^ col i else acc) 0

def dataCols (d : Byte) : BitVec 6 := xorCols colD 8 d.toNat
def sigCols (g : BitVec 6) : BitVec 6 := xorCols colG 6 g.toNat

/-- The stored check value of R146. -/
def checkOf (d : Byte) (a : Nat) : BitVec 6 := dataCols d ^^^ sigCols (sigOf a)

/-- The class of a syndrome (R147). -/
def synClass (s : BitVec 6) : SynClass :=
  if s = 0 then .clean
  else match (List.range 8).find? (fun i => colD i = s) with
    | some i => .corrData i
    | none =>
      if (List.range 6).any (fun i => colC i = s) then .corrCheck
      else if (List.range 6).any (fun i => colG i = s) then .address
      else .uncorrectable

def SynClass.corrected : SynClass → Bool
  | .corrCheck | .corrData _ => true
  | _ => false

/-- UNCORRECTABLE or ADDRESS. -/
def SynClass.bad : SynClass → Bool
  | .address | .uncorrectable => true
  | _ => false

/-- The data returned for a byte as read (R147). -/
def SynClass.fix (c : SynClass) (d : Byte) : Byte :=
  match c with
  | .corrData i => d ^^^ (1#8 <<< i)
  | _ => d

/-- Where an access to address `a` lands under the array's decoder faults (R149). -/
def Coded.land (c : Coded) (a : Nat) : Nat :=
  c.dec.foldl (fun a f => if f.2 then a ||| 2 ^ f.1 else a - (if bitAt a f.1 then 2 ^ f.1 else 0)) a

/-- The columns by which the check value that the fill left at a location differs from the valid one (R149, R151). -/
def Coded.fillCols (c : Coded) (l : Nat) : BitVec 6 := if c.top = 0 then 0 else sigCols (sigOf (l ||| c.top)) ^^^ sigCols (sigOf l)

/-- A read of one byte: the syndrome compares the stored check value with the signature of the address
requested (R147, R149). -/
def Coded.read (c : Coded) (a : Nat) : ByteRead :=
  let l := c.land a
  let d := c.data.get 0 l
  let syn := c.syn.get 0 l ^^^ c.fillCols l ^^^ sigCols (sigOf a) ^^^ sigCols (sigOf l)
  ⟨(synClass syn).fix d, syn, synClass syn⟩

/-- The stored byte as it stands, uncorrected. -/
def Coded.raw (c : Coded) (a : Nat) : Byte := c.data.get 0 (c.land a)

/-- A write of one byte with its check bits; `wrong` is XORed into what is stored: data bits and check bits. -/
def Coded.writeWith (c : Coded) (a : Nat) (d : Byte) (wrongD : Byte) (wrongC : BitVec 6) : Coded :=
  let l := c.land a
  { c with data := c.data.set 0 l (d ^^^ wrongD)
           syn := c.syn.set 0 l (dataCols wrongD ^^^ wrongC ^^^ c.fillCols l ^^^ sigCols (sigOf a) ^^^ sigCols (sigOf l)) }

def Coded.write (c : Coded) (a : Nat) (d : Byte) : Coded := c.writeWith a d 0 0

/-- A write of one byte that leaves the stored check bits as they are (CHECK = 0, R136). -/
def Coded.writeData (c : Coded) (a : Nat) (d : Byte) : Coded :=
  let l := c.land a
  let old := c.data.get 0 l
  { c with data := c.data.set 0 l d, syn := c.syn.set 0 l (c.syn.get 0 l ^^^ dataCols (old ^^^ d)) }

def Coded.readBytes (c : Coded) (a : Nat) : Nat → List ByteRead
  | 0 => []
  | n + 1 => c.read a :: Coded.readBytes c (a + 1) n

def Coded.writeBytes (c : Coded) (a : Nat) : List Byte → Coded
  | [] => c
  | b :: bs => Coded.writeBytes (c.write a b) (a + 1) bs

/-- Every byte is written with 0x00 in ascending order, through the decoder faults that there are (R149, R151). Where a line is stuck
at 0, the last write that lands at a location is the one aimed past it. DESIGN CHOICE (log 158). -/
def Coded.fill (c : Coded) : Coded :=
  { data := .empty, syn := .empty, dec := c.dec, top := c.dec.foldl (fun m f => if f.2 then m else m ||| 2 ^ f.1) 0 }

/-! ## Upsets (R148, R149) -/

/-- What an upset changes. -/
def Coded.upset (c : Coded) (a bitNo : Nat) : Coded :=
  if bitNo < 8 then
    { c with data := c.data.set 0 a (c.data.get 0 a ^^^ (1#8 <<< bitNo)), syn := c.syn.set 0 a (c.syn.get 0 a ^^^ colD bitNo) }
  else { c with syn := c.syn.set 0 a (c.syn.get 0 a ^^^ colC (bitNo - 8)) }

end Sys2Proof.Machine
end

