-- ==== Sys2Proof/Machine/Ops.lean ====
section
/-! DEFINITION. Named operations that every family uses: device time, fault reports, policy occurrences,
free values, ownership, the almanac. -/
namespace Sys2Proof.Machine
open Sys2Proof

/-- Device time in ns: the floor of ticks × 1.25 (R384). -/
def devNs (s : Device) : Nat := s.time.ticks * 5 / 4

/-- Device time bits [21:14], the STAMP of R242 and the clock of R248. -/
def devStamp (s : Device) : Byte := BitVec.ofNat 8 (devNs s / 2 ^ 14)

/-- A fault is reported against its source (R525, R540: no almanac record). DEDUCED (log 13). -/
def raise (src : Source) (cls : Fin 5) (cause : Nat) (detail : Nat) (s : Device) : Device :=
  let r : Report := { src, cls, cause := BitVec.ofNat 8 cause, detail := BitVec.ofNat 64 detail, time := devNs s }
  { s with flt := { s.flt with arriving := s.flt.arriving ++ [r] } }

/-- The C0 note against an initiator for a refused or discarded access (R32, R247). -/
def noteAccess (i : InitId) (addr : Nat) (s : Device) : Device := raise (.init i) 0 0x0B addr s

/-- A measurement reaches the warden and waits for evaluation (R498, R509). DEDUCED (log 12). -/
def occur (kind inst : Nat) (value : Int) (s : Device) : Device :=
  { s with policy := { s.policy with queue := s.policy.queue ++ [(kind, inst, value, devNs s)] } }

/-- The next free value of `w` bits, and the state with the counter advanced. -/
def freeNat (s : Device) : Nat × Device := (Config.free s.free, { s with free := s.free + 1 })

/-- The digest of an object's state (R510), a free value. DESIGN CHOICE (log 11). -/
def freshDigest (s : Device) : Nat × Device :=
  (Config.objectDigest s.free % 2 ^ 64, { s with free := s.free + 1 })

/-! ## Ownership -/

def bedOwner (s : Device) (b : Nat) : Nat := s.own.beds.get 0 b
def coreOwner (s : Device) (c : Nat) : Nat := s.own.cores.get 0 c
def laneOwner (s : Device) (l : Nat) : Nat := s.own.lanes.get 0 l
def engineOwner (s : Device) (e : Nat) : Nat := s.own.engines.get 0 e

def plotSt (s : Device) (p : Nat) : PlotSt := s.trust.plots.getD p PlotSt.none
def plotExists (s : Device) (p : Nat) : Bool := (plotSt s p).present
def setPlot (p : Nat) (f : PlotSt → PlotSt) (s : Device) : Device :=
  { s with trust := { s.trust with plots := modAt s.trust.plots p f } }

/-! ## Initiator IDs (R239) -/

def initDie (i : InitId) : Nat := i.toNat / 256
def initLocal (i : InitId) : Nat := i.toNat % 256

inductive InitKind where
  | bed (b : Nat) | ls (c : Nat) | dma (c ch : Nat) | engine (e : Nat)
  | command | warden | loader | island | tiller (e : Nat) | cxl (ld : Nat) | none
  deriving DecidableEq, Repr

def initKind (i : InitId) : InitKind :=
  let d := initDie i
  let l := initLocal i
  if d < 8 then
    if l < 0x30 then .bed (d * 48 + l)
    else if l < 0x40 then .ls (d * 16 + (l - 0x30))
    else if l < 0x60 then .dma (d * 16 + (l - 0x40) / 2) ((l - 0x40) % 2)
    else if l < 0x68 then .engine (d * 8 + (l - 0x60))
    else .none
  else if d = 8 then
    if l = 0 then .command else if l = 1 then .warden else if l = 2 then .loader
    else if l = 3 then .island
    else if 8 ≤ l ∧ l < 12 then .tiller (l - 8)
    else if 0x10 ≤ l ∧ l < 0x20 then .cxl (l - 0x10)
    else .none
  else .none

def bedInit (b : Nat) : InitId := BitVec.ofNat 12 (b / 48 * 256 + b % 48)
def lsInit (c : Nat) : InitId := BitVec.ofNat 12 (c / 16 * 256 + 0x30 + c % 16)
def dmaInit (c ch : Nat) : InitId := BitVec.ofNat 12 (c / 16 * 256 + 0x40 + c % 16 * 2 + ch)
def engineInit (e : Nat) : InitId := BitVec.ofNat 12 (e / 8 * 256 + 0x60 + e % 8)
def cxlSrc : Source := .hub 11
def loaderInit : InitId := 0x802

def cxlInit (ld : Nat) : InitId := BitVec.ofNat 12 (0x810 + ld)

/-- The debug island (R239), whose requests carry the debug attribute (R240). -/
def islandInit : InitId := 0x803

def isMgmtCore (i : InitId) : Bool := i = 0x800 || i = 0x801

/-- The plot that the initiator's stop stamps (R240). DEDUCED (log 50). -/
def stampPlot (s : Device) (i : InitId) : Nat :=
  match initKind i with
  | .bed b => bedOwner s b
  | .ls c => coreOwner s c
  | .dma c _ => coreOwner s c
  | .engine e => engineOwner s e
  | .cxl ld => ld
  | .loader => s.trl.opPlot.get 0 2
  | .tiller e => s.trl.opPlot.get 0 (8 + e)
  | _ => 0

/-- The plot of an operation of the configuration loader (2) or tiller engine e (8 + e), set when it starts (R240). -/
def opPlot (k plot : Nat) (s : Device) : Device := { s with trl := { s.trl with opPlot := s.trl.opPlot.set 0 k plot } }

/-! ## Interrupts of the logical devices (R416) -/

def msixEntry (s : Device) (ld v : Nat) : MsixEntry := s.msix.entries.get MsixEntry.reset (ld * 128 + v)
def setMsix (ld v : Nat) (e : MsixEntry) (s : Device) : Device :=
  { s with msix := { s.msix with entries := s.msix.entries.set MsixEntry.reset (ld * 128 + v) e } }

/-- Raises a vector: a masked one sets its pending bit (R416). -/
def raiseMsix (ld v : Nat) (s : Device) : Device :=
  let e := msixEntry s ld v
  if s.msix.enable.getLsbD ld && !s.msix.fmask.getLsbD ld && !e.mask then
    { s with msix := { s.msix with sent := s.msix.sent ++ [(ld, v)] } }
  else setMsix ld v { e with pending := true } s

/-! ## The almanac (R510 to R520) -/

/-- The record bytes that CHAIN covers besides the previous CHAIN (R512). -/
def AlmRec.chained (r : AlmRec) : List Byte :=
  leBytes 6 r.seq ++ leBytes 2 r.origin ++ leBytes 8 r.time ++ leBytes 4 r.principal ++ leBytes 1 r.objClass
    ++ leBytes 3 r.objId ++ leBytes 2 r.action ++ leBytes 2 r.status ++ leBytes 8 r.before ++ leBytes 8 r.after
    ++ leBytes 4 r.tb0ns ++ leBytes 4 r.tb0sec ++ leBytes 2 r.flags ++ leBytes 2 r.count

/-- The 64 bytes of a record (R510). -/
def AlmRec.bytes (r : AlmRec) : List Byte :=
  (r.chained.take 44) ++ leBytes 8 r.chain ++ r.chained.drop 44

def first8 (bs : List Byte) : Nat := leAt bs 0 8

def chainNext (prev : Nat) (r : AlmRec) : Nat := first8 (Config.sha384 (leBytes 8 prev ++ r.chained))

def almCap : Nat := 131072
def almSoft : Nat := 130816

/-- U of R517: records not yet acknowledged, an open record included. -/
def Almanac.unacked (a : Almanac) : Nat :=
  (a.recs.filter fun r => a.acked ≤ r.seq).length + (if a.opened.isSome then 1 else 0)

/-- A closed record is stored at index SEQ mod 131,072, in place of the record there (R517). -/
def Almanac.store (a : Almanac) (r : AlmRec) : Almanac :=
  let r := { r with chain := chainNext a.chain r }
  { a with chain := r.chain, recs := (a.recs.filter fun x => decide (r.seq < x.seq + almCap)) ++ [r] }

/-- The byte that a location of the almanac buffer holds by the records. -/
def recByte (recs : List AlmRec) (l : Nat) : Byte :=
  ((recs.find? fun r => r.seq % almCap = l / 64).map fun r => byteAt r.bytes (l % 64)).getD 0

/-- Storing a record writes its 64 bytes of the almanac buffer, array class 5, with valid check bits (R143). The array holds
what differs from the records, of which `old` stood before; a decoder fault makes the bytes land elsewhere (R149). -/
def clearSlot (seq : Nat) (old : List AlmRec) (s : Device) : Device :=
  let a := seq % almCap * 64
  { s with arrays := s.arrays.modify Coded.filled (5 * 65536) fun c =>
      if c.dec.isEmpty then { c with data := c.data.clearRange a 64, syn := c.syn.clearRange a 64 }
      else
        let held (l : Nat) : Byte := recByte old l ^^^ c.data.get 0 l
        let diff (c : Coded) (l : Nat) (d : Byte) : Coded := { c with data := c.data.set 0 l (d ^^^ recByte s.alm.recs l) }
        let kept := (List.range 64).foldl (fun x i => diff x (a + i) (held (a + i))) c
        (List.range 64).foldl (fun x i =>
          let l := x.land (a + i)
          diff (x.write (a + i) 0) l (recByte s.alm.recs (a + i))) kept }

/-- Closes the open record: it is chained and stored (R516). -/
def closeOpen (s : Device) : Device :=
  match s.alm.opened with
  | none => s
  | some r => clearSlot r.seq s.alm.recs { s with alm := { s.alm with opened := none }.store r }

/-- Origins 0, 8 and 9 are device origins (R511, R517). -/
def deviceOrigin (o : Nat) : Bool := o = 0 || o = 8 || o = 9

def tb0 (s : Device) : TimeBase := s.time.bases.getD 0 TimeBase.reset
def TimeBase.ns (t : TimeBase) : Nat := t.val / 2 ^ 48 % 10 ^ 9
def TimeBase.sec (t : TimeBase) : Nat := t.val / (2 ^ 48 * 10 ^ 9)
def TimeBase.frac (t : TimeBase) : Nat := t.val / 2 ^ 32 % 2 ^ 16
/-- The 96-bit value of R385. -/
def TimeBase.value96 (t : TimeBase) : Nat := t.sec * 2 ^ 48 + t.ns * 2 ^ 16 + t.frac

/-- The plot of an object at the moment a record is made (R627); `none` for the other classes. -/
def objPlot (s : Device) (cls id : Nat) : Option Nat :=
  if cls = 0x03 then some (bedOwner s id)
  else if cls = 0x04 then some (coreOwner s id)
  else if cls = 0x05 then some (laneOwner s id)
  else if cls = 0x06 then some (engineOwner s (id / 8))
  else if cls = 0x0A then some (s.mem.regions.get Region.reset id).owner
  else if cls = 0x0B then some (s.mem.keys.get KeySlot.reset id).owner
  else if cls = 0x0C ∨ cls = 0x16 ∨ cls = 0x12 then some (id % 16)
  else none

/-- What a record says, before SEQ, times and chaining. -/
structure RecBody where
  origin    : Nat
  principal : Nat
  objClass  : Nat
  objId     : Nat
  action    : Nat
  status    : Nat
  before    : Nat
  after     : Nat
  deriving DecidableEq, Repr

def mkRec (s : Device) (b : RecBody) (plot : Option Nat) (reserve : Bool) : AlmRec :=
  { seq := s.alm.next, origin := b.origin, time := devNs s, principal := b.principal, objClass := b.objClass,
    objId := b.objId, action := b.action, status := b.status, before := b.before, after := b.after, chain := 0,
    tb0ns := (tb0 s).ns, tb0sec := (tb0 s).sec % 2 ^ 32,
    flags := bit (tb0 s).isSet 1 + bit reserve 2 + (match plot with | some p => p * 16 + 256 | none => 0),
    count := 1 }

/-- Makes a record that is closed at once (R516: any other record closes the open one).
A device record that the buffer cannot take is counted as lost and raises C3 (R517); a sealed almanac
makes none (R520); SEQ 0xFFFF_FFFF_FFFF is the seal of exhaustion. -/
def almMake (b : RecBody) (plot : Option Nat) (s : Device) : Device :=
  if s.alm.sealed then
    { s with alm := { s.alm with lost := if deviceOrigin b.origin then satAdd 32 s.alm.lost 1 else s.alm.lost } }
  else
    let s := closeOpen s
    let u := s.alm.unacked
    if almCap ≤ u then
      raise (.hub 4) 3 0x1B s.alm.next { s with alm := { s.alm with lost := satAdd 32 s.alm.lost 1 } }
    else
      let exhaust := s.alm.next = 2 ^ 48 - 1
      let b := if exhaust then { b with origin := 0, principal := 0, objClass := 0x14, objId := 0, action := 0x8003, status := 0, before := 0, after := 0 } else b
      let plot := if exhaust then none else plot
      let r := mkRec s b plot (decide (almSoft ≤ u))
      let s := clearSlot r.seq s.alm.recs { s with alm := { s.alm.store r with
                  next := s.alm.next + 1, sealed := exhaust, exhausted := exhaust, lost := if exhaust then satAdd 32 s.alm.lost 1 else s.alm.lost } }
      if exhaust then raise (.hub 4) 3 0xFF 0 s else s

/-- The open record can take this change (R516). -/
def almCoalesces (b : RecBody) (s : Device) : Bool :=
  match s.alm.opened with
  | none => false
  | some r =>
    r.origin = b.origin && r.principal = b.principal && r.objClass = b.objClass && r.objId = b.objId
      && r.action = b.action && decide (devNs s < r.time + 1000000) && decide (r.count < 0xFFFF)

/-- Opens a coalescing record (R516); a full buffer takes none (R517). -/
def almOpen (b : RecBody) (plot : Option Nat) (s : Device) : Device :=
  if s.alm.next = 2 ^ 48 - 1 ∨ almCap ≤ s.alm.unacked then almMake b plot s
  else { s with alm := { s.alm with opened := some (mkRec s b plot (decide (almSoft ≤ s.alm.unacked))), next := s.alm.next + 1 } }

/-- Makes or extends a coalescing record: a CSR write or a TB_ADJUST (R516). -/
def almCoalesce (b : RecBody) (plot : Option Nat) (s : Device) : Device :=
  if s.alm.sealed then { s with alm := { s.alm with lost := if deviceOrigin b.origin then satAdd 32 s.alm.lost 1 else s.alm.lost } }
  else
    match s.alm.opened with
    | some r =>
      if almCoalesces b s then
        let r := { r with count := r.count + 1, after := b.after, flags := r.flags ||| 1 }
        let s := { s with alm := { s.alm with opened := some r } }
        if r.count = 0xFFFF then closeOpen s else s
      else almOpen b plot (closeOpen s)
    | none => almOpen b plot s

/-- The almanac can take `r` newly opened records of another origin (R517, R520). -/
def almRoom (r : Nat) (s : Device) : Bool :=
  r = 0 || (!s.alm.sealed && decide (s.alm.unacked + r ≤ almSoft))

/-- A record of the device itself (origin SELF), its BEFORE and AFTER given. -/
def selfRec (cls id action status before after : Nat) (s : Device) : Device :=
  almMake { origin := 0, principal := 0, objClass := cls, objId := id, action, status, before, after }
    (objPlot s cls id) s

end Sys2Proof.Machine
end

