-- ==== Sys2Proof/Machine/Coded.lean ====
section
/-! DEFINITION. The coded arrays of the device: their sizes and words (R143), and the reports of what a read meets (R148). -/
namespace Sys2Proof.Machine
open Sys2Proof

/-! ## Array geometry (R143) -/

def arrayKey (cls idx : Nat) : Nat := cls * 65536 + idx

def arraySize : Nat → Nat
  | 0 => 4096 | 1 => 65536 | 2 => 131072 | 3 => 33554432 | 4 => 4194304 | 5 => 8388608 | 6 => 65536 | _ => 0

def arrayWord : Nat → Nat
  | 0 => 8 | 1 => 16 | 2 => 64 | 3 => 64 | 4 => 64 | 5 => 64 | 6 => 8 | _ => 1

def arrayCount : Nat → Nat
  | 0 => 18432 | 1 => 128 | 2 => 128 | 3 => 1 | 4 => 1 | 5 => 1 | 6 => 1 | _ => 0

def arrayAt (s : Device) (cls idx : Nat) : Coded := s.arrays.get Coded.filled (arrayKey cls idx)
def setArray (cls idx : Nat) (c : Coded) (s : Device) : Device :=
  { s with arrays := s.arrays.set Coded.filled (arrayKey cls idx) c }

def anyCorrected (l : List ByteRead) : Bool := l.any (·.cls.corrected)
def anyBad (l : List ByteRead) : Bool := l.any (·.cls.bad)
def dataOf (l : List ByteRead) : List Byte := l.map (·.data)

/-- The source against which a fault of an array is recorded (R527). -/
def arraySource (cls idx : Nat) : Source :=
  match cls with
  | 0 => .bed (Fin.ofNat 384 (idx / 48))
  | 1 => .core (Fin.ofNat 128 idx)
  | 2 => .core (Fin.ofNat 128 idx)
  | _ => .hub (Fin.ofNat 16 (9 + cls))

/-- DETAIL of CAUSE 0x01 and 0x02 (R537). -/
def sramDetail (cls off : Nat) (syn : BitVec 6) : Nat := cls + place off 8 + place syn.toNat 40

def firstIdx (p : ByteRead → Bool) (l : List ByteRead) : Nat := l.findIdx p

/-- C1 for the CORRECTED bytes of a read and C2 for its UNCORRECTABLE or ADDRESS bytes, against the array, each with the first byte of
its kind (R148). -/
def reportRead (cls idx off : Nat) (l : List ByteRead) (s : Device) : Device :=
  let note (p : ByteRead → Bool) (c : Fin 5) (cause : Nat) (s : Device) : Device :=
    if l.any p then
      let i := firstIdx p l
      raise (arraySource cls idx) c cause (sramDetail cls (off + i) ((l.map (·.syn)).getD i 0)) s
    else s
  note (·.cls.bad) 2 0x02 (note (·.cls.corrected) 1 0x01 s)

end Sys2Proof.Machine
end

