-- ==== Sys2Proof/Machine/Operands.lean ====
section
/-! DEFINITION. Operand forms of the word cell (R52 to R56): the micro-instruction's fields, the sources of
operands A and B, the chain input, the mask of SEL and the accumulator of MULS. -/
namespace Sys2Proof.Machine
open Sys2Proof

/-- What a word-mode cell can read in a micro-cycle (R53, R70): pins and chain inputs are read only where the
micro-instruction selects them. -/
structure CellIn where
  x   : Nat → Word16
  q0  : Word16
  q1  : Word16
  cl  : Bool
  cas : Unit → Word16
  cin : Unit → Bool

/-! ## Fields of a micro-instruction word (R52) -/

def miOp (w : Word32) : Nat := (w.extractLsb' 0 5).toNat
def miSa (w : Word32) : BitVec 4 := w.extractLsb' 5 4
def miSb (w : Word32) : BitVec 4 := w.extractLsb' 9 4
def miDst (w : Word32) : BitVec 3 := w.extractLsb' 13 3
def miCi (w : Word32) : BitVec 2 := w.extractLsb' 16 2
def miCnd (w : Word32) : BitVec 3 := w.extractLsb' 18 3
def miOsel (w : Word32) : BitVec 2 := w.extractLsb' 21 2
def miK (w : Word32) : Byte := w.extractLsb' 24 8

/-- The value of operand source code `c` with constant `k` (R53); a reserved code reads 0 (R60). -/
def cellSource (i : CellIn) (k : Byte) (c : BitVec 4) : Word16 :=
  match c.toNat with
  | 0 => i.x 0
  | 1 => i.x 1
  | 2 => i.x 2
  | 3 => i.x 3
  | 4 => i.q0
  | 5 => i.q1
  | 6 => i.cas ()
  | 8 => k.setWidth 16
  | 9 => k.signExtend 16
  | 10 => k.setWidth 16 <<< 8
  | 11 => 0x0000
  | 12 => 0xFFFF
  | _ => 0x0000

/-- cin of ADDC, SUBC and CMP (R55). -/
def cellCin (i : CellIn) (ci : BitVec 2) : Bool :=
  match ci.toNat with
  | 0 => i.cin ()
  | 1 => i.cl
  | 2 => false
  | _ => true

/-- ACC of MULS (R55, R56); a reserved CI gives 0 (R60). -/
def mulsAcc (i : CellIn) (ci : BitVec 2) (dst : BitVec 3) : Word16 :=
  match ci.toNat with
  | 0 => match dst.toNat with
    | 1 => i.q0 | 3 => i.q0 | 4 => i.q0
    | 2 => i.q1
    | _ => 0
  | 1 => i.cas ()
  | _ => 0

/-- The product pattern of MULS (R56). -/
def mulsProduct (a b : Word16) (cnd : BitVec 3) : Word16 :=
  let ab : Byte := if cnd.getLsbD 0 then a.extractLsb' 8 8 else a.extractLsb' 0 8
  let bb : Byte := b.extractLsb' 0 8
  let x : Int := if cnd.getLsbD 1 then ab.toInt else (ab.toNat : Int)
  let y : Int := if cnd.getLsbD 2 then bb.toInt else (bb.toNat : Int)
  BitVec.ofInt 16 (x * y)

/-- The mask of SEL (R55). -/
def selMask (i : CellIn) (ci : BitVec 2) : Word16 :=
  match ci.toNat with
  | 0 => i.q1
  | 1 => i.cas ()
  | 2 => i.q0
  | _ => if i.cin () then 0xFFFF else 0x0000

end Sys2Proof.Machine
end

