-- ==== Sys2Proof/Machine/Flags.lean ====
section
/-! DEFINITION. Carry and condition computations of the word cell (R54, R57). -/
namespace Sys2Proof.Machine
open Sys2Proof

/-- Bit 16 of an exact sum. -/
def carryOf (n : Nat) : Bool := decide (2 ^ 16 ≤ n)

/-- A + B + cin: the result and CO. -/
def addCarry (a b : Word16) (c : Bool) : Word16 × Bool :=
  let n := a.toNat + b.toNat + c.toNat
  (BitVec.ofNat 16 n, carryOf n)

/-- A + ~B + cin: the result and CO. -/
def subCarry (a b : Word16) (c : Bool) : Word16 × Bool := addCarry a (~~~b) c

/-- The condition and the carry output of CMP (R57); reserved CND values are false with CO = 0 (R60). -/
def cmpFlags (a b : Word16) (cin : Bool) (cnd : BitVec 3) : Bool × Bool :=
  let (d, c16) := subCarry a b cin
  let eq := decide (a = b) && cin
  let v := (a.getLsbD 15 != b.getLsbD 15) && (d.getLsbD 15 != a.getLsbD 15)
  let lts := d.getLsbD 15 != v
  match cnd.toNat with
  | 0 => (eq, eq)
  | 1 => (!eq, eq)
  | 2 => (!c16, c16)
  | 3 => (c16, c16)
  | 4 => (lts, c16)
  | 5 => (!lts, c16)
  | _ => (false, false)

/-- What a micro-instruction computes: result, CO, and whether CL takes CO. -/
structure CellRes where
  res    : Word16
  co     : Bool
  loadCl : Bool
  deriving DecidableEq, Repr

/-- The operations of R54 on operands A and B; a reserved OP executes as HOLD (R60). -/
def cellOp (op : Nat) (i : CellIn) (a b : Word16) (ci : BitVec 2) (cnd dst : BitVec 3) : CellRes :=
  let n := b.toNat % 16
  let plain (r : Word16) : CellRes := ⟨r, false, false⟩
  let arith (r : Word16 × Bool) : CellRes := ⟨r.1, r.2, true⟩
  match op with
  | 0x01 => plain a
  | 0x02 => arith (addCarry a b false)
  | 0x03 => arith (addCarry a b (cellCin i ci))
  | 0x04 => arith (subCarry a b true)
  | 0x05 => arith (subCarry a b (cellCin i ci))
  | 0x06 =>
    let (h, co) := cmpFlags a b (cellCin i ci) cnd
    ⟨if h then 0xFFFF else 0, co, true⟩
  | 0x07 => arith (addCarry (mulsAcc i ci dst) (mulsProduct a b cnd) false)
  | 0x08 => plain (a &&& b)
  | 0x09 => plain (a ||| b)
  | 0x0A => plain (a ^^^ b)
  | 0x0B =>
    let m := selMask i ci
    plain ((a &&& ~~~m) ||| (b &&& m))
  | 0x0C => plain (a <<< n)
  | 0x0D => plain (a >>> n)
  | 0x0E => plain (a.sshiftRight n)
  | 0x0F => plain (a.rotateLeft n)
  | _ => ⟨0, false, false⟩

/-- OP 0x00 and the reserved operations write no register, whatever DST holds (R54, R60). -/
def cellHolds (w : Word32) : Bool := miOp w = 0 || decide (0x10 ≤ miOp w)

/-- Executes one micro-instruction word (R54 to R60). -/
def cellExec (w : Word32) (i : CellIn) : CellRes :=
  if cellHolds w then ⟨0, false, false⟩ else
  cellOp (miOp w) i (cellSource i (miK w) (miSa w)) (cellSource i (miK w) (miSb w)) (miCi w) (miCnd w) (miDst w)

/-- Q0 and Q1 after the micro-cycle (R58, R60). -/
def cellDst (w : Word32) (r q0 q1 : Word16) : Word16 × Word16 :=
  if cellHolds w then (q0, q1) else
  match (miDst w).toNat with
  | 1 => (r, q1)
  | 2 => (q0, r)
  | 3 => (r, r)
  | 4 => (r, q0)
  | _ => (q0, q1)

/-- Y during the micro-cycle (R59, R60). -/
def cellY (w : Word32) (r q0 q1 : Word16) : Word16 :=
  match (miOsel w).toNat with
  | 1 => q0
  | 2 => q1
  | _ => r

/-! ## Bit mode (R64 to R67) -/

/-- One bit input of a bit-mode cell: 64 bits in order. -/
def lutAddr (ins : List Bool) (i : Nat) : Nat :=
  (nthBool ins (4 * i)).toNat + 2 * (nthBool ins (4 * i + 1)).toNat + 4 * (nthBool ins (4 * i + 2)).toNat
    + 8 * (nthBool ins (4 * i + 3)).toNat

/-- L_i, with the 5-input pairs of R66. -/
def lutOut (ir1 : Word32) (tables : List Word16) (ins : List Bool) (i : Nat) : Bool :=
  if ir1.getLsbD (16 + i / 2) then
    let k := i / 2
    let e := nthBool ins (4 * (2 * k + 1))
    (tables.getD (if e then 2 * k + 1 else 2 * k) 0).getLsbD (lutAddr ins (2 * k))
  else (tables.getD i 0).getLsbD (lutAddr ins i)

def bitsVec (f : Nat → Bool) : Word16 := BitVec.ofNat 16 (maskOf ((List.range 16).map f))

def bitY (ir0 ir1 : Word32) (tables : List Word16) (ins : List Bool) (q0 q1 : Word16) : Word16 :=
  bitsVec fun i =>
    match (ir0.extractLsb' (2 * i) 2).toNat with
    | 1 => q0.getLsbD i
    | 2 => q1.getLsbD i
    | _ => lutOut ir1 tables ins i

/-- The captures of R67. -/
def bitCapture (ir1 : Word32) (tables : List Word16) (ins : List Bool) : Word16 × Word16 :=
  (bitsVec fun i => lutOut ir1 tables ins i,
   bitsVec fun i => if ir1.getLsbD i then nthBool ins (4 * i + 3) else lutOut ir1 tables ins i)

end Sys2Proof.Machine
end

