-- ==== Sys2Proof/Machine/Fabric.lean ====
section
/-! DEFINITION. The routing of a bed and one micro-cycle of it (chapters "Word cells and clusters",
"Beds, routing and bed clocks", "Block memories and the on-chip code"). The nets of a phase are computed depth first, each once. -/
namespace Sys2Proof.Machine
open Sys2Proof

def bedAt (s : Device) (b : Nat) : Bed := s.beds.get Bed.reset b
def setBed (b : Nat) (x : Bed) (s : Device) : Device := { s with beds := s.beds.set Bed.reset b x }
def modBed (b : Nat) (f : Bed → Bed) (s : Device) : Device := setBed b (f (bedAt s b)) s

def bedSource (b : Nat) : Source := .bed (Fin.ofNat 384 b)

def cellCfg (b : Bed) (cl ce : Nat) : CellCfg := b.cfg.cells.get CellCfg.blank (cl * 16 + ce)
def cellSt (b : Bed) (cl ce : Nat) : CellSt := b.cells.get CellSt.zero (cl * 16 + ce)

def chan (b : Bed) (key : Nat) : ChanSt := b.border.chans.get ChanSt.reset key
def setChan (key : Nat) (c : ChanSt) (b : Bed) : Bed :=
  { b with border := { b.border with chans := b.border.chans.set ChanSt.reset key c } }
def modChan (key : Nat) (f : ChanSt → ChanSt) (b : Bed) : Bed := setChan key (f (chan b key)) b

/-! ## CH_CFG fields -/

def chKind (w : Word32) : Nat := (w.extractLsb' 0 3).toNat
def chSink (w : Word32) : Bool := w.getLsbD 3
def chFallow (w : Word32) : Nat := (w.extractLsb' 4 2).toNat
def chGoMode (w : Word32) : Nat := (w.extractLsb' 6 2).toNat
def chGoLine (w : Word32) : Nat := (w.extractLsb' 8 3).toNat
def chGoBit (w : Word32) : Nat := (w.extractLsb' 11 4).toNat
def chShared (w : Word32) : Bool := w.getLsbD 15
def chFlush (w : Word32) : Bool := w.getLsbD 16
def chPDie (w : Word32) : Nat := (w.extractLsb' 17 3).toNat
def chPCol (w : Word32) : Nat := (w.extractLsb' 20 3).toNat
def chPCh (w : Word32) : Nat := (w.extractLsb' 23 6).toNat

/-! ## Nets -/

inductive Net where
  | port (cl p : Nat)
  | res (cl ce : Nat)
  | co (cl ce : Nat)
  | y (cl ce : Nat)
  | sel (cl k : Nat)
  | hline (r l : Nat)
  | vline (c l : Nat)
  | bline (k : Nat)
  deriving DecidableEq, Repr

/-- Keys of the taps: 22 on each horizontal line (16 clusters, then port A and B of the memories of columns
M0 to M2), 16 on each vertical line (R87, R141). -/
def hTap (r l i : Nat) : Nat := (r * 4 + l) * 22 + i
def vTap (c l i : Nat) : Nat := 2000 + (c * 4 + l) * 16 + i

def tapAt (b : Bed) (key : Nat) : Tap := b.cfg.taps.get Tap.off key

/-- The tap drives its line in phase k (R87, R90). -/
def tapDrives (b : Bed) (k key : Nat) : Bool := (tapAt b key).pm.getLsbD k && !b.tapsOff.contains key

def hDrivers (b : Bed) (k r l : Nat) : List Nat := (List.range 22).filter fun i => tapDrives b k (hTap r l i)
def vDrivers (b : Bed) (k c l : Nat) : List Nat := (List.range 16).filter fun i => tapDrives b k (vTap c l i)

/-- An output word of a memory port: RD0 to RD3, RSTAT (R141). -/
def portWord (b : Bed) (mem port w : Nat) : Word16 :=
  let o := b.ports.get PortOut.zero (mem * 2 + port)
  if w < 4 then o.rd.extractLsb' (16 * w) 16 else o.rstat.setWidth 16

/-- The 16-bit line of an incoming channel's arrival value that an edge cluster sees (R83, R84):
length-1 lines 0 to 3, or length-4 lines 0 to 3, on a side. -/
def arrivalLine (b : Bed) (side j line : Nat) (long : Bool) : Word16 :=
  let key := side * 64 + 4 * j + (if long then 2 else 0) + line / 2
  let c := chan b key
  let kd := chKind c.cfg
  if kd = 2 ∨ kd = 4 then c.arrive.extractLsb' (16 * (line % 2)) 16
  else if !long && decide (line < 2) then
    let w := if side = 1 then b.pinE else if side = 3 then b.pinW else 0
    if w.getLsbD (j * 2 + line) then 1 else 0
  else 0

/-- What a crossbar port selects: another net, or a value that is not a net. -/
def portSource (b : Bed) (cl p : Nat) : Net ⊕ Word16 :=
  let r := cl / 16
  let c := cl % 16
  let at' (rr cc : Nat) : Nat := rr * 16 + cc
  if p < 16 then .inl (.y cl p)
  else if p < 32 then
    let line := p % 4
    match (p - 16) / 4 with
    | 0 => if r + 1 < 16 then .inl (.sel (at' (r + 1) c) (2 * 4 + line)) else .inr (arrivalLine b 0 c line false)
    | 1 => if c + 1 < 16 then .inl (.sel (at' r (c + 1)) (3 * 4 + line)) else .inr (arrivalLine b 1 r line false)
    | 2 => if 1 ≤ r then .inl (.sel (at' (r - 1) c) (0 * 4 + line)) else .inr (arrivalLine b 2 c line false)
    | _ => if 1 ≤ c then .inl (.sel (at' r (c - 1)) (1 * 4 + line)) else .inr (arrivalLine b 3 r line false)
  else if p < 48 then
    let line := p % 4
    match (p - 32) / 4 with
    | 0 => if r + 4 < 16 then .inl (.sel (at' (r + 4) c) (16 + 2 * 4 + line))
           else if r = 15 then .inr (arrivalLine b 0 c line true) else .inr 0
    | 1 => if c + 4 < 16 then .inl (.sel (at' r (c + 4)) (16 + 3 * 4 + line))
           else if c = 15 then .inr (arrivalLine b 1 r line true) else .inr 0
    | 2 => if 4 ≤ r then .inl (.sel (at' (r - 4) c) (16 + 0 * 4 + line))
           else if r = 0 then .inr (arrivalLine b 2 c line true) else .inr 0
    | _ => if 4 ≤ c then .inl (.sel (at' r (c - 4)) (16 + 1 * 4 + line))
           else if c = 0 then .inr (arrivalLine b 3 r line true) else .inr 0
  else if p < 52 then .inl (.hline r (p - 48))
  else if p < 56 then .inl (.vline c (p - 52))
  else .inl (.bline (p - 56))

/-- The micro-instruction that a word-mode cell executes in phase k (R68). -/
def cellIr (b : Bed) (k cl ce : Nat) : Word32 := (cellCfg b cl ce).ir.getD k 0

/-- A number for each net. -/
def Net.key : Net → Nat
  | .port cl p => cl * 64 + p
  | .sel cl i => 16384 + cl * 32 + i
  | .res cl ce => 24576 + cl * 16 + ce
  | .co cl ce => 28672 + cl * 16 + ce
  | .y cl ce => 32768 + cl * 16 + ce
  | .hline r l => 36864 + r * 4 + l
  | .vline c l => 36928 + c * 4 + l
  | .bline i => 36992 + i

/-- What is computed within a phase: the result and the carry output of a word-mode cell, or the carry that a bit-mode cell
passes on; a bit of Y that a bit-mode cell does not take from a register. -/
inductive Node where
  | res (cl ce : Nat)
  | co (cl ce : Nat)
  | bit (cl ce i : Nat)
  deriving DecidableEq, Repr

def Node.key : Node → Nat
  | .res cl ce => 65536 + cl * 16 + ce
  | .co cl ce => 69632 + cl * 16 + ce
  | .bit cl ce i => 73728 + (cl * 16 + ce) * 16 + i

/-- What a phase is computed from: the bed, the phase, a cell whose micro-instruction is replaced, and the unpredictable values of
what lies on a loop (R75, R91) and of contended lines (R90), by key. -/
structure PhaseIn where
  b  : Bed
  k  : Nat
  ov : Option (Nat × Nat × Word32)
  lv : Nat → Word16

/-- The cell before this one on its chain (R61). -/
def prevCell (cl ce : Nat) : Option (Nat × Nat) :=
  if 0 < ce then some (cl, ce - 1) else if 16 ≤ cl then some (cl - 16, 15) else none

def PhaseIn.ir (p : PhaseIn) (cl ce : Nat) : Word32 :=
  match p.ov with
  | some (a, c, w) => if a = cl ∧ c = ce then w else cellIr p.b p.k cl ce
  | none => cellIr p.b p.k cl ce

def pinNet (b : Bed) (cl ce i : Nat) : Net := .port cl ((cellCfg b cl ce).xsel.getD i 0)
def bitNet (b : Bed) (cl ce i : Nat) : Net := .port cl ((cellCfg b cl ce).xsel.getD i 0 / 16)

/-- The net that the CAS input carries. -/
def casNet (b : Bed) (x : Nat × Nat) : Net := if (cellCfg b x.1 x.2).bitMode then .y x.1 x.2 else .res x.1 x.2

/-- What a cell reads, given the values of nets. -/
def cellInput (b : Bed) (v : Net → Word16) (cl ce : Nat) : CellIn :=
  let st := cellSt b cl ce
  { x := fun i => v (pinNet b cl ce i), q0 := st.q0, q1 := st.q1, cl := st.cl
    cas := fun _ => ((prevCell cl ce).map fun x => v (casNet b x)).getD 0
    cin := fun _ => match prevCell cl ce with
      | some x => v (.co x.1 x.2) != 0
      | none => false }

def cellBits (b : Bed) (v : Net → Word16) (cl ce : Nat) : List Bool :=
  (List.range 64).map fun i => (v (bitNet b cl ce i)).getLsbD ((cellCfg b cl ce).xsel.getD i 0 % 16)

/-- Bit `i` of Y of a bit-mode cell is L_i, and not a register's (R65). -/
def yLut (f : CellCfg) (i : Nat) : Bool :=
  let y := ((f.ir.getD 0 0).extractLsb' (2 * i) 2).toNat
  y ≠ 1 && y ≠ 2

/-- Where a net's value comes from: a value of its own, or an output of a cell. -/
inductive NetRoot where
  | word (w : Word16)
  | y (cl ce : Nat)
  | res (cl ce : Nat)
  | co (cl ce : Nat)
  deriving DecidableEq, Repr

/-- The one net that a net carries on, or the root at which it begins. DESIGN CHOICE (log 26). -/
def PhaseIn.source (p : PhaseIn) (net : Net) : Net ⊕ NetRoot :=
  let b := p.b
  match net with
  | .port cl i => match portSource b cl i with
    | .inl m => .inl m
    | .inr x => .inr (.word x)
  | .res cl ce => .inr (.res cl ce)
  | .co cl ce => .inr (.co cl ce)
  | .y cl ce => .inr (.y cl ce)
  | .sel cl i => match b.cfg.outSel.get 0 (cl * 32 + i) with
    | 0 => .inr (.word 0)
    | q + 1 => .inl (.port cl q)
  | .hline r l =>
    match hDrivers b p.k r l with
    | [] => .inr (.word 0)
    | _ :: _ :: _ => .inr (.word (p.lv net.key))
    | [i] =>
      let t := tapAt b (hTap r l i)
      if i < 16 then .inl (.port (r * 16 + i) t.sel)
      else .inr (.word (portWord b (16 * ((i - 16) / 2) + r) ((i - 16) % 2) t.sel))
  | .vline c l =>
    match vDrivers b p.k c l with
    | [] => .inr (.word 0)
    | _ :: _ :: _ => .inr (.word (p.lv net.key))
    | [i] => .inl (.port (i * 16 + c) (tapAt b (vTap c l i)).sel)
  | .bline i =>
    match b.cfg.blines.getD i none with
    | some (cl, q) => .inl (.port cl q)
    | none => .inr (.word 0)

/-- The root of a net. Wires that lead back to one of them without passing a cell carry an unpredictable value (R91). -/
def PhaseIn.rootFrom (p : PhaseIn) : Nat → List Nat → Net → NetRoot
  | 0, _, net => .word (p.lv net.key)
  | n + 1, seen, net =>
    if seen.contains net.key then .word (p.lv net.key)
    else match p.source net with
      | .inl m => p.rootFrom n (net.key :: seen) m
      | .inr r => r

/-- More than the number of nets of a bed. -/
def netFuel : Nat := 65536

def PhaseIn.root (p : PhaseIn) (net : Net) : NetRoot := p.rootFrom netFuel [] net

/-- The value of a root from the values of nodes (R59, R62, R65). Carries are 0 or 1. -/
def PhaseIn.rootVal (p : PhaseIn) (v : Node → Word16) (r : NetRoot) : Word16 :=
  let yOf (cl ce : Nat) : Word16 :=
    let f := cellCfg p.b cl ce
    let st := cellSt p.b cl ce
    if f.bitMode then bitsVec fun i =>
      match ((f.ir.getD 0 0).extractLsb' (2 * i) 2).toNat with
      | 1 => st.q0.getLsbD i
      | 2 => st.q1.getLsbD i
      | _ => (v (.bit cl ce i)).getLsbD 0
    else if miOsel (p.ir cl ce) = 1 then st.q0
    else if miOsel (p.ir cl ce) = 2 then st.q1
    else v (.res cl ce)
  match r with
  | .word w => w
  | .y cl ce => yOf cl ce
  | .res cl ce => if (cellCfg p.b cl ce).bitMode then yOf cl ce else v (.res cl ce)
  | .co cl ce => v (.co cl ce)

/-- The nodes behind a root, or behind one bit of it. -/
def PhaseIn.rootNodes (p : PhaseIn) (bit : Option Nat) (r : NetRoot) : List Node :=
  let yOf (cl ce : Nat) : List Node :=
    let f := cellCfg p.b cl ce
    if f.bitMode then
      ((match bit with | some i => [i] | none => List.range 16).filter (yLut f)).map fun i => .bit cl ce i
    else if miOsel (p.ir cl ce) = 1 ∨ miOsel (p.ir cl ce) = 2 then []
    else [.res cl ce]
  match r with
  | .word _ => []
  | .y cl ce => yOf cl ce
  | .res cl ce => if (cellCfg p.b cl ce).bitMode then yOf cl ce else [.res cl ce]
  | .co cl ce => [.co cl ce]

def PhaseIn.netNodes (p : PhaseIn) (bit : Option Nat) (net : Net) : List Node := p.rootNodes bit (p.root net)

/-- The operations whose CO is not 0 whatever their operands (R54, R57, R60). -/
def coLive (w : Word32) : Bool := decide (0x02 ≤ miOp w ∧ miOp w ≤ 0x07) && !(miOp w = 0x06 && decide (6 ≤ (miCnd w).toNat))

/-- Nets that a micro-instruction reads: the pins and chain inputs that its operands and CI select (R53, R55, R60). -/
def execReads (b : Bed) (w : Word32) (cl ce : Nat) : List Net :=
  if cellHolds w || (miOp w = 0x06 && !coLive w) then []
  else
    let cas := (prevCell cl ce).toList.map (casNet b)
    let cin := (prevCell cl ce).toList.map fun x => Net.co x.1 x.2
    let src (c : BitVec 4) : List Net := if c.toNat < 4 then [pinNet b cl ce c.toNat] else if c = 6 then cas else []
    let op := miOp w
    let ci := (miCi w).toNat
    src (miSa w) ++ (if op = 0x01 then [] else src (miSb w))
      ++ (if ((op = 0x03 ∨ op = 0x05 ∨ op = 0x06) ∧ ci = 0) ∨ (op = 0x0B ∧ ci = 3) then cin else [])
      ++ (if (op = 0x07 ∨ op = 0x0B) ∧ ci = 1 then cas else [])

/-- The bit inputs that L_i reads: those of its function, or the five of its pair (R64, R66). -/
def lutReads (f : CellCfg) (i : Nat) : List Nat :=
  if (f.ir.getD 1 0).getLsbD (16 + i / 2) then (List.range 5).map (8 * (i / 2) + ·) else (List.range 4).map (4 * i + ·)

/-- The nodes that a node reads in the phase. -/
def PhaseIn.reads (p : PhaseIn) (x : Node) : List Node :=
  let b := p.b
  let exec (cl ce : Nat) : List Node := (execReads b (p.ir cl ce) cl ce).flatMap (p.netNodes none)
  match x with
  | .res cl ce => exec cl ce
  | .co cl ce =>
    if (cellCfg b cl ce).bitMode then (prevCell cl ce).toList.map fun y => .co y.1 y.2
    else if coLive (p.ir cl ce) then exec cl ce else []
  | .bit cl ce i =>
    let f := cellCfg b cl ce
    (lutReads f i).flatMap fun j => p.netNodes (some (f.xsel.getD j 0 % 16)) (bitNet b cl ce j)

/-- The value of a node from the values of the nodes that it reads. -/
def PhaseIn.eval (p : PhaseIn) (v : Node → Word16) (x : Node) : Word16 :=
  let b := p.b
  let w (net : Net) : Word16 := p.rootVal v (p.root net)
  let one (y : Bool) : Word16 := if y then 1 else 0
  match x with
  | .res cl ce => (cellExec (p.ir cl ce) (cellInput b w cl ce)).res
  | .co cl ce =>
    let i := cellInput b w cl ce
    one (if (cellCfg b cl ce).bitMode then i.cin () else (cellExec (p.ir cl ce) i).co)
  | .bit cl ce i =>
    let f := cellCfg b cl ce
    let need := lutReads f i
    let ins := (List.range 64).map fun j => need.contains j && (w (bitNet b cl ce j)).getLsbD (f.xsel.getD j 0 % 16)
    one (lutOut (f.ir.getD 1 0) f.tables ins i)

/-- A node in the course of a computation: begun, with a number that is the greater the earlier it began; or known, with the node
that was begun and not yet known that it led back to. -/
inductive NetMark where
  | begun (n : Nat)
  | known (v : Word16) (head : Option Nat)
  deriving DecidableEq, Repr

abbrev NetMemo := Trie NetMark

def NetMemo.at' (m : NetMemo) (key : Nat) : Option NetMark := Trie.get 18 m key
def NetMemo.put (m : NetMemo) (key : Nat) (x : NetMark) : NetMemo := Trie.set 18 m key x
def NetMemo.val (m : NetMemo) (x : Node) : Word16 :=
  match m.at' x.key with
  | some (.known v _) => v
  | _ => 0

/-- The begun node that a node leads back to. -/
def NetMemo.back (m : NetMemo) : Nat → Nat → Option (Nat × Nat)
  | 0, _ => none
  | f + 1, key => match m.at' key with
    | some (.begun n) => some (n, key)
    | some (.known _ (some h)) => NetMemo.back m f h
    | _ => none

/-- The node begun first among those that some nodes lead back to. -/
def NetMemo.first (m : NetMemo) (f : Nat) (xs : List Node) : Option (Nat × Nat) :=
  xs.foldl (fun x d => match x, m.back f d.key with
    | none, y => y
    | some x, none => some x
    | some x, some y => if x.1 < y.1 then some y else some x) none

/-- Computes a node and what it reads. A node that leads back to itself, or to a node begun before it, lies on a combinational
loop, and its value is unpredictable (R75, R91). DESIGN CHOICE (log 16). -/
def nodeSolve (p : PhaseIn) : Nat → Node → NetMemo → NetMemo
  | 0, _, m => m
  | n + 1, x, m =>
    if (m.at' x.key).isSome then m
    else
      let ds := p.reads x
      let m := ds.foldl (fun m d => nodeSolve p n d m) (m.put x.key (.begun n))
      match m.first (n + 1) ds with
      | some h => m.put x.key (.known (p.lv x.key) (some h.2))
      | none => m.put x.key (.known (p.eval m.val x) none)

/-- More than the number of nodes of a bed. -/
def nodeFuel : Nat := 131072

/-- Computes what lies behind a net. -/
def netSolve (p : PhaseIn) (net : Net) (m : NetMemo) : NetMemo :=
  (p.netNodes none net).foldl (fun m x => nodeSolve p nodeFuel x m) m

/-- The nodes behind every configured cell. -/
def phaseNets (p : PhaseIn) : NetMemo :=
  p.b.cfg.cells.cells.foldl (fun m c => netSolve p (.y (c.1 / 16) (c.1 % 16)) (netSolve p (.res (c.1 / 16) (c.1 % 16)) m)) .none

/-- The value of any net of a phase. -/
def netVal (p : PhaseIn) (m : NetMemo) (net : Net) : Word16 := p.rootVal (netSolve p net m).val (p.root net)

/-- The unpredictable values of a micro-cycle, by a counter of the state. -/
def loopVals (n : Nat) (key : Nat) : Word16 := Config.loopValue (n * 262144 + key)

/-- The nets of a bed in its present phase. -/
def bedNets (b : Bed) (n : Nat) : Net → Word16 :=
  let p : PhaseIn := { b, k := b.phase, ov := none, lv := loopVals n }
  netVal p (phaseNets p)

/-! ## Contention (R90) -/

/-- Lines that two taps drive in phase k: orientation, index, line and the keys of the taps. -/
def contended (b : Bed) (k : Nat) : List (Bool × Nat × Nat × List Nat) :=
  (List.range 16).flatMap fun x => (List.range 4).flatMap fun l =>
    let h := (hDrivers b k x l).map (hTap x l)
    let v := (vDrivers b k x l).map (vTap x l)
    (if 2 ≤ h.length then [(false, x, l, h)] else []) ++ (if 2 ≤ v.length then [(true, x, l, v)] else [])

/-- Disables the taps of one contended line and records the first event (R90). -/
def contend (k : Nat) (e : Bool × Nat × Nat × List Nat) (b : Bed) : Bed :=
  { b with tapsOff := b.tapsOff ++ e.2.2.2
           contention := { seen := true, count := satAdd 8 b.contention.count 1
                           first := some (b.contention.first.getD (e.1, e.2.1, e.2.2.1, k)) } }

/-- CONTENTION (bed + 0x018). -/
def contentionReg (c : Contention) : Nat :=
  bit c.seen 0 + place c.count 16 + (match c.first with
    | some (o, i, l, p) => bit o 1 + place i 2 + place l 6 + place p 8
    | none => 0)

/-! ## Cell writes of one phase -/

/-- Q0, Q1 and CL of a word-mode cell after the phase (R58, R70, R73). -/
def wordWrite (en : Bool) (w : Word32) (r : CellRes) (st : CellSt) : CellSt :=
  if en then
    let (q0, q1) := cellDst w r.res st.q0 st.q1
    { q0, q1, cl := if r.loadCl then r.co else st.cl }
  else st

/-- The state of one configured cell after the phase in progress. -/
def cellNext (b : Bed) (v : Net → Word16) (cl ce : Nat) : CellSt :=
  let f := cellCfg b cl ce
  let st := cellSt b cl ce
  let en := b.rowEn.getLsbD (cl / 16)
  if f.bitMode then
    if en && b.phase + 1 = b.cfg.fold then
      let (q0, q1) := bitCapture (f.ir.getD 1 0) f.tables (cellBits b v cl ce)
      { st with q0, q1 }
    else st
  else
    let w := cellIr b b.phase cl ce
    wordWrite en w (cellExec w (cellInput b v cl ce)) st

/-! ## Block-memory accesses (R135 to R142) -/

/-- The six input words of a port (R137). -/
def bmInput (b : Bed) (v : Net → Word16) (mem port w : Nat) : Word16 :=
  let cfg := b.cfg.bms.get BmCfg.reset mem
  let sel := cfg.inSel.getD (port * 6 + w) 0
  let r := mem % 16
  let west := r * 16 + (4 * (mem / 16) + 3)
  if sel = 0 then 0
  else if sel < 65 then v (.port west (sel - 1))
  else v (.port (west + 1) (sel - 65))

/-- One port access of a phase: the word's first byte (or bit place for narrow aspects), its width in bits,
whether it writes, byte enables and data. -/
structure PortAcc where
  aspect : Nat
  addr   : Nat
  we     : Bool
  be     : Nat
  wd     : Nat
  rdw    : Nat
  deriving DecidableEq, Repr

def PortAcc.width (p : PortAcc) : Nat := 2 ^ p.aspect
/-- First byte touched, and number of bytes. -/
def PortAcc.byte0 (p : PortAcc) : Nat := p.addr * p.width / 8
def PortAcc.nbytes (p : PortAcc) : Nat := Nat.max 1 (p.width / 8)
/-- Byte j of the access is written. -/
def PortAcc.writes (p : PortAcc) (j : Nat) : Bool := p.we && (p.aspect ≤ 3 || bitAt p.be j)

/-- The access that a port makes in the phase in progress, if any (R138). -/
def bmAccess (b : Bed) (v : Net → Word16) (mem port : Nat) : Option PortAcc :=
  let cfg := b.cfg.bms.get BmCfg.reset mem
  let pam := if port = 0 then cfg.pamA else cfg.pamB
  let asp := (if port = 0 then cfg.aspectA else cfg.aspectB).toNat
  if pam.getLsbD b.phase && b.rowEn.getLsbD (mem % 16) then
    let ctrl := (bmInput b v mem port 1).toNat
    if bitAt ctrl 0 then
      some { aspect := asp, addr := (bmInput b v mem port 0).toNat % 2 ^ (15 - asp), we := bitAt ctrl 1,
             be := bitsAt ctrl 2 8,
             wd := (List.range 4).foldl (fun a j => a + (bmInput b v mem port (2 + j)).toNat * 2 ^ (16 * j)) 0,
             rdw := (if port = 0 then cfg.rdwA else cfg.rdwB).toNat }
    else none
  else none

/-- What a byte of a read returns: corrected under the code with CHECK = 1, as stored with CHECK = 0. -/
def bmByte (check : Bool) (c : Coded) (a : Nat) : ByteRead :=
  if check then c.read a else ⟨c.raw a, 0, .clean⟩

def PortAcc.reads (check : Bool) (c : Coded) (p : PortAcc) : List ByteRead :=
  (List.range p.nbytes).map fun j => bmByte check c (p.byte0 + j)

/-- The port word of the bytes read, narrowed to the port's width. -/
def PortAcc.word (p : PortAcc) (bytes : List Byte) : Nat :=
  let v := ofLe bytes
  if p.aspect < 3 then bitsAt v (p.addr * p.width % 8) p.width else v

/-- The new value of byte j of the access, merging a narrow word into its byte. -/
def PortAcc.newByte (p : PortAcc) (old : Byte) (j : Nat) : Byte :=
  if p.aspect < 3 then
    let lo := p.addr * p.width % 8
    BitVec.ofNat 8 (maskWrite old.toNat (p.wd % 2 ^ p.width * 2 ^ lo) ((2 ^ p.width - 1) * 2 ^ lo))
  else BitVec.ofNat 8 (p.wd / 2 ^ (8 * j))

/-- BM_INJECT applied to the lowest enabled byte of a port A write (R159 and its register). -/
def injectWrong (pos : Nat) : Byte × BitVec 6 :=
  if pos < 8 then (1#8 <<< pos, 0) else if pos < 14 then (0, colC (pos - 8)) else (0, colG (pos - 14))

/-- Stores the bytes of a write access. -/
def PortAcc.store (check : Bool) (inj : Option Nat) (skip : Nat → Bool) (c : Coded) (p : PortAcc) : Coded :=
  let lowest := (List.range p.nbytes).find? p.writes
  (List.range p.nbytes).foldl (fun c j =>
    if p.writes j && !skip (p.byte0 + j) then
      let a := p.byte0 + j
      let v := p.newByte (c.raw a) j
      if check then
        match inj with
        | some pos => if lowest = some j then c.writeWith a v (injectWrong pos).1 (injectWrong pos).2 else c.write a v
        | none => c.write a v
      else c.writeData a v
    else c) c

/-- Bytes that both ports write collide (R140). -/
def collides (pa pb : Option PortAcc) : Bool :=
  match pa, pb with
  | some a, some b =>
    (List.range a.nbytes).any fun j => a.writes j &&
      (List.range b.nbytes).any fun k => b.writes k && a.byte0 + j = b.byte0 + k
  | _, _ => false

/-- The output registers after an access (R139, R141). -/
def PortAcc.output (p : PortAcc) (rs : List ByteRead) (coll : Bool) (old : PortOut) : PortOut :=
  let readBytes := dataOf rs
  let bytes := if p.we && p.rdw = 1 then
      (List.range p.nbytes).map fun j => if p.writes j then p.newByte (readBytes.getD j 0) j else readBytes.getD j 0
    else readBytes
  let seen := if p.we && p.rdw = 1 then (rs.zipIdx.filter fun x => !p.writes x.2).map (·.1) else rs
  let st := bit (anyCorrected seen) 0 + bit (seen.any (·.cls = .uncorrectable)) 1 + bit (seen.any (·.cls = .address)) 2
  if p.we && p.rdw = 2 then { old with rstat := BitVec.ofNat 4 (bit coll 3) }
  else { rd := BitVec.ofNat 64 (p.word bytes), rstat := BitVec.ofNat 4 (st + bit (p.we && coll) 3) }

/-- The bytes whose classes an access reports: those it returns (R139, R148). -/
def PortAcc.seen (p : PortAcc) (rs : List ByteRead) : List (ByteRead × Nat) :=
  if p.we && p.rdw = 2 then []
  else if p.we && p.rdw = 1 then rs.zipIdx.filter fun x => !p.writes x.2
  else rs.zipIdx

/-- BM_STAT, BM_FIRST and BM_COUNT after one access (R148, R158). -/
def bmNote (port : Nat) (p : PortAcc) (rs : List ByteRead) (st : BmStat) : BmStat :=
  let seen := p.seen rs
  let corr := seen.any (·.1.cls.corrected)
  let unc := seen.any (·.1.cls = .uncorrectable)
  let adr := seen.any (·.1.cls = .address)
  let ev : Option (ByteRead × Nat) := match seen.find? (·.1.cls.bad) with
    | some x => some x
    | none => seen.find? (·.1.cls.corrected)
  let cur := (st.first.extractLsb' 18 2).toNat
  let first := match ev with
    | none => st.first
    | some (r, j) =>
      let code := if r.cls = .address then 3 else if r.cls = .uncorrectable then 2 else 1
      if cur = 0 ∨ (cur = 1 ∧ 2 ≤ code) then
        BitVec.ofNat 21 (p.byte0 + j + place r.syn.toNat 12 + place code 18 + place port 20)
      else st.first
  { st with corr := st.corr || corr, unc := st.unc || unc, addr := st.addr || adr, first
            corrCnt := if corr then BitVec.ofNat 16 (satAdd 16 st.corrCnt.toNat 1) else st.corrCnt
            uncCnt := if unc || adr then BitVec.ofNat 8 (satAdd 8 st.uncCnt.toNat 1) else st.uncCnt }

/-- The faults of an access: C1 for its CORRECTED bytes and C2 for its UNCORRECTABLE or ADDRESS bytes (R148). -/
def bmFault (bed : Nat) (p : PortAcc) (rs : List ByteRead) (s : Device) : Device :=
  let seen := p.seen rs
  let detail (x : ByteRead × Nat) : Nat := sramDetail 0 (p.byte0 + x.2) x.1.syn
  let s := match seen.find? (·.1.cls.corrected) with
    | some x => raise (bedSource bed) 1 0x01 (detail x) s
    | none => s
  match seen.find? (·.1.cls.bad) with
  | some x => raise (bedSource bed) 2 0x02 (detail x) s
  | none => s

/-- Both ports' accesses of one memory in the phase in progress, (R138 to R140). DESIGN CHOICE (log 156). -/
def bmPhase (bed mem : Nat) (pa pb : Option PortAcc) (s : Device) : Device :=
  let b := bedAt s bed
  let cfg := b.cfg.bms.get BmCfg.reset mem
  let key := bed * 48 + mem
  let c := arrayAt s 0 key
  let coll := collides pa pb
  let ra := (pa.map fun p => p.reads cfg.check c).getD []
  let rb := (pb.map fun p => p.reads cfg.check c).getD []
  let aWrites (a : Nat) : Bool := match pa with
    | some p => (List.range p.nbytes).any fun j => p.writes j && p.byte0 + j = a
    | none => false
  let hit := b.inject.arm && b.inject.mem.toNat = mem && cfg.check && (match pa with
    | some p => p.we && (List.range p.nbytes).any p.writes
    | none => false)
  let c := match pb with | some p => if p.we then p.store cfg.check none aWrites c else c | none => c
  let c := match pa with
    | some p => if p.we then p.store cfg.check (if hit then some b.inject.pos.toNat else none) (fun _ => false) c else c
    | none => c
  let st := b.bmStat.get BmStat.reset mem
  let st := match pa with | some p => bmNote 0 p ra st | none => st
  let st := match pb with | some p => bmNote 1 p rb st | none => st
  let st := if coll then { st with coll := true, collCnt := BitVec.ofNat 8 (satAdd 8 st.collCnt.toNat 1) } else st
  let ports := match pa with
    | some p => b.ports.modify PortOut.zero (mem * 2) (p.output ra coll)
    | none => b.ports
  let ports := match pb with
    | some p => ports.modify PortOut.zero (mem * 2 + 1) (p.output rb coll)
    | none => ports
  let b := { b with ports, bmStat := b.bmStat.set BmStat.reset mem st,
                    inject := if hit then { b.inject with arm := false } else b.inject }
  let s := setBed bed b (setArray 0 key c s)
  let s := match pa with | some p => bmFault bed p ra s | none => s
  match pb with | some p => bmFault bed p rb s | none => s

/-! ## Row enables (R73, R93) -/

def rowEnables (b : Bed) : Word16 :=
  bitsVec fun r => b.rowCe.getLsbD r && (!b.rowCe.getLsbD (16 + r) || (b.blines.getD b.rowCeSrc.toNat 0).getLsbD r)

/-- φ0 of a user cycle begins: CL is cleared, the row enables are sampled, THROTTLE takes effect (R71, R73, R99). -/
def startCycle (b : Bed) : Bed :=
  { b with phase := 0, cells := b.cells.mapCells CellSt.zero (fun _ c => { c with cl := false }), rowEn := rowEnables b,
           clock := { b.clock with thrEff := b.clock.throttle.toNat } }

end Sys2Proof.Machine
end

