-- ==== Sys2Proof/Machine/ShellOps.lean ====
section
/-! DEFINITION. The digital shell: its state machine and common registers (R36 to R45), without what each
macro does on a transition. -/
namespace Sys2Proof.Machine
open Sys2Proof

def shellKey : ShellId → Nat
  | .gen b => b.val
  | .pma l => 1000 + l.val
  | .phy c => 2000 + c.val
  | .gpio g => 3000 + g.val
  | .puf => 4000
  | .volt d => 4100 + d.val
  | .clk d => 4200 + d.val
  | .temp t => 4300 + t.val

/-- The spec gives the shell's window no address. -/
def shellHidden : ShellId → Bool
  | .puf | .volt _ | .clk _ | .temp _ => true
  | _ => false

def shellAt (s : Device) (i : ShellId) : Shell := s.shells.get Shell.reset (shellKey i)
def setShell (i : ShellId) (x : Shell) (s : Device) : Device :=
  { s with shells := s.shells.set Shell.reset (shellKey i) x }
def modShell (i : ShellId) (f : Shell → Shell) (s : Device) : Device := setShell i (f (shellAt s i)) s

/-- A running calibration is aborted: RESULT 3 (R39). -/
def Shell.abortCal (x : Shell) : Shell := if x.start then { x with start := false, result := 3 } else x

/-- Enters STARTING: the written trim is applied (TRIM.VALUE). -/
def Shell.toStarting (x : Shell) : Shell := { x with st := .starting, applied := x.trim, pendStop := false, sampled := x.mspec }

/-- A CTL write and its evaluation (R37, R38, R41, R42). -/
def Shell.ctlWrite (x : Shell) (en : Bool) (mspec : BitVec 15) : Shell :=
  let x := { x with en, mspec }
  match x.st with
  | .idle => if en then x.toStarting else x
  | .starting => if en then x else { x with pendStop := true }
  | .active => if en then x else { x.abortCal with st := .stopping }
  | .stopping => x
  | .fault => if en then x else { x with st := .idle }

/-- The start sequence completes, or finds the macro absent (R37, R38). -/
def Shell.startDone (x : Shell) (found : Bool) : Shell :=
  if x.st = .starting then
    if !found then { x with st := .idle, en := false, pendStop := false }
    else if x.pendStop then { x with st := .stopping, pendStop := false, measValid := false }
    else { x with st := .active, measValid := false }
  else x

/-- The stop sequence completes; IDLE samples a pending enable (R37, R41). -/
def Shell.stopDone (x : Shell) : Shell :=
  if x.st = .stopping then
    let x := { x with st := .idle }
    if x.en then x.toStarting else x
  else x

/-- A macro fault; EN = 0 is evaluated as a level at once (R37, R39, R45). -/
def Shell.macroFault (x : Shell) : Shell :=
  match x.st with
  | .starting | .active | .stopping =>
    let x := { x.abortCal with err := true, pendStop := false }
    if x.en then { x with st := .fault } else { x with st := .idle }
  | _ => x

/-- The shell can take a macro fault (R37). -/
def Shell.canFault (x : Shell) : Bool := x.st = .starting || x.st = .active || x.st = .stopping

/-- A CAL write: KIND and CONT are stored, START begins a calibration in ACTIVE and is refused elsewhere, or
for a kind that the macro does not define (R39). -/
def Shell.calWrite (x : Shell) (v : Word32) (kindOk : Bool) : Shell :=
  let x := { x with kind := v.extractLsb' 1 3, cont := v.getLsbD 4 }
  if v.getLsbD 0 then
    if x.start then x
    else if x.st = .active ∧ kindOk then { x with start := true }
    else { x with result := 3 }
  else x

/-- A calibration that runs ends (R39). -/
def Shell.calDone (x : Shell) (pass : Bool) : Shell :=
  if x.start then { x with start := false, result := if pass then 1 else 2 } else x

/-- A new measurement (MEAS). -/
def Shell.measure (x : Shell) (v : BitVec 24) : Shell :=
  if x.st = .active then { x with measVal := v, measSeq := x.measSeq + 1, measValid := true } else x

/-! ## Register values (R36) -/

def Shell.ctl (x : Shell) : Nat := bit x.en 0 + place x.mspec.toNat 1
def Shell.cal (x : Shell) : Nat := bit x.start 0 + place x.kind.toNat 1 + bit x.cont 4 + place x.result.toNat 8
def Shell.meas (x : Shell) : Nat := x.measVal.toNat + place x.measSeq.toNat 24 + bit x.measValid 31
def shellStNo : ShellSt → Nat
  | .idle => 0 | .starting => 1 | .active => 2 | .stopping => 3 | .fault => 4
def Shell.deferredBit (x : Shell) : Bool := x.en && x.st = .stopping
def Shell.stat (x : Shell) (mstat : Nat) : Nat :=
  shellStNo x.st + bit x.start 3 + bit x.deferredBit 4 + bit x.err 8 + place mstat 16
def Shell.trimReg (x : Shell) (i : ShellId) : Nat :=
  (x.trim.getD (Config.trimCode i)).toNat + bit x.trimLock 31

/-- A TRIM write under its lock (R15, R623). -/
def Shell.trimWrite (x : Shell) (v : Word32) : Shell :=
  let x := if x.trimLock then x else { x with trim := some (v.extractLsb' 0 24) }
  { x with trimLock := x.trimLock || v.getLsbD 31 }

end Sys2Proof.Machine
end

