-- ==== Sys2Proof/Machine/Border.lean ====
section
/-! DEFINITION. Border channels: partners, joining, user-cycle boundaries, token, level and credit movement
(chapter "Border channels"). -/
namespace Sys2Proof.Machine
open Sys2Proof

/-! ## Geometry and partners (R108 to R110) -/

def bedDie (b : Nat) : Nat := b / 48
def bedRow (b : Nat) : Nat := b % 48 / 8
def bedCol (b : Nat) : Nat := b % 8
def bedNo (d r c : Nat) : Nat := d * 48 + r * 8 + c

/-- The side of a bed that faces the hub: S on CD0 to CD3, N on CD4 to CD7. -/
def hubSide (d : Nat) : Nat := if d < 4 then 2 else 0
def outSide (d : Nat) : Nat := if d < 4 then 0 else 2

/-- The core stream that a bed's channel belongs to (R110): core and stream. -/
def streamOf (b side ch : Nat) : Option (Nat × Stream) :=
  if ch < 56 then none else
  let d := bedDie b
  let r := bedRow b
  let out := ch < 60
  let lower (strip : Nat) : Option (Nat × Stream) :=
    if side = outSide d then some (d * 16 + strip * 8 + bedCol b, if out then .lIn else .lOut) else none
  let upper (strip : Nat) : Option (Nat × Stream) :=
    if side = hubSide d then some (d * 16 + strip * 8 + bedCol b, if out then .uIn else .uOut) else none
  match r with
  | 1 => lower 0 | 2 => upper 0 | 3 => lower 1 | 4 => upper 1 | _ => none

/-- The bed, side and lead channel at the fabric end of a core's stream. -/
def streamBed (c : Nat) (st : Stream) : Nat × Nat × Nat :=
  let d := c / 16
  let strip := c % 16 / 8
  let col := c % 8
  let low := bedNo d (2 * strip + 1) col
  let up := bedNo d (2 * strip + 2) col
  match st with
  | .lIn => (low, outSide d, 56)
  | .lOut => (low, outSide d, 60)
  | .uIn => (up, hubSide d, 56)
  | .uOut => (up, hubSide d, 60)

def mkEnd (b side ch : Nat) : BedEnd := ⟨Fin.ofNat 384 b, Fin.ofNat 4 side, Fin.ofNat 64 ch⟩

def endKey (e : BedEnd) : Nat := e.side.val * 64 + e.ch.val

/-- The partner of a channel end; a hub-facing end's is named by its CH_CFG (R109). -/
def partner (s : Device) (b side ch : Nat) : Option ChanEnd :=
  match streamOf b side ch with
  | some (c, st) => some (.core (Fin.ofNat 128 c) st)
  | none =>
    let d := bedDie b
    let r := bedRow b
    let c := bedCol b
    let north : Option Nat := if d < 4 then (if r < 5 then some (r + 1) else none) else (if 0 < r then some (r - 1) else none)
    let south : Option Nat := if d < 4 then (if 0 < r then some (r - 1) else none) else (if r < 5 then some (r + 1) else none)
    if r = 0 ∧ side = hubSide d then
      let cfg := (chan (bedAt s b) (side * 64 + ch)).cfg
      let pd := chPDie cfg
      some (.bed (mkEnd (bedNo pd 0 (chPCol cfg)) (hubSide pd) (chPCh cfg)))
    else match side with
      | 0 => north.map fun r' => .bed (mkEnd (bedNo d r' c) 2 ch)
      | 2 => south.map fun r' => .bed (mkEnd (bedNo d r' c) 0 ch)
      | 1 => if c < 7 then some (.bed (mkEnd (b + 1) 3 ch))
             else if d = 3 ∨ d = 7 then none else some (.bed (mkEnd (bedNo (d + 1) r 0) 3 ch))
      | _ => if 0 < c then some (.bed (mkEnd (b - 1) 1 ch))
             else if d = 0 ∨ d = 4 then none else some (.bed (mkEnd (bedNo (d - 1) r 7) 1 ch))

/-- The channel crosses dies. -/
def crossDie (s : Device) (b side ch : Nat) : Bool :=
  match partner s b side ch with
  | some (.bed e) => bedDie e.bed.val ≠ bedDie b
  | _ => false

/-! ## Channels on links (R129) -/

/-- The neighbour link east of a die, if the die has one. -/
def eastLink (d : Nat) : Option Nat := if d = 3 ∨ 7 ≤ d then none else some (8 + (if d < 3 then d else d - 1))
def westDie (l : Nat) : Nat := if l - 8 < 3 then l - 8 else l - 7

/-- The link that a channel end faces, the direction that leads away from it, and its link-wide index there. -/
def linkOf (b side ch : Nat) : Option (Nat × Nat × Nat) :=
  if bedRow b = 0 ∧ side = hubSide (bedDie b) then some (bedDie b, 0, bedCol b * 64 + ch)
  else if side = 1 ∧ bedCol b = 7 then (eastLink (bedDie b)).map fun l => (l, 0, bedRow b * 64 + ch)
  else if side = 3 ∧ bedCol b = 0 ∧ bedDie b ≠ 0 then (eastLink (bedDie b - 1)).map fun l => (l, 1, bedRow b * 64 + ch)
  else none

/-- The channel end behind a link-wide index: on a hub link that of its compute die, on a neighbour link the western or the eastern. -/
def endAt (l : Nat) (west : Bool) (w : Nat) : BedEnd :=
  if l < 8 then mkEnd (bedNo l 0 (w / 64)) (hubSide l) (w % 64)
  else if west then mkEnd (bedNo (westDie l) (w / 64) 7) 1 (w % 64)
  else mkEnd (bedNo (westDie l + 1) (w / 64) 0) 3 (w % 64)

/-- The end from which slots of a direction start, none where the hub passes them on; and the end at which they arrive. -/
def sourceEnd (l d w : Nat) : Option BedEnd := if l < 8 then (if d = 0 then some (endAt l true w) else none) else some (endAt l (d = 0) w)
def destEnd (l d w : Nat) : Option BedEnd := if l < 8 then (if d = 1 then some (endAt l true w) else none) else some (endAt l (d = 1) w)

/-- The hub's key of a hub-facing channel, and the end that it names. -/
def hubKey (b ch : Nat) : Nat := bedDie b * 512 + bedCol b * 64 + ch
def keyEnd (k : Nat) : BedEnd := endAt (k / 512) true (k % 512)

/-- The partner under which the hub passes on what a hub-facing channel sends: the end its own fields named at the latest commit, or
the one that named it (R129). DEDUCED (log 129). -/
def hubPartner (s : Device) (k : Nat) : Option Nat :=
  match s.d2d.pairs.get 0 k with
  | v + 1 => some v
  | 0 => (s.d2d.pairs.cells.find? fun e => e.2 = k + 1).map (·.1)

/-- The end at the other side of a channel across dies, as the links know it. -/
def farEnd (s : Device) (b side ch : Nat) : Option BedEnd :=
  match linkOf b side ch with
  | none => none
  | some (l, d, w) => if l < 8 then (hubPartner s (hubKey b ch)).map keyEnd else some (endAt l (d ≠ 0) w)

/-! ## Joining (R117) -/

def BedState.holdsConfig : BedState → Bool
  | .committed | .running | .waiting | .paused | .stopped => true
  | _ => false

def coreIoAt (s : Device) (c : Nat) : CoreIo := s.coreIo.get CoreIo.reset c
def setCoreIo (c : Nat) (x : CoreIo) (s : Device) : Device := { s with coreIo := s.coreIo.set CoreIo.reset c x }

def streamIsIn : Stream → Bool
  | .lIn | .uIn => true
  | _ => false

/-- A pair of channel ends is joined (R117). DESIGN CHOICE (log 32). -/
def joined (s : Device) (b side ch : Nat) : Bool :=
  let me := bedAt s b
  let cfg := (chan me (side * 64 + ch)).cfg
  me.st.holdsConfig && (match partner s b side ch with
    | none => false
    | some (.core c st) =>
      !(coreIoAt s c.val).unusable && bedOwner s b = coreOwner s c.val
        && chKind cfg = (if streamIsIn st then 1 else 2)
    | some (.bed e) =>
      let other := bedAt s e.bed.val
      let ocfg := (chan other (endKey e)).cfg
      other.st.holdsConfig
        && (match chKind cfg with | 1 => chKind ocfg = 2 | 2 => chKind ocfg = 1 | 3 => chKind ocfg = 4 | 4 => chKind ocfg = 3 | _ => false)
        && (bedOwner s b = bedOwner s e.bed.val || (chShared cfg && chShared ocfg))
        && (!(bedRow b = 0 && side = hubSide (bedDie b)) ||
            partner s e.bed.val e.side.val e.ch.val = some (.bed (mkEnd b side ch))))

/-! ## Transfer enables and boundaries (R111 to R113) -/

/-- A member of a stream group that does not lead it (R131). -/
def follower (b side ch : Nat) : Bool := (streamOf b side ch).isSome && ch % 4 ≠ 0

def xfer (cfg : Word32) (bl : List Word16) : Bool :=
  match chGoMode cfg with
  | 1 => true
  | 2 => (bl.getD (chGoLine cfg) 0).getLsbD (chGoBit cfg)
  | _ => false

/-- The payload that a channel's lines carry in the phase in progress (R84). -/
def payload (v : Net → Word16) (side ch : Nat) : Word32 :=
  let j := ch / 4
  let cl := match side with | 0 => 15 * 16 + j | 1 => j * 16 + 15 | 2 => j | _ => j * 16
  let long := 2 ≤ ch % 4
  let line := 2 * (ch % 2)
  let k := (if long then 16 else 0) + side * 4 + line
  (v (.sel cl (k + 1))).setWidth 32 <<< 16 ||| (v (.sel cl k)).setWidth 32

def bedLines (v : Net → Word16) : List Word16 := (List.range 8).map fun i => v (.bline i)

/-- The side of an edge bed that GPIO pins attach to: W on CD0 and CD4, E on CD3 and CD7 (R612). -/
def pinSide (n : Nat) : Option Nat :=
  if bedCol n = 0 ∧ (bedDie n = 0 ∨ bedDie n = 4) then some 3
  else if bedCol n = 7 ∧ (bedDie n = 3 ∨ bedDie n = 7) then some 1
  else none

/-- Values and output enables of the outward length-1 lines 0 and 1 of the edge clusters (R612). -/
def pinLines (n : Nat) (v : Net → Word16) : Word32 × Word32 :=
  match pinSide n with
  | none => (0, 0)
  | some side =>
    let x (i : Nat) : Word16 := v (.sel (if side = 1 then i / 2 * 16 + 15 else i / 2 * 16) (side * 4 + i % 2))
    (BitVec.ofNat 32 (maskOf ((List.range 32).map fun i => (x i).getLsbD 0)),
     BitVec.ofNat 32 (maskOf ((List.range 32).map fun i => (x i).getLsbD 1)))

/-- Begins the boundary that ends the user cycle in progress, from the values of φ(F − 1). -/
def beginBoundary (n : Nat) (b : Bed) (v : Net → Word16) : Boundary :=
  let bl := bedLines v
  let keys := (b.border.chans.cells.map (·.1))
  let cfgOf (k : Nat) : Word32 := (chan b k).cfg
  let stream (k : Nat) : Bool := (streamOf n (k / 64) (k % 64)).isSome
  let live (k : Nat) : Bool := !follower n (k / 64) (k % 64)
  let outs := (keys.filter fun k => chKind (cfgOf k) = 1 && live k && xfer (cfgOf k) bl).map fun k =>
    let one (i : Nat) : BitVec 128 := (payload v (k / 64) (k % 64 + i)).setWidth 128 <<< (32 * i)
    (k, if stream k then one 0 ||| one 1 ||| one 2 ||| one 3 else one 0)
  { outs
    ins := keys.filter fun k => chKind (cfgOf k) = 2 && live k && xfer (cfgOf k) bl
    levels := (keys.filter fun k => chKind (cfgOf k) = 3).map fun k => (k, payload v (k / 64) (k % 64))
    pins := pinLines n v
    waited := none }

/-- Tokens of this channel are discarded at once: SINK toward an end that takes none (R120). -/
def sinks (s : Device) (b k : Nat) : Bool :=
  chSink (chan (bedAt s b) k).cfg && !joined s b (k / 64) (k % 64)

/-- Tokens that the receive FIFO of an end holds: 64 across dies, else 8. -/
def fifoCap (s : Device) (b side ch : Nat) : Nat := if crossDie s b side ch then 64 else 8

/-- Room of the far receive FIFO for the tokens of a sender under HOLD that is not joined to an end in service: the FIFO would take
them (R120), yet that end takes none of them (R117), so they wait with the sender. -/
def farRoom (s : Device) (b k : Nat) : Nat :=
  if joined s b (k / 64) (k % 64) then 0
  else match partner s b (k / 64) (k % 64) with
    | some (.bed e) => if (bedAt s e.bed.val).st.holdsConfig then fifoCap s b (k / 64) (k % 64) - (chan (bedAt s e.bed.val) (endKey e)).fifo.length else 0
    | some (.core c st) => 8 - (match st with | .lIn => (coreIoAt s c.val).lIn.length | _ => (coreIoAt s c.val).uIn.length)
    | none => 0

/-- A channel can capture a token: a free transmit-buffer entry, and across dies a credit as well (R112). -/
def outReady (s : Device) (b k : Nat) : Bool :=
  let c := chan (bedAt s b) k
  sinks s b k || (decide (c.tx.length < 2 + farRoom s b k) && (!crossDie s b (k / 64) (k % 64) || decide (0 < c.credits)))

def inReady (s : Device) (b k : Nat) : Bool := !(chan (bedAt s b) k).fifo.isEmpty

/-- The first unmet channel in side order N, E, S, W and ascending index: side, channel, kind. -/
def firstUnmet (s : Device) (b : Nat) (bd : Boundary) : Option (Nat × Nat × Bool) :=
  let un := ((bd.outs.map (·.1)).filter fun k => !outReady s b k).map (fun k => (k, false))
    ++ (bd.ins.filter fun k => !inReady s b k).map (fun k => (k, true))
  (un.foldl (fun (m : Option (Nat × Bool)) x => match m with
    | none => some x
    | some y => if x.1 < y.1 then some x else m) none).map fun x => (x.1 / 64, x.1 % 64, x.2)

def addSunk (side n : Nat) (b : Bed) : Bed :=
  { b with border := { b.border with sunk := b.border.sunk.modify side fun v => satAdd 32 v n } }

def endInService (s : Device) : ChanEnd → Bool
  | .bed e => (bedAt s e.bed.val).st.holdsConfig
  | .core c _ => !(coreIoAt s c.val).unusable

/-- The end that a token is captured for: none while the partner is in service and not joined (R117, R119). -/
def captureDest (s : Device) (n k : Nat) : Option ChanEnd :=
  (partner s n (k / 64) (k % 64)).filter fun e => joined s n (k / 64) (k % 64) || !endInService s e

def captureOut (n : Nat) (s : Device) (x : Nat × BitVec 128) : Device :=
  let k := x.1
  if sinks s n k then modBed n (addSunk (k / 64) 1) s
  else
    let t : Token := { val := x.2, dest := captureDest s n k }
    let used := if crossDie s n (k / 64) (k % 64) then 1 else 0
    modBed n (modChan k fun c => { c with tx := c.tx ++ [t], credits := c.credits - used }) s

/-- Tokens left the receive FIFO of an end: across dies their credits start back to the sender (R127). -/
def returnCredit (s : Device) (b k n : Nat) : Device :=
  match farEnd s b (k / 64) (k % 64) with
  | some e => modBed e.bed.val (modChan (endKey e) fun c => { c with credBack := c.credBack + n }) s
  | none => s

def takeIn (n : Nat) (s : Device) (k : Nat) : Device :=
  let c := chan (bedAt s n) k
  match c.fifo with
  | [] => s
  | v :: rest =>
    let s := modBed n (setChan k { c with fifo := rest, arrive := v.setWidth 32 }) s
    let s := if (streamOf n (k / 64) (k % 64)).isSome then
        [1, 2, 3].foldl (fun s i => modBed n (modChan (k + i) fun c => { c with arrive := v.extractLsb' (32 * i) 32 }) s) s
      else s
    returnCredit s n k 1

def levelOut (n : Nat) (first : Bool) (s : Device) (x : Nat × Word32) : Device :=
  let c := chan (bedAt s n) x.1
  if first || c.level ≠ x.2 then
    modBed n (setChan x.1 { c with level := x.2, levels := c.levels ++ [(x.2, partner s n (x.1 / 64) (x.1 % 64))] }) s
  else s

/-- What an incoming level channel shows: FALLOW_VAL while its sender gives no value (R107, R121). -/
def levelShown (s : Device) (n k : Nat) : Word32 :=
  let c := chan (bedAt s n) k
  if joined s n (k / 64) (k % 64) && c.rxLive then c.rxLevel.getD 0
  else match chFallow c.cfg with
    | 1 => 0xFFFFFFFF
    | 2 => c.rxLevel.getD 0
    | _ => 0

def loadLevels (n : Nat) (s : Device) : Device :=
  let keys := ((bedAt s n).border.chans.cells.map (·.1)).filter fun k => chKind (chan (bedAt s n) k).cfg = 4
  keys.foldl (fun s k => modBed n (modChan k fun c => { c with arrive := levelShown s n k }) s) s

/-! ## GPIO pins (R612, R613) -/

def gpioId (g : Nat) : ShellId := .gpio (Fin.ofNat 16 g)
def pinCfg (s : Device) (g p : Nat) : Word32 := s.gpio.get 0 (g * 48 + p)

/-- First bank of a die's GPIO, in the order CD0, CD3, CD4, CD7 (R608). -/
def dieBanks : Nat → Option Nat
  | 0 => some 0 | 3 => some 4 | 4 => some 8 | 7 => some 12 | _ => none

/-- Bank and bank pin of pin `i` (cluster row * 2 + line) of an edge bed. -/
def pinOfBed (n i : Nat) : Nat × Nat :=
  let k := bedRow n * 32 + i
  ((dieBanks (bedDie n)).getD 0 + k / 48, k % 48)

inductive PinState where
  | hiz | drive (v : Bool)
  deriving DecidableEq, Repr

/-- What the device puts on a pin (R613, R614, R541). -/
def pinState (s : Device) (n i : Nat) : PinState :=
  let b := bedAt s n
  let (g, p) := pinOfBed n i
  let c := pinCfg s g p
  let held : PinState := if b.pinEn.getLsbD i then .drive (b.pinOut.getLsbD i) else .hiz
  let safe : PinState := match (c.extractLsb' 7 2).toNat with
    | 0 => .hiz | 1 => .drive false | 2 => .drive true | _ => held
  if (shellAt s (gpioId g)).st ≠ .active ∨ !c.getLsbD 0 then .hiz
  else match s.flt.dieSafe.getD (bedDie n) .none with
  | .c4 => .hiz
  | .c3 => if s.flt.fsafe = .c4 then .hiz else safe
  | .none => match s.mgmt.dev with
    | .start | .ready => .hiz
    | .fatal => if s.flt.fsafe = .c4 then .hiz else safe
    | _ => if b.st.holdsConfig && b.st ≠ .committed then held else safe

/-- The pins as the synchroniser presents them for a user cycle: what the device drives, or the board's level (a free
value); 0 while the bank is not ACTIVE (R612). DESIGN CHOICE (log 34). -/
def samplePins (n : Nat) (s : Device) : Device :=
  match pinSide n with
  | none => s
  | some side =>
    let (board, s) := freeNat s
    let w : Word32 := BitVec.ofNat 32 (maskOf ((List.range 32).map fun i =>
      if (shellAt s (gpioId (pinOfBed n i).1)).st ≠ .active then false
      else match pinState s n i with
        | .drive v => v
        | .hiz => bitAt board i))
    modBed n (fun b => if side = 1 then { b with pinE := w } else { b with pinW := w }) s

/-- A bed that was held begins to be clocked: its first micro-cycle has its whole period before it (R96, R106). -/
def restart (b : Bed) : Bed :=
  { b with st := .running, clock := if b.st = .running then b.clock else { b.clock with acc := 0 } }

/-- Completes a boundary in one instant (R113) and begins φ0 of the next user cycle. -/
def completeBoundary (n : Nat) (bd : Boundary) (s : Device) : Device :=
  let first := (bedAt s n).cycle = 0
  let s := bd.outs.foldl (captureOut n) s
  let s := bd.ins.foldl (takeIn n) s
  let s := bd.levels.foldl (levelOut n first) s
  let s := loadLevels n s
  samplePins n (modBed n (fun b => startCycle { restart b with
    cycle := b.cycle + 1, border := { b.border with bound := none }, pinOut := bd.pins.1, pinEn := bd.pins.2 }) s)

/-- A boundary that cannot complete makes the bed WAIT (R112, BORDER_STATUS). DESIGN CHOICE (log 155). -/
def startWait (n : Nat) (u : Nat × Nat × Bool) (bd : Boundary) (s : Device) : Device :=
  modBed n (fun b => { b with st := .waiting, border := match bd.waited with
    | some t => { b.border with waitStart := devNs s - t }
    | none => { b.border with
      waitStart := devNs s, alarmed := false, blk := some u, bound := some { bd with waited := some 0 }
      waitCount := BitVec.ofNat 32 (satAdd 32 b.border.waitCount.toNat 1) } }) s

/-- A WAITING bed leaves its wait without having completed the boundary, for PAUSED or STOPPED. -/
def leaveWait (n : Nat) (into : BedState) (s : Device) : Device :=
  modBed n (fun b => { b with st := into, border := { b.border with
    bound := b.border.bound.map fun bd => { bd with waited := some (devNs s - b.border.waitStart) } } }) s

/-- Completes the boundary at which the bed is held, or begins to wait (R112). -/
def resumeBoundary (n : Nat) (s : Device) : Device :=
  match (bedAt s n).border.bound with
  | none => samplePins n (modBed n (fun b => startCycle (restart b)) s)
  | some bd => match firstUnmet s n bd with
    | none => completeBoundary n bd s
    | some u => if (bedAt s n).st = .waiting then s else startWait n u bd s

/-- A WAITING bed whose boundary has become possible completes it. -/
def tryComplete (n : Nat) (s : Device) : Device :=
  if (bedAt s n).st = .waiting then
    match (bedAt s n).border.bound with
    | some bd => if (firstUnmet s n bd).isNone then completeBoundary n bd s else s
    | none => s
  else s

/-! ## Leaving service (R119) -/

def discardFor (n : Nat) (s : Device) (k : Nat) : Device :=
  let c := chan (bedAt s n) k
  if chKind c.cfg = 2 ∧ joined s n (k / 64) (k % 64) then
    match partner s n (k / 64) (k % 64) with
    | some (.bed e) =>
      if chSink (chan (bedAt s e.bed.val) (endKey e)).cfg then
        let m := c.fifo.length
        returnCredit (modBed e.bed.val (addSunk e.side.val m) (modBed n (setChan k { c with fifo := [] }) s)) n k m
      else s
    | _ => s
  else s

/-- A level update that no receiver takes any more. -/
def voidLevels (c : ChanSt) : ChanSt := { c with levels := [], lvlFly := c.lvlFly.map fun x => (x.1, none) }

/-- The level values of a bed stop being live at the partners of its channels, those on their way with them (R107, R121). -/
def dropLevels (n : Nat) (s : Device) : Device :=
  ((bedAt s n).border.chans.cells.map (·.1)).foldl (fun s k =>
    if chKind (chan (bedAt s n) k).cfg = 3 then
      let s := modBed n (modChan k voidLevels) s
      match partner s n (k / 64) (k % 64) with
      | some (.bed e) => modBed e.bed.val (modChan (endKey e) fun c => { c with rxLive := false }) s
      | _ => s
    else s) s

/-- Pending boundaries of senders may complete when a receiver changes state. -/
def wakePartners (n : Nat) (s : Device) : Device :=
  ((bedAt s n).border.chans.cells.map (·.1)).foldl (fun s k =>
    match partner s n (k / 64) (k % 64) with
    | some (.bed e) => tryComplete e.bed.val s
    | _ => s) s

/-- The border when a bed leaves service for FALLOW or CUT (R119). -/
def leaveBorder (n : Nat) (into : BedState) (s : Device) : Device :=
  let keys := (bedAt s n).border.chans.cells.map (·.1)
  let s := keys.foldl (discardFor n) s
  let s := modBed n (fun b => { b with st := into, border := { b.border with bound := none } }) s
  wakePartners n (dropLevels n s)

/-! ## Arrivals -/

/-- A token reaches the receiving end: written to its FIFO, or discarded under SINK; `none` under
back-pressure (R107, R120). -/
def deliverTo (s : Device) (srcBed srcKey : Nat) (t : Token) : Option Device :=
  let scfg := (chan (bedAt s srcBed) srcKey).cfg
  let apart := (bedAt s srcBed).st.holdsConfig && !joined s srcBed (srcKey / 64) (srcKey % 64)
  match (if t.dest.isNone && (bedAt s srcBed).st.holdsConfig then partner s srcBed (srcKey / 64) (srcKey % 64) else t.dest) with
  | none => none
  | some (.core c st) =>
    let io := coreIoAt s c.val
    if apart then (if chSink scfg then some (modBed srcBed (addSunk (srcKey / 64) 1) s) else none)
    else match st with
    | .lIn => if io.lIn.length < 8 then some (setCoreIo c.val { io with lIn := io.lIn ++ [t.val] } s) else none
    | .uIn => if io.uIn.length < 8 then some (setCoreIo c.val { io with uIn := io.uIn ++ [t.val] } s) else none
    | _ => none
  | some (.bed e) =>
    let rb := bedAt s e.bed.val
    let c := chan rb (endKey e)
    if chSink scfg && (!rb.st.holdsConfig || apart) then
      let s := modBed srcBed (addSunk (srcKey / 64) 1) s
      some (returnCredit s e.bed.val (endKey e) 1)
    else if apart && rb.st.holdsConfig then none
    else if c.fifo.length < fifoCap s e.bed.val e.side.val e.ch.val then
      some (tryComplete e.bed.val (setBed e.bed.val (setChan (endKey e) { c with fifo := c.fifo ++ [t.val] } rb) s))
    else none

/-- A level value reaches the end it was sent to: the two are still partners and joined (R113, R117). -/
def levelTaken (s : Device) (src : BedEnd) (dest : Option ChanEnd) : Option BedEnd :=
  match dest with
  | some (.bed d) =>
    if joined s d.bed.val d.side.val d.ch.val && partner s d.bed.val d.side.val d.ch.val = some (.bed src) then some d else none
  | _ => none

/-- A level value is received in full; it is live once its sender has completed a boundary since its commit (R113, R121). -/
def receiveLevel (src d : BedEnd) (v : Word32) (s : Device) : Device :=
  modBed d.bed.val (modChan (endKey d) fun r =>
    { r with rxLevel := some v, rxLive := (bedAt s src.bed.val).st.holdsConfig && decide ((bedAt s src.bed.val).st ≠ .committed) }) s

/-! ## BORDER_STATUS and the wait alarm (R123) -/

def borderStatus (b : Bed) : Nat :=
  bit (b.st = .waiting) 0 + bit b.border.alarm 1 + (match b.border.blk with
    | some (sd, ch, kd) => place sd 2 + place ch 4 + bit kd 10 + 2 ^ 11
    | none => 0)

def waitAlarm (n : Nat) (s : Device) : Device :=
  let b := bedAt s n
  if b.st = .waiting ∧ b.border.waitLimit ≠ 0 ∧ b.border.alarmed = false
      ∧ b.border.waitStart + b.border.waitLimit.toNat * 1000 < devNs s then
    let s := modBed n (fun b => { b with border := { b.border with alarm := true, alarmed := true } }) s
    occur 0x0D n 0 (raise (bedSource n) 0 0x07 (borderStatus (bedAt s n)) s)
  else s

end Sys2Proof.Machine
end

