-- ==== Sys2Proof/Machine/MgmtCore.lean ====
section
/-! DEFINITION. Judging and answering management commands (chapter "Management commands"): the packet checks,
sessions, replay windows, device-state limits, holds, replies, and the form in which each opcode is given. -/
namespace Sys2Proof.Machine
open Sys2Proof

/-- Status codes (R438). -/
def stOk : Nat := 0x0000
def stDeferred : Nat := 0x0001
def stBadOpcode : Nat := 0x0100
def stBadParam : Nat := 0x0101
def stNotAuth : Nat := 0x0102
def stBusy : Nat := 0x0103
def stReplay : Nat := 0x0104
def stAlmFull : Nat := 0x0105
def stStreamShort : Nat := 0x0200
def stWrongDevice : Nat := 0x0201
def stAuthFail : Nat := 0x0202
def stCapability : Nat := 0x0203
def stDriver : Nat := 0x0205
def stNoStaging : Nat := 0x0206
def stKeyBusy : Nat := 0x0300
def stTooLarge : Nat := 0x0301
def stPoisoned : Nat := 0x0302
def stBist : Nat := 0x0400
def stRepairFull : Nat := 0x0401
def stTimeout : Nat := 0x0500

/-- A command as its defining chapter sees it. -/
structure Ctx where
  inst : Inst
  op   : Nat
  pkt  : Packet
  deriving DecidableEq, Repr

def Ctx.plot (c : Ctx) : Nat := c.pkt.plot.toNat % 16
def Ctx.pl (c : Ctx) : List Byte := c.pkt.payload

def isFabric : Inst → Bool
  | .fabric _ => true
  | _ => false

/-- Origin code of a transport (R423, R511). -/
def instOrigin : Inst → Nat
  | .mailbox _ => 1 | .doe _ => 2 | .serial => 3 | .parallel => 4 | .jtag => 5 | .fabric _ => 6

/-- What a command's effect answers: the new state and the reply's status and payload, or no reply yet. -/
structure CmdOut where
  st    : Device
  reply : Option (Nat × List Byte)

/-- An opcode: the payload lengths it allows, whether it needs a session, the device states that accept it,
its refusals in order (status of the first that applies), the objects it needs, the almanac records it opens
at acceptance, and its effect. -/
structure OpSpec where
  code     : Nat
  plenOk   : Nat → Bool
  session  : Bool
  early    : Bool
  late     : DevState → Bool
  refusal  : Ctx → Device → Option Nat
  records  : Ctx → Device → Nat
  run      : Ctx → Device → CmdOut

/-- R437: READY and USER accept every opcode; START those marked `early`; SHUTDOWN and FATAL those and `late`. -/
def OpSpec.accepts (o : OpSpec) : DevState → Bool
  | .start => o.early
  | .ready | .user => true
  | d => o.early || o.late d

def never : DevState → Bool := fun _ => false

/-! ## Sessions and windows -/

def findSession (s : Device) (id : Word32) : Option (Nat × Session) :=
  (s.mgmt.sessions.zipIdx.findSome? fun (x, i) => match x with
    | some ses => if ses.id = id then some (i, ses) else none
    | none => none)

/-- The session that a command names is valid for it (R426). -/
def sessionFor (c : Ctx) (s : Device) : Option (Nat × Session) :=
  match findSession s c.pkt.session with
  | some (i, ses) => if !ses.opening && ses.inst = c.inst && ses.plot.val = c.plot && c.pkt.session ≠ 0 then some (i, ses) else none
  | none => none

/-- Request and response keys and the session wrap key (R426, R484). -/
def reqKey (ses : Session) : List Byte := Config.hkdfExpand ses.secret (asciiBytes "kv cmd req") 32
def rspKey (ses : Session) : List Byte := Config.hkdfExpand ses.secret (asciiBytes "kv cmd rsp") 32
def wrapKey (ses : Session) : List Byte := Config.hkdfExpand ses.secret (asciiBytes "kv cmd wrap") 32

/-- Transports whose commands carry a MAC when they need a session (R422). DEDUCED (log 87). -/
def macTransport : Inst → Bool
  | .mailbox _ | .serial | .parallel | .jtag => true
  | _ => false

/-- Header bytes 0 to 15 (R420). -/
def headerBytes (op : Nat) (p : Packet) : List Byte :=
  leBytes 2 op ++ leBytes 2 p.flags.toNat ++ leBytes 4 p.seq.toNat ++ leBytes 1 p.plot.toNat
    ++ leBytes 1 p.rsvd.toNat ++ leBytes 2 p.plen.toNat ++ leBytes 4 p.session.toNat

def macOk (c : Ctx) (ses : Session) : Bool :=
  Config.cmac (reqKey ses) (headerBytes c.op c.pkt ++ c.pkt.payload) = c.pkt.mac

/-- The distance of R428. -/
def SeqWin.dist (w : SeqWin) (seq : Word32) : Nat := (w.high - seq).toNat

def SeqWin.fresh (w : SeqWin) (seq : Word32) : Bool :=
  let d := w.dist seq
  2 ^ 31 ≤ d || (1 ≤ d && d ≤ 63 && !w.accepted.getLsbD d)

/-- Consumes an accepted SEQ (R428). -/
def SeqWin.accept (w : SeqWin) (seq : Word32) : SeqWin :=
  let d := w.dist seq
  if 2 ^ 31 ≤ d then
    { w with high := seq, accepted := (w.accepted <<< min 64 (seq - w.high).toNat) ||| 1 }
  else { w with accepted := w.accepted ||| (1#64 <<< min 64 d) }

/-- Keeps the status of a consumed SEQ while the window reaches it (R429). -/
def SeqWin.setStatus (w : SeqWin) (seq : Word32) (st : Nat) : SeqWin :=
  { w with statuses := (w.statuses.filter fun e => e.1 ≠ seq && decide (w.dist e.1 ≤ 63)) ++ [(seq, BitVec.ofNat 16 st)] }

/-- The payload of a REPLAY reply (R429). -/
def SeqWin.replayPayload (w : SeqWin) (seq : Word32) : List Byte :=
  let d := w.dist seq
  if d ≤ 63 ∧ w.accepted.getLsbD d then
    match w.statuses.find? (·.1 = seq) with
    | some e => leBytes 2 e.2.toNat
    | none => []
  else []

/-- The window that judges a command: the fabric port's, or the named session's. -/
def windowOf (o : OpSpec) (c : Ctx) (s : Device) : Option SeqWin :=
  match c.inst with
  | .fabric p => s.mgmt.ports[p.val]?
  | _ => if o.session then (sessionFor c s).map (·.2.win) else none

def mapWindow (session : Bool) (c : Ctx) (f : SeqWin → SeqWin) (s : Device) : Device :=
  match c.inst with
  | .fabric p => { s with mgmt := { s.mgmt with ports := s.mgmt.ports.modify p.val f } }
  | _ =>
    if session then
      match findSession s c.pkt.session with
      | some (i, _) => { s with mgmt := { s.mgmt with sessions := s.mgmt.sessions.modify i (Option.map fun x => { x with win := f x.win }) } }
      | none => s
    else s

/-! ## Replies -/

def mkReply (session : Bool) (c : Ctx) (status : Nat) (rflags : Nat) (payload : List Byte) (s : Device) : Reply :=
  let hdr := leBytes 2 c.op ++ leBytes 2 status ++ leBytes 4 c.pkt.seq.toNat ++ leBytes 1 c.pkt.plot.toNat
    ++ leBytes 1 rflags ++ leBytes 2 payload.length ++ leBytes 4 c.pkt.session.toNat
  let mac := if session && macTransport c.inst then
      match sessionFor c s with
      | some (_, ses) => Config.cmac (rspKey ses) (hdr ++ payload)
      | none => List.replicate 16 0
    else List.replicate 16 0
  { opcode := BitVec.ofNat 16 c.op, status := BitVec.ofNat 16 status, seq := c.pkt.seq, plot := c.pkt.plot,
    rflags := BitVec.ofNat 8 rflags, session := c.pkt.session, mac, payload }

/-- The 32 header bytes and the payload of a reply (R421). -/
def Reply.bytes (r : Reply) : List Byte :=
  leBytes 2 r.opcode.toNat ++ leBytes 2 r.status.toNat ++ leBytes 4 r.seq.toNat ++ leBytes 1 r.plot.toNat
    ++ leBytes 1 r.rflags.toNat ++ leBytes 2 r.payload.length ++ leBytes 4 r.session.toNat ++ r.mac ++ r.payload

/-- The reply is held on its transport (R436); a newer one replaces it. On a mailbox, vector 0 signals it (R416). -/
def holdReply (inst : Inst) (r : Reply) (s : Device) : Device :=
  let s := match inst with | .mailbox n => raiseMsix n.val 0 s | _ => s
  { s with mgmt := { s.mgmt with replies := (s.mgmt.replies.filter (·.1 ≠ inst)) ++ [(inst, r)] } }

def dropReply (inst : Inst) (s : Device) : Device :=
  { s with mgmt := { s.mgmt with replies := s.mgmt.replies.filter (·.1 ≠ inst) } }

/-- Answers a command and notes its status for R429. -/
def answerCmd (session : Bool) (c : Ctx) (status rflags : Nat) (payload : List Byte) (s : Device) : Device :=
  let r := mkReply session c status rflags payload s
  holdReply c.inst r (mapWindow session c (fun w => w.setStatus c.pkt.seq status) s)

/-! ## Holds and progress (R432) -/

/-- A command of another instance, or a BIST or golden load, holds one of these objects (R432). -/
def heldByOther (c : Ctx) (objs : List Obj) (s : Device) : Bool :=
  objs.any s.mgmt.held.contains || s.mgmt.progress.any fun p => p.inst ≠ c.inst && p.holds.any fun o => o = .device || objs.contains o

def anyHeld (c : Ctx) (s : Device) : Bool :=
  !s.mgmt.held.isEmpty || s.mgmt.progress.any fun p => p.inst ≠ c.inst && !p.holds.isEmpty

/-- Objects come to be held, or are let go, apart from any command in progress. -/
def holdObjs (objs : List Obj) (s : Device) : Device := { s with mgmt := { s.mgmt with held := s.mgmt.held ++ objs } }
def dropObjs (objs : List Obj) (s : Device) : Device :=
  { s with mgmt := { s.mgmt with held := s.mgmt.held.filter fun o => !objs.contains o } }

def inProgress (inst : Inst) (s : Device) : Option Progress := s.mgmt.progress.find? (·.inst = inst)

/-- The command stays in progress, holding its objects; its reply comes later. -/
def defer (c : Ctx) (holds : List Obj) (s : Device) : Device :=
  { s with mgmt := { s.mgmt with progress := s.mgmt.progress ++
      [{ inst := c.inst, opcode := BitVec.ofNat 16 c.op, pkt := c.pkt, holds, mute := false }] } }

def progressOf (op : Nat) (s : Device) : Option Progress := s.mgmt.progress.find? (·.opcode.toNat = op)

def Progress.ctx (p : Progress) : Ctx := { inst := p.inst, op := p.opcode.toNat, pkt := p.pkt }

/-- Ends a command in progress with its reply. Every deferred command needs a session. -/
def finish (p : Progress) (status : Nat) (payload : List Byte) (s : Device) : Device :=
  let s := { s with mgmt := { s.mgmt with progress := s.mgmt.progress.filter (·.inst ≠ p.inst) } }
  if p.mute then mapWindow true p.ctx (fun w => w.setStatus p.pkt.seq status) s
  else answerCmd true p.ctx status 0 payload s

/-! ## Records of commands (R435, R510, R514) -/

def principalOf (c : Ctx) : Nat := c.plot + (c.pkt.session.toNat % 2 ^ 16) * 2 ^ 16

def cmdRecS (c : Ctx) (cls id status before after : Nat) (s : Device) : Device :=
  almMake { origin := instOrigin c.inst, principal := principalOf c, objClass := cls, objId := id, action := c.op,
            status, before, after } (objPlot s cls id) s

def cmdRec (c : Ctx) (cls id before after : Nat) (s : Device) : Device := cmdRecS c cls id 0 before after s

/-- A record of a command whose object has a state: BEFORE and AFTER are digests of it (R510). -/
def cmdRecObj (c : Ctx) (cls id : Nat) (s : Device) : Device :=
  let (b, s) := freshDigest s
  let (a, s) := freshDigest s
  cmdRec c cls id b a s

/-- A record of a command with no such state: BEFORE 0, AFTER digests the payload (R510). -/
def cmdRecPayload (c : Ctx) (cls id : Nat) (s : Device) : Device :=
  cmdRec c cls id 0 (first8 (Config.sha384 c.pl)) s

/-- A completion record: origin SELF, the command's opcode (R514). -/
def doneRec (op cls id before after : Nat) (s : Device) : Device := selfRec cls id op 0 before after s

/-! ## Judging (R430, R431) -/

/-- Step 1: reserved fields, SEQ, and lengths. -/
def badHeader (o : OpSpec) (p : Packet) : Bool :=
  decide (2 ≤ p.flags.toNat) || decide (16 ≤ p.plot.toNat) || p.rsvd ≠ 0 || p.seq = 0
    || decide (4096 < p.plen.toNat) || decide (p.plen.toNat ≠ p.payload.length) || !o.plenOk p.plen.toNat

/-- Opcodes that a plot under ZEROISE_PLOT may still issue (R505). -/
def afterZeroise (op : Nat) : Bool := op = 0x0102 || op = 0x0303 || op = 0x0901 || op = 0x0302

/-- The logical device carries traffic: its plot exists and the fabric manager has bound it (R406, R414). -/
def ldLive (s : Device) (n : Nat) : Bool := plotExists s n && s.cxl.bound.getLsbD n

/-- IDENTIFY is never refused after step 1 (R440). -/
def alwaysTaken (op : Nat) : Bool := op = 0x0101

/-- Step 5, with R406, R436 and R505. -/
def plotBarred (c : Ctx) (s : Device) : Bool :=
  let p := plotSt s c.plot
  !p.present || (match c.inst with | .mailbox n => !ldLive s n.val | _ => false) || p.dying || (p.zeroised && !afterZeroise c.op)
    || (match c.inst with | .fabric q => decide (q.val ≠ c.plot) | _ => false)

def authNote (c : Ctx) (s : Device) : Device :=
  occur 0x0F 0 0 (raise (.hub 1) 0 0x1A (instOrigin c.inst) s)

/-- Judges and performs one command on an instance that is free to take it. One whose fetch must wait is judged again later. -/
def judge (o : OpSpec) (c : Ctx) (s : Device) : Device :=
  let refuse (st : Nat) (s : Device) : Device :=
    holdReply c.inst (mkReply o.session c st (c.pkt.flags.toNat % 2) [] s) s
  if badHeader o c.pkt then refuse stBadParam s
  else if o.session && !isFabric c.inst && (sessionFor c s).isNone then refuse stNotAuth s
  else if o.session && macTransport c.inst && !((sessionFor c s).any fun x => macOk c x.2) then
    refuse stAuthFail (authNote c { s with mgmt := { s.mgmt with authFail := BitVec.ofNat 16 (satAdd 16 s.mgmt.authFail.toNat 1) } })
  else
    match (windowOf o c s).filter (fun w => !w.fresh c.pkt.seq && !alwaysTaken o.code) with
    | some w =>
      let s := authNote c { s with mgmt := { s.mgmt with replay := BitVec.ofNat 8 (satAdd 8 s.mgmt.replay.toNat 1) } }
      holdReply c.inst (mkReply o.session c stReplay (c.pkt.flags.toNat % 2) (w.replayPayload c.pkt.seq) s) s
    | none =>
      if plotBarred c s && !alwaysTaken o.code then refuse stNotAuth s
      else
        let s := mapWindow o.session c (fun w => w.accept c.pkt.seq) s
        let no (st : Nat) : Device := answerCmd o.session c st (c.pkt.flags.toNat % 2) [] s
        if !o.accepts s.mgmt.dev then no stBusy
        else match o.refusal c s with
          | some st => no st
          | none =>
            if !almRoom (o.records c s) s then no stAlmFull
            else
              let out := o.run c s
              if c.pkt.flags.getLsbD 0 then
                if out.st.trl.stuck then out.st else no ((out.reply.map (·.1)).getD stOk)
              else match out.reply with
                | some (st, payload) => answerCmd o.session c st 0 payload out.st
                | none => out.st

/-- The instance can take no packet: no transport answers, or it has a command in progress. -/
def instBusy (inst : Inst) (s : Device) : Bool :=
  !s.mgmt.up || (inProgress inst s).isSome || s.mgmt.parked.any (·.1 = inst)

/-- The command pair is halted (R593). -/
def cmdHalted (s : Device) : Bool := s.dbg.mgmtCtl.getLsbD 0

/-- A packet waits until the command pair runs again. DEDUCED (log 88). -/
def park (inst : Inst) (op : Nat) (pkt : Packet) (s : Device) : Device :=
  { s with mgmt := { s.mgmt with parked := s.mgmt.parked ++ [(inst, op, pkt)] } }

/-- A command packet arrives on an instance (R423, R436, R437): it is taken if the command pair runs and
the instance has no command in progress; its header discards a reply still held. -/
def mgmtRun (o : OpSpec) (inst : Inst) (pkt : Packet) (s : Device) : Device :=
  if instBusy inst s then s
  else if cmdHalted s then park inst o.code pkt (dropReply inst s)
  else judge o { inst, op := o.code, pkt } (dropReply inst s)

/-- An opcode that is not in the reference: BAD_OPCODE (R430 step 1). -/
def mgmtUnknown (op : Nat) (inst : Inst) (pkt : Packet) (s : Device) : Device :=
  if instBusy inst s then s
  else if cmdHalted s then park inst op pkt (dropReply inst s)
  else holdReply inst (mkReply false { inst, op, pkt } stBadOpcode (pkt.flags.toNat % 2) [] s) s

end Sys2Proof.Machine
end

