-- ==== Sys2Proof/Machine/Rake.lean ====
section
/-! DEFINITION. The rake: one access slot, the end of a pass and its summary record (R152 to R157). -/
namespace Sys2Proof.Machine
open Sys2Proof

def opRakeCode : Nat := 0x0402

/-- A class-0 array can be raked only while its bed is clocked or held with its generator ACTIVE (R153). -/
def rakeable (s : Device) (cls idx : Nat) : Bool :=
  cls ≠ 0 || (match (bedAt s (idx / 48)).st with | .running | .waiting | .paused => true | _ => false)

/-- The plot that owns the object of an array of classes 0 to 2. -/
def arrayOwner (s : Device) (cls idx : Nat) : Nat :=
  if cls = 0 then bedOwner s (idx / 48) else coreOwner s idx

/-- CHECK = 0: the code of this memory is not kept (R136, R157). -/
def noCheck (s : Device) (cls idx : Nat) : Bool :=
  cls = 0 && !((bedAt s (idx / 48)).cfg.bms.get BmCfg.reset (idx % 48)).check

/-- One byte of a word in the rake's slot (R155): classified as it stood in `old`, counted, and written back when CORRECTED in REPAIR
mode, unless port A writes it in the same micro-cycle. -/
def rakeByte (old : Coded) (skip : Nat → Bool) (c : Coded × Rake) (a : Nat) : Coded × Rake :=
  let (arr, r) := c
  let b := old.read a
  let r := { r with
    corr := if b.cls.corrected then satAdd 32 r.corr 1 else r.corr
    unc := if b.cls = .uncorrectable then satAdd 32 r.unc 1 else r.unc
    addr := if b.cls = .address then satAdd 32 r.addr 1 else r.addr
    firstCorr := if b.cls.corrected then some (r.firstCorr.getD (a, b.syn.toNat)) else r.firstCorr
    firstBad := if b.cls.bad then some (r.firstBad.getD (a, b.syn.toNat)) else r.firstBad }
  if r.repairMode && b.cls.corrected && !skip a then (arr.write a b.data, { r with repaired := satAdd 32 r.repaired 1 }) else (arr, r)

/-- The rake examines the next word of its range in a slot at device time `now`; `c` holds the array after the other accesses of the
slot, `old` before them. DEDUCED (log 33). -/
def rakeWord (now : Nat) (old : Coded) (skip : Nat → Bool) (c : Coded × Rake) : Coded × Rake :=
  let w := arrayWord c.2.cls
  if c.2.done < c.2.len then
    let base := c.2.start + c.2.done
    let (arr, r) := (List.range w).foldl (fun c i => rakeByte old skip c (base + i)) c
    (arr, { r with done := r.done + w, words := satAdd 32 r.words 1, slotAt := now })
  else c

/-- Words one after the other, in slots in which nothing else reaches the array. -/
def rakeWords (now : Nat) : Nat → Coded × Rake → Coded × Rake
  | 0, c => c
  | n + 1, c => rakeWords now n (rakeWord now c.1 (fun _ => false) c)

def findRake (s : Device) (cls idx : Nat) : Option Rake := s.rakes.find? fun r => r.cls = cls && r.index = idx

def putRake (r : Rake) (s : Device) : Device :=
  { s with rakes := s.rakes.map fun x => if x.cls = r.cls && x.index = r.index then r else x }

/-- The next `n` words of a pass, each in a slot of its own. -/
def rakeSlots (n cls idx : Nat) (s : Device) : Device :=
  match findRake s cls idx with
  | some r =>
    if noCheck s cls idx || !rakeable s cls idx then s
    else
      let (a, r) := rakeWords (devNs s) n (arrayAt s cls idx, r)
      putRake r (setArray cls idx a s)
  | none => s

/-- The slots of one micro-cycle of a clocked bed (R154, R155): a memory whose port B makes no access gives its rake one; `old` is the
device before the micro-cycle, `accs` the accesses that the ports of the bed make in it. -/
def rakeCycle (n : Nat) (old : Device) (accs : List (Nat × Option PortAcc × Option PortAcc)) (s : Device) : Device :=
  (s.rakes.filter fun (r : Rake) => r.cls = 0 && r.index / 48 = n && !noCheck s 0 r.index).foldl (fun s r =>
    let acc := accs.find? fun x => x.1 = r.index % 48
    if (acc.bind (·.2.2)).isSome then s
    else
      let skip (a : Nat) : Bool := (acc.bind (·.2.1)).any fun p => (List.range p.nbytes).any fun j => p.writes j && p.byte0 + j = a
      let (c, r) := rakeWord (devNs s) (arrayAt old 0 r.index) skip (arrayAt s 0 r.index, r)
      putRake r (setArray 0 r.index c s)) s

/-- The summary record (R157). -/
def Rake.summary (r : Rake) (nocheck : Bool) (tEnd : Nat) : List Byte :=
  let top := 2 ^ 32 - 1
  let sat := r.words = top || r.corr = top || r.unc = top || r.addr = top || r.repaired = top || r.skipped = top
  let (fb, fs) := r.firstBad.getD (top, 0)
  leBytes 1 r.cls ++ leBytes 1 r.repairMode.toNat ++ leBytes 2 (bit r.aborted 0 + bit nocheck 1 + bit sat 2)
    ++ leBytes 4 r.index ++ leBytes 4 r.start ++ leBytes 4 r.done ++ leBytes 4 r.words ++ leBytes 4 r.corr
    ++ leBytes 4 r.unc ++ leBytes 4 r.addr ++ leBytes 4 r.repaired ++ leBytes 4 fb ++ leBytes 1 fs
    ++ leBytes 3 0 ++ leBytes 4 r.skipped ++ leBytes 8 r.tStart ++ leBytes 8 tEnd

/-- Ends a pass: its faults, each with the first byte of its kind (R156, R537), and its reply. -/
def closeRake (r : Rake) (nocheck : Bool) (s : Device) : Device :=
  let s := { s with rakes := s.rakes.filter fun x => !(x.cls = r.cls && x.index = r.index) }
  let src := arraySource r.cls r.index
  let s := match r.firstCorr with
    | some (a, y) => raise src 1 0x01 (sramDetail r.cls a (BitVec.ofNat 6 y)) s
    | none => s
  let s := match r.firstBad with
    | some (a, y) => raise src 2 0x02 (sramDetail r.cls a (BitVec.ofNat 6 y)) s
    | none => s
  match inProgress r.inst s with
  | some p => if p.opcode.toNat = opRakeCode then finish p stOk (r.summary nocheck (if nocheck then r.tStart else devNs s)) s else s
  | none => s

/-- A pass ends before its range is done: one over CHECK = 0 has examined nothing (R157), any other is ABORTED (R156). -/
def cutRake (r : Rake) (s : Device) : Device :=
  if noCheck s r.cls r.index && r.done = 0 then closeRake { r with tStart := devNs s } true s
  else closeRake { r with aborted := true } false s

/-- Ends every rake on an array that satisfies `p` (R156, R443, R494). -/
def abortRakes (p : Nat → Nat → Bool) (s : Device) : Device :=
  (s.rakes.filter fun r => p r.cls r.index).foldl (fun s r => cutRake r s) s

/-- Passes end whose range is done, that find CHECK = 0, or whose bed has left RUNNING, WAITING and PAUSED (R156, R157). -/
def settleRakes (s : Device) : Device :=
  s.rakes.foldl (fun s r =>
    if r.len ≤ r.done then closeRake r false s
    else if noCheck s r.cls r.index || !rakeable s r.cls r.index then cutRake r s
    else s) s

end Sys2Proof.Machine
end

