-- ==== Sys2Proof/Machine/BedClock.lean ====
section
/-! DEFINITION. Micro-cycles, the bed clock generator, and the bed's state in service (R95 to R106). -/
namespace Sys2Proof.Machine
open Sys2Proof

def genId (n : Nat) : ShellId := .gen (Fin.ofNat 384 n)
def genShell (s : Device) (n : Nat) : Shell := shellAt s (genId n)

/-! ## CTL fields and configuration values -/

/-- CTL.MODE of a generator as sampled with EN; 3 is treated as TRACKING (R95, R105). -/
def genMode (x : Shell) : Nat := let m := (x.sampled.extractLsb' 0 2).toNat; if m = 3 then 0 else m
def genRef (x : Shell) : Nat := let r := (x.sampled.extractLsb' 2 4).toNat; if 6 ≤ r then 4 else r

def clampMin1 (v : Nat) : Nat := if v = 0 then 1 else v
def scFirst (w : Word32) : Nat := Nat.min (clampMin1 (w.extractLsb' 0 5).toNat) 16
def scInc (w : Word32) : Nat := clampMin1 (w.extractLsb' 8 4).toNat
def scMax (w : Word32) : Nat := Nat.min (clampMin1 (w.extractLsb' 16 5).toNat) 16
def scRecover (w : Word32) : Nat := clampMin1 (w.extractLsb' 24 8).toNat

/-- Twice the frequency in Hz of the reference that REF_SEL selects: an XREF input as R360 classifies it, REFCLK_HUB of 100 MHz, or
the clock that a lane of the bed's die recovers; `none` where the generator finds none to lock to (R100, R360). -/
def reference (s : Device) (n : Nat) : Option Nat :=
  let r := genRef (genShell s n)
  let l := bedDie n * 64 + ((bedAt s n).clock.lockEff.extractLsb' 16 6).toNat
  let lane := s.ports.lanes.get Lane.reset l
  if r < 4 then
    match s.ports.xref.get 0 (bedDie n * 4 + r) with
    | 1 => some 200000000 | 2 => some 312500000 | 3 => some 322265625 | 4 => some 625000000 | _ => none
  else if r = 5 then (if lane.cdrLock then some (Config.recovered l lane.entry) else none)
  else some 200000000

def lockN (c : BedClock) : Nat := clampMin1 (c.lockEff.extractLsb' 0 8).toNat
def lockM (c : BedClock) : Nat := clampMin1 (c.lockEff.extractLsb' 8 8).toNat

/-! ## Stretching (R98) -/

/-- A margin flag is raised; `late` when the next edge is due within 300 ps of it. -/
def BedClock.flag (late : Bool) (c : BedClock) : BedClock :=
  let s := Nat.min (if c.s = 0 then scFirst c.stretchCfg else c.s + scInc c.stretchCfg) (scMax c.stretchCfg)
  { c with s, sEdge := if late then c.sEdge else s, flagged := true, clean := 0,
           droopEvents := if c.flagged || c.run then c.droopEvents else BitVec.ofNat 32 (satAdd 32 c.droopEvents.toNat 1) }

/-- A micro-cycle ends: counts of R98 steps 3 to 5. -/
def BedClock.endMicro (c : BedClock) : BedClock :=
  { c with stretchCount := if 0 < c.sEdge then BitVec.ofNat 32 (satAdd 32 c.stretchCount.toNat 1) else c.stretchCount,
           clean := if c.flagged then 0 else c.clean + 1, run := c.flagged, flagged := false,
           atMax := if c.flagged ∧ c.s = scMax c.stretchCfg then c.atMax + 1 else 0, sEdge := c.s }

/-- RECOVER consecutive unflagged micro-cycles have ended: s falls by 1 and the count restarts. -/
def BedClock.recover (c : BedClock) : BedClock :=
  if 0 < c.s ∧ scRecover c.stretchCfg ≤ c.clean then { c with s := c.s - 1, sEdge := c.s - 1, clean := 0 } else c

def stretchRecover (n : Nat) (s : Device) : Device := modBed n (fun b => { b with clock := b.clock.recover }) s

/-- The generator's edges reach a flag in TRACKING only (R95, R98). DESIGN CHOICE (log 28). -/
def marginFlag (late : Bool) (n : Nat) (s : Device) : Device :=
  let x := genShell s n
  if x.st = .active ∧ genMode x = 0 then modBed n (fun b => { b with clock := b.clock.flag late }) s else s

def satBit : Nat := 2

def stretchSaturated (n : Nat) (s : Device) : Device :=
  let b := bedAt s n
  if 1024 ≤ b.clock.atMax then
    let s := modBed n (fun b => { b with clock := { b.clock with atMax := 0 } }) s
    let s := modShell (genId n) (fun x => { x with mstat := x.mstat ||| 4 }) s
    occur 0x0B n 0 s
  else s

/-! ## Micro-cycles -/

/-- The line-contention reaction of one micro-cycle (R90). -/
def contentionAct (n : Nat) (s : Device) (e : Bool × Nat × Nat × List Nat) : Device :=
  let s := modBed n (fun b => contend b.phase e b) s
  let s := raise (bedSource n) 2 0x06 (contentionReg (bedAt s n).contention) s
  let (d0, s) := freshDigest s
  let (d1, s) := freshDigest s
  occur 0x0C n 0 (selfRec 0x03 n 0x8005 0 d0 d1 s)

/-- One clocked micro-cycle of a bed: every cell and memory port acts on the state as it stands in the phase,
and the writes take effect at its end (R70, R138). After φ(F − 1) the boundary begins. -/
def microCycle (n : Nat) (s : Device) : Device :=
  let b := bedAt s n
  let v := bedNets b s.free
  let cells := b.cfg.cells.cells.map fun c => (c.1, cellNext b v (c.1 / 16) (c.1 % 16))
  let accs := (b.cfg.bms.cells.map (·.1)).map fun m => (m, bmAccess b v m 0, bmAccess b v m 1)
  let last := b.phase + 1 = b.cfg.fold
  let bd := if last then some (beginBoundary n b v) else none
  let bl := if last then bedLines v else b.blines
  let lines := contended b b.phase
  let s := { s with free := s.free + 1 }
  let s := modBed n (fun b => { b with
    cells := cells.foldl (fun m c => m.set CellSt.zero c.1 c.2) b.cells
    clock := b.clock.endMicro }) s
  let s := rakeCycle n s accs (accs.foldl (fun s a => bmPhase n a.1 a.2.1 a.2.2 s) s)
  let s := lines.foldl (contentionAct n) s
  if last then modBed n (fun b => { b with phase := b.cfg.fold, blines := bl, border := { b.border with bound := bd } }) s
  else modBed n (fun b => { b with phase := b.phase + 1 }) s

/-- Whether φ(F − 1) has ended and the boundary has begun. -/
def atBoundary (b : Bed) : Bool := b.border.bound.isSome

/-- Micro-cycles up to the end of the user cycle in progress. -/
def finishCycle (n : Nat) : Nat → Device → Device
  | 0, s => s
  | k + 1, s => if (bedAt s n).st = .running && !atBoundary (bedAt s n) then finishCycle n k (microCycle n s) else s

/-- A running bed after a micro-cycle: at a boundary it stops, pauses, or goes on (R102, R112). -/
def afterMicro (n : Nat) (s : Device) : Device :=
  let b := bedAt s n
  if atBoundary b && b.st = .running then
    if b.clock.stopDue then s
    else if b.clock.pauseDue then modBed n (fun b => { b with st := .paused }) s
    else resumeBoundary n s
  else s

/-- One oscillator edge of a bed that is clocked. -/
def bedEdge (n : Nat) (s : Device) : Device :=
  let b := bedAt s n
  if b.st = .running ∧ !atBoundary b then afterMicro n (microCycle n s) else s

/-- What one tick of 1,250 ps adds to `acc`: 256 times the tick times twice the generator's frequency in Hz times M, where M divides
the reference (R95, R100). A generator that lost its reference holds the frequency it had. -/
def tickGain (s : Device) (n : Nat) : Nat :=
  let c := (bedAt s n).clock
  1250 * 256 * match genMode (genShell s n) with
    | 1 => c.refFreq * lockN c
    | 2 => 2000 * Config.freeKhz n c.freeEff.toNat
    | _ => 2000 * c.signedFreq.toNat

/-- The period of the micro-cycle in progress, in the same unit (R97). DESIGN CHOICE (log 29). -/
def microCost (s : Device) (n : Nat) : Nat :=
  let c := (bedAt s n).clock
  2 * 10 ^ 12 * match genMode (genShell s n) with
    | 1 => 256 * lockM c
    | 2 => 256
    | _ => (16 + c.thrEff) * (16 + c.sEdge)

/-- The edges that fall due, each placed by the period of the micro-cycle that it ends; an oscillator that runs while the bed waits
gathers no time for it (R96, R98, R106). -/
def repeatEdges (n : Nat) : Nat → Device → Device
  | 0, s => s
  | k + 1, s =>
    let c := (bedAt s n).clock
    let p := microCost s n
    if (bedAt s n).st = .running ∧ !atBoundary (bedAt s n) ∧ p ≤ c.acc then
      repeatEdges n k (bedEdge n (modBed n (fun b => { b with clock := { b.clock with acc := b.clock.acc - p } }) s))
    else s

/-- Every micro-cycle of a bed that is held at a boundary is a slot for the rakes of its memories (R154). -/
def heldSlots (n k : Nat) (s : Device) : Device :=
  (s.rakes.filter fun (r : Rake) => r.cls = 0 && r.index / 48 = n).foldl (fun s r => rakeSlots k 0 r.index s) s

/-- One bed in one tick: the edges of its clock, the slots that they give to rakes while it is held, and the duration of its wait
(R98, R123, R154). -/
def bedTick (s : Device) (n : Nat) : Device :=
  let s := if (genShell s n).st = .active then
      let s := modBed n (fun b => { b with clock := { b.clock with acc := b.clock.acc + tickGain s n } }) s
      let c := (bedAt s n).clock
      match (bedAt s n).st with
      | .running => repeatEdges n (c.acc / (512 * 10 ^ 12)) s
      | .waiting | .paused =>
        let p := microCost s n
        heldSlots n (c.acc / p) (modBed n (fun b => { b with clock := { b.clock with acc := c.acc % p } }) s)
      | _ => modBed n (fun b => { b with clock := { b.clock with acc := 0 } }) s
    else s
  waitAlarm n s

/-! ## Pausing, stopping, starting -/

/-- A READBACK or debug freeze is taken: at once while WAITING, at the end of the user cycle otherwise
(R102, R122). -/
def takePause (n : Nat) (s : Device) : Device :=
  let b := bedAt s n
  if b.clock.pauseDue then
    match b.st with
    | .waiting => leaveWait n .paused s
    | .running =>
      let s := finishCycle n 4 s
      if (bedAt s n).clock.stopDue then s else modBed n (fun b => { b with st := .paused }) s
    | _ => s
  else s

/-- The last hold on a PAUSED bed is released: it resumes the same boundary (R102, R122). -/
def releasePause (n : Nat) (s : Device) : Device :=
  let s := modBed n (fun b => { b with clock := { b.clock with pauseDue := false } }) s
  if (bedAt s n).st = .paused then resumeBoundary n s else s

/-- The bed's clock halts at the end of the user cycle in progress (R102). -/
def haltAtBoundary (n : Nat) (s : Device) : Device :=
  match (bedAt s n).st with
  | .running => finishCycle n 4 s
  | _ => s

/-- FALLOW, its configuration retained by the loader's caller (R119, R473). -/
def toFallow (n : Nat) (s : Device) : Device :=
  let s := leaveBorder n .fallow s
  modBed n (fun b => { b with fallowDue := none, clock := { b.clock with stopDue := false, pauseDue := false } }) s

/-- The generator's stop sequence ends: the bed becomes FALLOW, or STOPPED after a CTL write (R102, R106). -/
def genStopped (n : Nat) (s : Device) : Device :=
  let s := haltAtBoundary n s
  let b := bedAt s n
  if b.fallowDue.isSome then toFallow n s
  else match b.st with
    | .waiting => modBed n (fun b => { b with clock := { b.clock with stopDue := false } }) (leaveWait n .stopped s)
    | .running | .paused =>
      modBed n (fun b => { b with st := .stopped, clock := { b.clock with stopDue := false } }) s
    | _ => modBed n (fun b => { b with clock := { b.clock with stopDue := false } }) s

/-- The generator reaches ACTIVE: a COMMITTED bed begins φ0, a STOPPED one completes its boundary (R102, R106). -/
def genStarted (n : Nat) (s : Device) : Device :=
  match (bedAt s n).st with
  | .committed => samplePins n (modBed n (fun b => startCycle (restart b)) s)
  | .stopped => resumeBoundary n s
  | _ => s

/-- The generator faults: what becomes of the bed (R103). -/
def genFaulted (n : Nat) (was : ShellSt) (s : Device) : Device :=
  let b := bedAt s n
  match was, b.st with
  | .starting, .committed =>
    let s := toFallow n s
    modShell (genId n) (fun x => { x with en := false, st := .idle }) s
  | .starting, _ => s
  | _, .running =>
    let s := if atBoundary b then s else microCycle n s
    if atBoundary (bedAt s n) then modBed n (fun b => { b with st := .stopped }) s
    else
      let s := leaveBorder n .cut s
      modBed n (fun b => { b with cutFlag := true }) s
  | _, .waiting => leaveWait n .stopped s
  | _, .paused => modBed n (fun b => { b with st := .stopped }) s
  | _, _ => s

/-- A LOCKED generator loses lock: it holds its frequency, raises C1 and relocks (R100). -/
def lockLost (n : Nat) (s : Device) : Device :=
  let x := genShell s n
  if genMode x = 1 ∧ x.st = .active ∧ x.mstat.getLsbD 0 then
    raise (bedSource n) 1 0x08 0 (setShell (genId n) { x with mstat := x.mstat &&& ~~~1#16 } s)
  else s

def lockRegained (n : Nat) (s : Device) : Device :=
  let x := genShell s n
  match reference s n with
  | some f =>
    if genMode x = 1 ∧ x.st = .active then
      modBed n (fun b => { b with clock := { b.clock with refFreq := f } }) (setShell (genId n) { x with mstat := x.mstat ||| 1 } s)
    else s
  | none => s

/-- MSTAT of a generator: LOCK and SAT as held, STRETCHING and THR_IGN as they stand (R99, R105). -/
def genMstat (s : Device) (n : Nat) : Nat :=
  let x := genShell s n
  let c := (bedAt s n).clock
  bit (x.mstat.getLsbD 0) 0 + bit (0 < c.s) 1 + bit (x.mstat.getLsbD 2) 2
    + bit (genMode x ≠ 0 && c.throttle ≠ 0) 3

/-! ## The rows of the cell micro-instructions -/

def microWord (op : Nat) (m : Micro) : Word32 :=
  BitVec.ofNat 32 (op + place m.sa.toNat 5 + place m.sb.toNat 9 + place m.dst.toNat 13 + place m.ci.toNat 16
    + place m.cnd.toNat 18 + place m.osel.toNat 21 + place m.k.toNat 24)

/-- One word-mode cell executes a micro-instruction in the phase in progress of its bed: its registers and CL
after the phase (R54 to R60, R70, R73). The cell of a bed that is not clocked, and a bit-mode cell, execute none. DESIGN CHOICE (log 14). -/
def cellRow (op : Nat) (r : CellRef) (m : Micro) (s : Device) : Device :=
  let b := bedAt s r.bed.val
  let cl := r.cluster.val
  let ce := r.cell.val
  if b.st = .running && !atBoundary b && !(cellCfg b cl ce).bitMode then
    let w := microWord op m
    let p : PhaseIn := { b, k := b.phase, ov := some (cl, ce, w), lv := loopVals s.free }
    let inp := cellInput b (netVal p .none) cl ce
    let st := wordWrite (b.rowEn.getLsbD (cl / 16)) w (cellExec w inp) (cellSt b cl ce)
    { setBed r.bed.val { b with cells := b.cells.set CellSt.zero (cl * 16 + ce) st } s with free := s.free + 1 }
  else s

/-- One memory of a clocked bed makes the accesses of the phase in progress (R138). -/
def memRow (n mem : Nat) (s : Device) : Device :=
  let b := bedAt s n
  if b.st = .running && !atBoundary b then
    let p : PhaseIn := { b, k := b.phase, ov := none, lv := loopVals s.free }
    let v := netVal p .none
    bmPhase n mem (bmAccess b v mem 0) (bmAccess b v mem 1) { s with free := s.free + 1 }
  else s

/-- Two taps are found driving one length-16 line in a phase of a clocked bed (R90). -/
def contentionRow (n : Nat) (s : Device) : Device :=
  let b := bedAt s n
  if b.st = .running && !atBoundary b then (contended b b.phase).foldl (contentionAct n) s else s

/-- A boundary that has begun completes: that of a WAITING bed when it can (R112, R113), that of a RUNNING bed at once, or the bed
begins to wait. A bed that is held at its boundary stays so (R106). -/
def boundaryRow (n : Nat) (s : Device) : Device :=
  let b := bedAt s n
  if b.st = .waiting then tryComplete n s
  else if b.st = .running && atBoundary b && !b.clock.stopDue then resumeBoundary n s
  else s

end Sys2Proof.Machine
end

