-- ==== Sys2Proof/Machine/Keys.lean ====
section
/-! DEFINITION. The keys that derive from the device key (R482). -/
namespace Sys2Proof.Machine
open Sys2Proof

def deviceIdBytes : List Byte := leBytes 16 Config.deviceId

def prkD : List Byte := Config.hkdfExtract deviceIdBytes Config.deviceKey
def bootNonce (s : Device) : List Byte := Config.random (s.trust.nonce.getD 0) 32
def prkB (s : Device) : List Byte := Config.hkdfExtract (bootNonce s) Config.deviceKey
def keyKw : List Byte := Config.hkdfExpand prkD (asciiBytes "kv wrap") 32
/-- KA and KB of key ID 255. -/
def key255 (s : Device) : List Byte := Config.hkdfExpand (prkB s) (asciiBytes "kv dev255") 64
/-- KT (R300). -/
def treeKey (s : Device) : List Byte := Config.hkdfExpand (prkB s) (asciiBytes "kv tree") 32

end Sys2Proof.Machine
end

