-- ==== Sys2Proof/Machine/CoreRegs.lean ====
section
/-! DEFINITION. Register files of the Fraelm core: names and rotation (R163), reads, writes with their access
codes (R165, R218), and landings (R172 to R174, R186). -/
namespace Sys2Proof.Machine
open Sys2Proof

def CoreRegs.cur (r : CoreRegs) : RegBank := if r.bank then r.shadow else r.main
def CoreRegs.ofBank (r : CoreRegs) (b : Bool) : RegBank := if b then r.shadow else r.main
def CoreRegs.modBank (r : CoreRegs) (b : Bool) (f : RegBank → RegBank) : CoreRegs :=
  if b then { r with shadow := f r.shadow } else { r with main := f r.main }

/-- Vn and Pn under RRB (R163). -/
def physV (rrb : Word32) (n : Nat) : Nat :=
  if n < 32 then n else 32 + (n - 32 + bitsAt rrb.toNat 0 5) % 32
def physP (rrb : Word32) (n : Nat) : Nat :=
  if n < 8 then n else 8 + (n - 8 + bitsAt rrb.toNat 8 3) % 8

def rrbMask : Nat := 0x71F

/-- Sources 0 to 10 and 16 to 31 exist (R183); bits of the others read 0. -/
def srcMask : Nat := 0xFFFF07FF
/-- Level sources 4 to 7. -/
def levelMask : Nat := 0xF0

def loopReg (b : RegBank) (i : Nat) : Nat :=
  match i with
  | 0 => b.lc0.toNat | 1 => b.lc1.toNat | 2 => b.ec.toNat | 3 => b.rrb.toNat
  | 4 => b.lb0.toNat | 5 => b.lb1.toNat | 6 => b.le0.toNat | _ => b.le1.toNat

def setLoopReg (i v : Nat) (b : RegBank) : RegBank :=
  let w := BitVec.ofNat 32 v
  let h := BitVec.ofNat 16 (v / 16 * 16)
  match i with
  | 0 => { b with lc0 := w } | 1 => { b with lc1 := w } | 2 => { b with ec := w }
  | 3 => { b with rrb := BitVec.ofNat 32 (v &&& rrbMask) }
  | 4 => { b with lb0 := h } | 5 => { b with lb1 := h } | 6 => { b with le0 := h } | _ => { b with le1 := h }

/-- Control register values; `lvl` gives the level sources that pend, `dst` is DSTAT (R165). -/
def CoreRegs.ctl (r : CoreRegs) (lvl dst : Nat) (i : Nat) : Nat :=
  match i with
  | 0 => r.pstat.toNat | 1 => r.istat.toNat | 2 => dst | 3 => r.ien.toNat
  | 4 => r.ipend.toNat ||| lvl | 5 => r.ira.toNat | 6 => r.ipstat.toNat | 7 => r.vbase.toNat
  | 8 => r.eaddr.toNat | _ => 0

/-- The value of a register in bank `b`. -/
def CoreRegs.get (r : CoreRegs) (b : Bool) (lvl dst : Nat) (x : Reg) : Nat :=
  match x.file with
  | .v => (r.v.get 0 x.idx).toNat
  | .ac => (r.ac.get 0 x.idx).toNat
  | .s => if x.idx < 16 then ((r.ofBank b).s.get 0 x.idx).toNat else (r.sHi.get 0 x.idx).toNat
  | .a => if x.idx < 8 then ((r.ofBank b).a.get 0 x.idx).toNat else (r.aHi.get 0 x.idx).toNat
  | .m => (r.m.get 0 x.idx).toNat
  | .b => (r.b.get 0 x.idx).toNat
  | .l => (r.l.get 0 x.idx).toNat
  | .p => (r.p.get 0 x.idx).toNat
  | .ctl => r.ctl lvl dst x.idx
  | .loop => loopReg (r.ofBank b) x.idx

/-- A write of the bits of `mask` to a control register, by its access codes (R165). DSTAT is not here. DEDUCED (log 44). -/
def CoreRegs.setCtl (r : CoreRegs) (i mask v : Nat) : CoreRegs :=
  let v := v &&& mask
  match i with
  | 0 =>
    let ie := if bitAt mask 0 then bitAt v 0 else r.pstat.getLsbD 0
    { r with pstat := BitVec.ofNat 6 (bit ie 0 + ((r.pstat.toNat &&& 0x3E) &&& (0x3E ^^^ (v &&& 0x3E)))) }
  | 3 => { r with ien := BitVec.ofNat 32 (v &&& srcMask) }
  | 4 => { r with ipend := r.ipend &&& ~~~(BitVec.ofNat 32 v) }
  | 5 => { r with ira := BitVec.ofNat 16 v }
  | 6 => { r with ipstat := BitVec.ofNat 32 v }
  | 7 => { r with vbase := BitVec.ofNat 16 (v &&& 0xF000) }
  | _ => r

/-- A masked write to a register in bank `b`. -/
def CoreRegs.set (r : CoreRegs) (b : Bool) (x : Reg) (mask v : Nat) : CoreRegs :=
  let m32 (old : Word32) : Word32 := BitVec.ofNat 32 (maskWrite old.toNat v mask)
  match x.file with
  | .v => { r with v := r.v.modify 0 x.idx fun o => BitVec.ofNat 512 (maskWrite o.toNat v mask) }
  | .ac => { r with ac := r.ac.modify 0 x.idx fun o => BitVec.ofNat 1536 (maskWrite o.toNat v mask) }
  | .s => if x.idx < 16 then r.modBank b fun k => { k with s := k.s.modify 0 x.idx m32 }
          else { r with sHi := r.sHi.modify 0 x.idx m32 }
  | .a => if x.idx < 8 then r.modBank b fun k => { k with a := k.a.modify 0 x.idx m32 }
          else { r with aHi := r.aHi.modify 0 x.idx m32 }
  | .m => { r with m := r.m.modify 0 x.idx m32 }
  | .b => { r with b := r.b.modify 0 x.idx m32 }
  | .l => { r with l := r.l.modify 0 x.idx m32 }
  | .p => { r with p := r.p.modify 0 x.idx fun o => BitVec.ofNat 64 (maskWrite o.toNat v mask) }
  | .ctl => r.setCtl x.idx mask v
  | .loop => r.modBank b (setLoopReg x.idx v)

/-- Adds lane by lane, modulo the lane (R214). -/
def addLanes (lane n : Nat) (mask old delta : Nat) : Nat :=
  (List.range n).foldl (fun acc i =>
    let o := bitsAt old (i * lane) lane
    let d := if bitAt mask (i * lane) then bitsAt delta (i * lane) lane else 0
    acc + place ((o + d) % 2 ^ lane) (i * lane)) 0

/-- Sticky flags go to PSTAT in the context that issued, to IPSTAT for the interrupted context (R186). -/
def CoreRegs.raiseFlags (r : CoreRegs) (b : Bool) (f : Nat) : CoreRegs :=
  if b = r.bank then { r with pstat := r.pstat ||| BitVec.ofNat 6 f }
  else if r.istat.getLsbD 0 then { r with ipstat := r.ipstat ||| BitVec.ofNat 32 f } else r

/-- A landing, DSTAT writes and DATA_ERR apart. -/
def CoreRegs.land (r : CoreRegs) (b : Bool) (w : Landing) : CoreRegs :=
  match w with
  | .write x mask v => r.set b x mask v
  | .accum i lane mask delta =>
    { r with ac := r.ac.modify 0 i fun o => BitVec.ofNat 1536 (addLanes lane (1536 / lane) mask o.toNat delta) }
  | .flags f => r.raiseFlags b f
  | .dataErr _ => r

def Landing.isFlags : Landing → Bool
  | .flags _ => true
  | _ => false

/-- What lands in one cycle: writes in the order of issue and slot (R174), then flags, which prevail (R13). -/
def CoreRegs.landAll (r : CoreRegs) (fs : List Flight) : CoreRegs :=
  let r := (fs.filter fun f => !f.what.isFlags).foldl (fun r f => r.land f.bank f.what) r
  (fs.filter fun f => f.what.isFlags).foldl (fun r f => r.land f.bank f.what) r

/-- DSTAT writes among the landings: W1C of bits 2 to 4. -/
def dstatClears (fs : List Flight) : Nat :=
  fs.foldl (fun m f => match f.what with
    | .write ⟨.ctl, 2⟩ _ v => m ||| (v &&& 0x1C)
    | _ => m) 0

/-- The registers as a bundle reads them: writes issued before a handler was entered show their new value (R173). -/
def Core.view (c : Core) : CoreRegs :=
  c.regs.landAll (c.flights.filter fun f => f.entered)

end Sys2Proof.Machine
end

