-- ==== Sys2Proof/Machine/CsrBase.lean ====
section
/-! DEFINITION. Shared parts of register writes: almanac records of changes (R515, R44), and merging of a write into a
register of 32 or 64 bits. -/
namespace Sys2Proof.Machine
open Sys2Proof

def csrBase : Nat := 0xFFF000000000

/-- The origin of a CSR write (R515). -/
def csrOrigin (i : InitId) : Nat :=
  match initKind i with
  | .cxl _ => 1
  | .bed _ => 6
  | .ls _ | .dma _ _ => 7
  | .island => 5
  | _ => 0

def csrBody (i : InitId) (off status old new : Nat) (s : Device) : RecBody :=
  { origin := csrOrigin i, principal := stampPlot s i + i.toNat * 16, objClass := 0x13, objId := off / 256 % 2 ^ 24,
    action := 0x1000, status, before := old, after := new }

/-- A change of a recorded register at `off` from the CSR base (R515, R516). -/
def csrRecord (i : InitId) (off old new : Nat) (s : Device) : Device :=
  if old = new then s else almCoalesce (csrBody i off 0 old new s) none s

/-- A deferred enable that is accepted (R44): never coalesced. -/
def csrDeferred (i : InitId) (off old new : Nat) (s : Device) : Device :=
  almMake (csrBody i off 1 old new s) none s

/-- Records of another origin than the device's that `t` has opened since `s`. -/
def newlyOpened (s t : Device) : Nat :=
  ((t.alm.recs ++ t.alm.opened.toList).filter fun r => decide (s.alm.next ≤ r.seq) && !deviceOrigin r.origin).length

/-- The almanac has no room for the records that a register write opens (R517, R520): the write is refused. A sealed almanac is
asked what the write would record. DEDUCED (log 23). -/
def almRefuses (f : Device → Device) (s : Device) : Bool :=
  let s' := { s with alm := { s.alm with sealed := false } }
  !almRoom (newlyOpened s' (f s')) s

/-- Offsets of the sub-blocks of R33 and R34. -/
def dieOff (d : Nat) : Nat := 0x01000000 + d * 0x01000000
def bedOff (b : Nat) : Nat := dieOff (b / 48) + b % 48 * 0x1000
def coreOff (c : Nat) : Nat := dieOff (c / 16) + 0x00100000 + c % 16 * 0x10000
def quadOff (q : Nat) : Nat := dieOff (q / 16) + 0x00200000 + q % 16 * 0x1000
def engineOff (e : Nat) : Nat := dieOff (e / 8) + 0x00300000 + e % 8 * 0x10000

/-! ## Widths and halves (R9, R10, R622) -/

/-- Notes a lower-half read (R10). -/
def setLatch (i : InitId) (addr hi : Nat) (s : Device) : Device :=
  if i = islandInit then { s with trl := { s.trl with latchDbg := s.trl.latchDbg.set (0, 0) addr (i.toNat + 1, hi) } }
  else { s with trl := { s.trl with latch := s.trl.latch.set (0, 0) addr (i.toNat + 1, hi) } }

/-- The latched value that an upper-half read by this initiator returns, if any (R10). -/
def latched (i : InitId) (addr : Nat) (s : Device) : Option Nat :=
  let l := (if i = islandInit then s.trl.latchDbg else s.trl.latch).get (0, 0) addr
  if l.1 = i.toNat + 1 then some l.2 else none

/-- A read of `size` bytes at `off` of a block at `blk` from the CSR base. `wid` gives the register that holds an offset and
its width; an offset with none reads 0 (R11). `none` is BAD_ACCESS (R9). DESIGN CHOICE (log 154). -/
def regRead (wid : Nat → Option (Nat × Nat)) (val : Nat → Nat) (blk : Nat) (i : InitId) (off size : Nat) (s : Device) :
    Option (Nat × Device) :=
  match wid off with
  | none => if (size = 4 ∨ size = 8) ∧ off % size = 0 then some (0, s) else none
  | some (base, 64) =>
    if size = 8 ∧ off = base then some (val base % 2 ^ 64, s)
    else if size = 4 ∧ off = base then
      some (val base % 2 ^ 32, setLatch i (blk + base) (val base / 2 ^ 32 % 2 ^ 32) s)
    else if size = 4 ∧ off = base + 4 then
      some (((latched i (blk + base) s).getD (val base / 2 ^ 32 % 2 ^ 32)), s)
    else none
  | some (base, _) => if size = 4 ∧ off = base then some (val base % 2 ^ 32, s) else none

/-- The register, value and bit mask of a write; an offset with no register is ignored (R11). -/
def regWrite (wid : Nat → Option (Nat × Nat)) (off size v : Nat) : Option (Option (Nat × Nat × Nat)) :=
  match wid off with
  | none => if (size = 4 ∨ size = 8) ∧ off % size = 0 then some none else none
  | some (base, 64) =>
    if size = 8 ∧ off = base then some (some (base, v % 2 ^ 64, 2 ^ 64 - 1))
    else if size = 4 ∧ off = base then some (some (base, v % 2 ^ 32, 2 ^ 32 - 1))
    else if size = 4 ∧ off = base + 4 then some (some (base, v % 2 ^ 32 * 2 ^ 32, (2 ^ 32 - 1) * 2 ^ 32))
    else none
  | some (base, _) => if size = 4 ∧ off = base then some (some (base, v % 2 ^ 32, 2 ^ 32 - 1)) else none

end Sys2Proof.Machine
end

