-- ==== Sys2Proof/Machine/Trellis.lean ====
section
/-! DEFINITION. The initiator's side of the Trellis: windows, tags, taint entries, timeouts, statistics
(R239 to R262), and routes (R236). -/
namespace Sys2Proof.Machine
open Sys2Proof

/-! ## Response codes (R246) -/

def rcOkay : Byte := 0x00
def rcExfail : Byte := 0x01
def rcDecode : Byte := 0x10
def rcDenied : Byte := 0x11
def rcData : Byte := 0x12
def rcTimeout : Byte := 0x13
def rcBad : Byte := 0x14
def rcIntegrity : Byte := 0x15
def rcPoisoned : Byte := 0x16
def rcNoRoute : Byte := 0x17

/-- Codes 0x00 and 0x01 are not errors (R246). -/
def isErr (c : Byte) : Bool := 2 ≤ c.toNat

/-! ## Windows -/

def win (s : Device) (i : InitId) : InitWin := s.trl.wins.get InitWin.reset i.toNat
def setWin (i : InitId) (w : InitWin) (s : Device) : Device :=
  { s with trl := { s.trl with wins := s.trl.wins.set InitWin.reset i.toNat w } }

/-- Default PRI and outstanding limit (R239); `none` for IDs never issued. -/
def initLimits (i : InitId) : Option (BitVec 2 × Nat) :=
  match initKind i with
  | .bed _ => some (1, 64)
  | .ls _ => some (2, 1)
  | .dma _ _ => some (0, 32)
  | .engine _ => some (2, 256)
  | .command => some (3, 64)
  | .warden => some (3, 64)
  | .loader => some (0, 128)
  | .island => some (3, 4)
  | .tiller _ => some (0, 128)
  | .cxl _ => some (1, 1024)
  | .none => none

def initPri (s : Device) (i : InitId) : BitVec 2 :=
  (win s i).pri.getD ((initLimits i).map (·.1) |>.getD 0)

def initOutst (i : InitId) : Nat := (initLimits i).map (·.2) |>.getD 0

/-- INIT_TMO with its bounds (ns). -/
def effTmo (w : InitWin) : Nat := Nat.min (Nat.max w.tmo.toNat 256) 1000000000

/-- INIT_TAINT with its bound, in ns. -/
def effTaint (w : InitWin) : Nat := Nat.max w.taint.toNat 512 * 1000

/-- Opcodes that R239 lets an initiator issue. -/
def mayIssue (i : InitId) (opc : Opc) (at' : AtType) : Bool :=
  match initKind i with
  | .bed _ => true
  | .ls _ => opc = .atomic && (at' = .xload || at' = .xstore)
  | .dma _ _ => opc = .read || opc = .write
  | .engine _ => opc ≠ .atomic
  | .command | .warden => opc ≠ .pwrite
  | .loader | .island | .tiller _ | .cxl _ => opc = .read || opc = .write
  | .none => false

def tagOf (w : InitWin) (t : Nat) : Tag := w.tags.get Tag.reset t
def setTag (w : InitWin) (t : Nat) (x : Tag) : InitWin := { w with tags := w.tags.set Tag.reset t x }

/-- The lowest-numbered FREE tag (R254). -/
def lowestFree (w : InitWin) (outst : Nat) : Option Nat :=
  (List.range outst).find? fun t => (tagOf w t).st = .free

def addStat (w : InitWin) (f : Stats → Stats) : InitWin := { w with stats := f w.stats }

/-- A request enters its initiator's stop (R240, R242, R253, R254, R260), if the initiator is not
stalled (R256) and has a FREE tag. A posted write needs neither tag nor timer (R247). -/
def issue (frozen : Bool) (opc : Opc) (at' : AtType) (r : TrlReq) (s : Device) : Option (Device × Pkt) :=
  let w := win s r.init
  if w.stalled || !mayIssue r.init opc at' then none else
  let base : Pkt :=
    { opc, atype := at', init := r.init, plot := Fin.ofNat 16 (stampPlot s r.init), pri := initPri s r.init,
      tag := 0, gen := 0, addr := r.addr, len := r.len, bcnt := r.bcnt, stamp := devStamp s,
      dbg := decide (r.init = islandInit), data := r.data, opA := r.opA, opB := r.opB }
  let bytes := r.bcnt.toNat + 1
  let count (st : Stats) : Stats := if frozen then st else
    { st with reqs := satAdd 32 st.reqs 1,
              wrBytes := if opc = .pwrite then satAdd 64 st.wrBytes bytes else st.wrBytes }
  if opc = .pwrite then
    some (setWin r.init (addStat w count) s, base)
  else
    match lowestFree w (initOutst r.init) with
    | none => none
    | some t =>
      let g := (tagOf w t).gen
      let w := setTag w t { st := .busy, gen := g, start := devNs s, tmo := effTmo w, opc, bytes, addr := r.addr.toNat }
      some (setWin r.init (addStat w count) s,
            { base with tag := BitVec.ofNat 10 t, gen := g })

/-- The age of a packet in units of 16.384 µs (R248). -/
def pktAge (s : Device) (p : Pkt) : Nat := ((devStamp s) - p.stamp).toNat

def tooOld (s : Device) (p : Pkt) : Bool := 31 ≤ pktAge s p

/-- The latency bin of R261. -/
def histBin (ns : Nat) : Nat :=
  if ns < 16 then 0 else if 262144 ≤ ns then 15 else Nat.log2 ns - 3

/-- Counts a genuine response (R260, R261). -/
def countGenuine (t : Tag) (lat : Nat) (p : Pkt) (rc : Byte) (st : Stats) : Stats :=
  { st with
    maxLat := Nat.min (Nat.max st.maxLat lat) (2 ^ 32 - 1)
    near := if 15 * t.tmo ≤ 16 * lat then satAdd 32 st.near 1 else st.near
    err := if isErr rc then satAdd 32 st.err 1 else st.err
    rdBytes := if rc = rcOkay && (p.opc = .read || (p.opc = .atomic && p.atype = .xload))
      then satAdd 64 st.rdBytes (p.bcnt.toNat + 1) else st.rdBytes
    wrBytes := if rc = rcOkay && p.opc = .write then satAdd 64 st.wrBytes (p.bcnt.toNat + 1) else st.wrBytes
    hist := st.hist.modify (histBin lat) (fun n => satAdd 32 n 1) }

/-- EXPIRED tags obtain freed taint entries in the order in which they expired, and a stall ends when
none is left (R255, R256). -/
def refillTaints (now : Nat) (w : InitWin) : InitWin :=
  match w.expired with
  | [] => { w with stalled := w.stalled && decide (w.taints.length = 64) }
  | t :: rest =>
    if w.taints.length < 64 then
      let w := setTag w t { tagOf w t with st := .tainted }
      { w with taints := w.taints ++ [(t, now + effTaint w)], expired := rest,
               stalled := w.stalled && !(rest.isEmpty && decide (w.taints.length + 1 < 64)) }
    else w

/-- A tag leaves EXPIRED or TAINTED: FREE with the next generation (R254, R255). -/
def releaseTag (now t : Nat) (w : InitWin) : InitWin :=
  let x := tagOf w t
  let w := setTag w t { Tag.reset with gen := x.gen + 1 }
  let w := { w with taints := w.taints.filter (·.1 ≠ t), expired := w.expired.filter (· ≠ t) }
  refillTaints now w

/-- What the initiator's stop does with an arriving response: `true` where it is delivered (R254, R257). DEDUCED (log 54). -/
def arrive (frozen : Bool) (r : Rsp) (s : Device) : Device × Bool :=
  let i := r.req.init
  let w := win s i
  let t := r.req.tag.toNat
  let x := tagOf w t
  let late (w : InitWin) : InitWin :=
    if frozen then w else addStat w fun st => { st with late := satAdd 32 st.late 1 }
  if tooOld s r.req then (setWin i (late w) s, false) else
  match x.st with
  | .busy =>
    if x.gen = r.req.gen then
      let lat := devNs s - x.start
      let w := setTag w t { Tag.reset with gen := x.gen }
      let w := if frozen then w else addStat w (countGenuine x lat r.req r.rcode)
      (setWin i w s, true)
    else (setWin i (late w) s, false)
  | .free => (setWin i (late w) s, false)
  | .expired | .tainted => (setWin i (late (releaseTag (devNs s) t w)) s, false)

/-- The node collector that a fault against an initiator reaches is its die's (R256). -/
def stallFault (i : InitId) (s : Device) : Device := raise (.init i) 2 0x0A i.toNat s

/-- A request has expired: counted, its tag TAINTED or EXPIRED, and a stall may begin (R253 to R256). -/
def expireTag (frozen : Bool) (i : InitId) (t : Nat) (s : Device) : Device :=
  let w := win s i
  let x := tagOf w t
  let w := if frozen then w else addStat w fun st => { st with tmo := satAdd 32 st.tmo 1 }
  let w : InitWin :=
    if w.taints.length < 64 then
      { setTag w t { x with st := .tainted } with taints := w.taints ++ [(t, devNs s + effTaint w)] }
    else { setTag w t { x with st := .expired } with expired := w.expired ++ [t] }
  let begins := decide (w.taints.length = 64) && !w.stalled
  let s := setWin i { w with stalled := w.stalled || begins } s
  if begins then stallFault i s else s

/-- The timer of a request expires. `none` if the tag is not BUSY or its time has not come. -/
def expire (frozen : Bool) (i : InitId) (t : Nat) (s : Device) : Option Device :=
  let x := tagOf (win s i) t
  if x.st = .busy ∧ x.start + x.tmo ≤ devNs s then some (expireTag frozen i t s) else none

/-- The time of a taint entry runs out (R255). -/
def taintOut (i : InitId) (t : Nat) (s : Device) : Device :=
  let w := win s i
  if w.taints.any fun e => e.1 = t && decide (e.2 ≤ devNs s) then setWin i (releaseTag (devNs s) t w) s else s

def clearStats (i : InitId) (s : Device) : Device :=
  setWin i { win s i with stats := Stats.reset } s

/-! ## Routes (R16, R236) -/

def hlUp (s : Device) (d : Nat) : Bool := s.trl.hlUp.getLsbD d

/-- Link number of the neighbour link between adjacent dies of one row (links 8 to 13). -/
def nlLink (a b : Nat) : Option Nat :=
  let lo := Nat.min a b
  if (a + 1 = b ∨ b + 1 = a) ∧ lo ≠ 3 ∧ Nat.max a b < 8 then some (8 + (if lo < 3 then lo else lo - 1)) else none

def nlUp (s : Device) (a b : Nat) : Bool :=
  match nlLink a b with
  | some l => s.trl.nlUp.getLsbD (l - 8)
  | none => false

/-- The links between a compute die and the hub: its own, or over the adjacent die whose hub link is up,
the western one if both are. -/
def hubPath (s : Device) (d : Nat) : Option (List Nat) :=
  let via (n : Nat) : Option (List Nat) :=
    if nlUp s d n && hlUp s n then (nlLink d n).map fun l => [l, n] else none
  if hlUp s d then some [d]
  else if 0 < d ∧ (via (d - 1)).isSome then via (d - 1)
  else via (d + 1)

/-- The links from one site to another; `none` is NO_ROUTE. -/
def route (s : Device) (src dst : Site) : Option (List Nat) :=
  match src, dst with
  | .hub, .hub => some []
  | .hub, .die d => (hubPath s d).map List.reverse
  | .die d, .hub => hubPath s d
  | .die a, .die b =>
    if a = b then some []
    else if nlUp s a b then (nlLink a b).map fun l => [l]
    else match hubPath s a, hubPath s b with
      | some p, some q => some (p ++ q.reverse)
      | _, _ => none

def initSite (i : InitId) : Site := if h : initDie i < 8 then .die ⟨initDie i, h⟩ else .hub

/-- The die at whose stop an address is served (R26, R231, R232). -/
def targetSite (a : Nat) : Site :=
  if 0xE00000000000 ≤ a ∧ a < 0xE00000000000 + 384 * 2 ^ 32 then
    .die (Fin.ofNat 8 ((a - 0xE00000000000) / 2 ^ 32 / 48))
  else if 0xF00000000000 ≤ a ∧ a < 0xF00000000000 + 128 * 2 ^ 24 then
    .die (Fin.ofNat 8 ((a - 0xF00000000000) / 2 ^ 24 / 16))
  else if 0xFFF001000000 ≤ a ∧ a < 0xFFF009000000 then
    .die (Fin.ofNat 8 ((a - 0xFFF001000000) / 2 ^ 24))
  else .hub

def ringsOf (s : Device) : Site → Rings
  | .die d => s.trl.rings.getD d.val Rings.reset
  | .hub => s.trl.spine
def setRings (site : Site) (f : Rings → Rings) (s : Device) : Device :=
  match site with
  | .die d => { s with trl := { s.trl with rings := s.trl.rings.modify d.val f } }
  | .hub => { s with trl := { s.trl with spine := f s.trl.spine } }

/-- A request that its target has no room for stays in the network and is counted (R234). -/
def refuse (site : Site) (p : Pkt) (s : Device) : Device :=
  let s := setRings site (fun r => { r with laps := BitVec.ofNat 32 (satAdd 32 r.laps.toNat 1) }) s
  { s with trl := { s.trl with net := s.trl.net ++ [p] } }

def respond (p : Pkt) (rc : Byte) (data : List Byte) (s : Device) : Device :=
  if p.opc = .pwrite then s
  else { s with trl := { s.trl with rsps := s.trl.rsps ++ [{ req := p, rcode := rc, data := data }] } }

/-- A target that cannot perform a request answers it, or discards a posted write with a C0 note;
DECODE_ERROR discards without one (R247). -/
def failReq (p : Pkt) (rc : Byte) (s : Device) : Device :=
  if p.opc = .pwrite then
    if rc = rcDecode then s else noteAccess p.init p.addr.toNat s
  else respond p rc [] s

/-! ## Reservations (R245) -/

/-- A write by another initiator ends reservations on the line (R245). -/
def breakResvs (stop : Nat) (i : InitId) (line : Nat) (s : Device) : Device :=
  { s with trl := { s.trl with resvs := s.trl.resvs.filter fun r => !(r.stop = stop && r.line = line && r.init ≠ i) } }

/-- The request of a row: a new one is issued by its initiator, a named one is taken from the network. -/
def takeReq (frozen : Bool) (opc : Opc) (at' : AtType) (r : TrlReq) (s : Device) : Option (Device × Pkt) :=
  match r.tag with
  | none => issue frozen opc at' r s
  | some t =>
    match s.trl.net.find? fun p => p.init = r.init && p.tag = t && p.opc = opc && (opc ≠ .atomic || p.atype = at') with
    | none => none
    | some p => some ({ s with trl := { s.trl with net := s.trl.net.erase p } }, p)

end Sys2Proof.Machine
end

