-- ==== Sys2Proof/Machine/CoreCtl.lean ====
section
/-! DEFINITION. Run states of a Fraelm core (R192), interrupt sources (R183), timer and watchdog (R193 to R197), freezes
(R595), and its DMA channels (R199). -/
namespace Sys2Proof.Machine
open Sys2Proof

def coreAt (s : Device) (c : Nat) : Core := s.cores.get Core.reset c
def setCore (c : Nat) (x : Core) (s : Device) : Device := { s with cores := s.cores.set Core.reset c x }
def modCore (c : Nat) (f : Core → Core) (s : Device) : Device := setCore c (f (coreAt s c)) s
def coreSource (c : Nat) : Source := .core (Fin.ofNat 128 c)

/-! ## Interrupt sources (R183) -/

/-- Level sources that pend. -/
def levels (s : Device) (c : Nat) : Nat :=
  let io := coreIoAt s c
  bit (!io.lIn.isEmpty) 4 + bit (!io.uIn.isEmpty) 5 + bit (io.lOut.length < 2) 6 + bit (io.uOut.length < 2) 7

/-- DSTAT (R165). -/
def dstatVal (c : Core) : Nat := bit c.dbg.halted 0 + (c.dstat.toNat &&& 0x1E)

/-- IPEND as read. -/
def ipendVal (s : Device) (c : Nat) : Nat := (coreAt s c).regs.ipend.toNat ||| levels s c

/-- Edge sources pend. -/
def pendMask (c m : Nat) (s : Device) : Device :=
  modCore c (fun x => { x with regs := { x.regs with ipend := x.regs.ipend ||| BitVec.ofNat 32 (m &&& srcMask) } }) s

def pend (c src : Nat) (s : Device) : Device := pendMask c (2 ^ src) s

/-- The lowest-numbered source that pends with its IEN bit set. -/
def enabledSource (s : Device) (c : Nat) : Option Nat :=
  (List.range 32).find? fun i => bitAt (ipendVal s c &&& (coreAt s c).regs.ien.toNat) i

/-! ## Freezes (R595, R197) -/

def freezeCfg (s : Device) (p : Nat) : BitVec 4 := s.dbg.freezeCfg.get 4 p

/-- The session's right to freeze, for its own plot. -/
def mayFreeze (s : Device) (p : Nat) : Bool :=
  match s.dbg.session with
  | some x => decide (x.plot.val = p) && x.rights.getLsbD 2
  | none => false

/-- The plot-level freeze of plot `p` acts (R595). -/
def plotFrozen (s : Device) (p : Nat) : Bool :=
  mayFreeze s p && ((freezeCfg s p).getLsbD 3 ||
    s.cores.cells.any fun x => x.2.dbg.halted && decide (coreOwner s x.1 = p))

/-- FREEZE_CFG.NOW stalls the core. -/
def stalledNow (s : Device) (c : Nat) : Bool :=
  let p := coreOwner s c
  mayFreeze s p && (freezeCfg s p).getLsbD 3

/-- A FREEZE bit of the core is in effect (R197). -/
def frozenBit (s : Device) (c k : Nat) : Bool :=
  let x := coreAt s c
  x.freeze.getLsbD k && (x.dbg.halted || stalledNow s c)

/-- Bytes of instruction memory are about to be written (R169). -/
def noteCode (c off n : Nat) (s : Device) : Device :=
  if (coreAt s c).st = .active then
    modCore c (fun x => { x with wrote := { off, old := (arrayAt s 1 c).readBytes off n, left := 8 } :: x.wrote }) s
  else s

/-! ## Run states (R192, R37 to R45) -/

/-- The period, in which 0 is treated as 1. -/
def wdtLoad (x : Core) : Word32 := if x.wdtPeriod = 0 then 1 else x.wdtPeriod

/-- Entry to STARTING: the state of R162 is cleared, PC and VBASE are loaded, and the watchdog (R194). DESIGN CHOICE (log 149). -/
def Core.starting (x : Core) : Core :=
  { x with
    st := .starting, pendStop := false, regs := { CoreRegs.zero with vbase := x.bootVbase }, pc := x.bootPc,
    flights := [], branch := none, returning := false, lock := 0, rpt := 0, closed := false, inLock := false,
    inSpan := false, hold := .none, held := none, idle := 0, stall := 0, wfi := false, exc := none, wdtCnt := wdtLoad x, wdtStage := false, wdtPre := 0,
    preCnt := 0, wrote := [], dbg := { x.dbg with now := false, cut := false } }

/-- A channel that runs issues nothing more, and ends once nothing is outstanding (R192, R199). -/
def Dma.abort (code : Byte) (d : Dma) : Dma :=
  if d.busy ∧ d.stop.isNone then { d with stop := some code, ready := [] } else d

def aborted : Byte := 0xFF

/-- The core leaves a debug halt without RESUME (R596). -/
def CoreDbg.leave (d : CoreDbg) : CoreDbg :=
  if d.halted || d.halting then { d with halted := false, halting := false, stepping := false, pass := false, feeding := false } else d

/-- Issue stops at the boundary; in-flight writes land (R192). LAST_STOP is `why`. -/
def Core.stopping (why : Nat) (x : Core) : Core :=
  let regs := x.regs.landAll x.flights
  { x with
    st := .stopping, lastStop := BitVec.ofNat 3 why, regs, flights := [], branch := none, returning := false,
    lock := 0, rpt := 0, closed := false, inLock := false, inSpan := false, hold := .none, held := none, idle := 0, stall := 0,
    wfi := false, exc := none,
    dma0 := x.dma0.abort aborted, dma1 := x.dma1.abort aborted,
    dstat := x.dstat &&& ~~~(BitVec.ofNat 5 (dstatClears x.flights)), dbg := x.dbg.leave }

/-- WDT_CTL is reset on entry to IDLE (R196). -/
def Core.idleEntry (x : Core) : Core :=
  { x with st := .idle, wdtEn := false, wdtAction := false, wdtLock := false, wdtStage := false }

/-- FAULT: issue stops at once and in-flight writes are discarded (R192). -/
def coreFault (c : Nat) (s : Device) : Device :=
  let x := coreAt s c
  let detail := x.pcSample.toNat + place x.regs.istat.toNat 16
  let y := { Core.stopping 3 { x with flights := [] } with st := .fault, err := true }
  raise (coreSource c) 2 0x04 detail (setCore c (if x.en then y else y.idleEntry) s)

/-- STOPPING with EN left at 1; a core that starts stops once it has started, and one that does not run stays as it is. DEDUCED (log 147). -/
def Core.wdtReset (x : Core) : Core :=
  match x.st with
  | .active => x.stopping 2
  | .starting => { x with pendStop := true, lastStop := 2 }
  | _ => { x with lastStop := 2 }

/-- The core is reset by its watchdog (R195). -/
def watchdogReset (c : Nat) (s : Device) : Device :=
  let s := abortRakes (fun k i => (k = 1 || k = 2) && i = c) (modCore c Core.wdtReset s)
  let s := raise (coreSource c) 2 0x05 0 s
  let (b, s) := freshDigest s
  let (a, s) := freshDigest s
  selfRec 0x04 c 0x800B 0 b a s

/-- A write of CORE_CTL.EN (R37, R38, R41, R42, R171). -/
def Core.ctlWrite (en : Bool) (x : Core) : Core :=
  let x := { x with en }
  match x.st with
  | .idle => if en then x.starting else x
  | .starting => if en then x else { x with pendStop := true, lastStop := 1 }
  | .active => if en then x else x.stopping 1
  | .stopping => x
  | .fault => if en then x else x.idleEntry

/-- An enable is pending behind a shutdown (R41): accepted and deferred. -/
def Core.defers (x : Core) : Bool := x.st = .stopping || (x.st = .starting && x.pendStop)

/-- The stop is complete: IDLE, which samples EN (R41); the SELF record of a deferred enable (R44). -/
def coreStopped (c : Nat) (s : Device) : Device :=
  let x := coreAt s c
  if x.st = .stopping ∧ !x.dma0.busy ∧ !x.dma1.busy ∧ (coreIoAt s c).lOut.isEmpty ∧ (coreIoAt s c).uOut.isEmpty then
    let y := x.idleEntry
    let y := if y.en then y.starting else y
    let s := setCore c { y with deferral := none } s
    if x.en ∧ x.deferral.isSome then selfRec 0x04 c 0x8004 0 0 1 s else s
  else s

/-- STARTING ends after its 4 cycles (R192). -/
def coreStarted (c : Nat) (s : Device) : Device :=
  modCore c (fun x => if x.st = .starting then (if x.pendStop then { x with st := .active, pendStop := false }.stopping x.lastStop.toNat else { x with st := .active }) else x) s

/-- A core that C3, a plot reset or a command stops (R192, R541). -/
def stopCore (why c : Nat) (clearEn : Bool) (s : Device) : Device :=
  modCore c (fun x =>
    let halted := x.dbg.halted || x.dbg.halting
    let x := if clearEn then { x with en := false } else x
    let x := match x.st with
      | .active => x.stopping why
      | .starting => if clearEn then { x with pendStop := true, lastStop := BitVec.ofNat 3 why } else x.stopping why
      | .fault => if clearEn then x.idleEntry else x
      | _ => x
    if halted then { x with dbg := { x.dbg with tgtReset := true } } else x) s

/-! ## Timer and watchdog (R193 to R197) -/

/-- The timer reaches 0: source 0 pends and the count reloads if PERIODIC. -/
def timerZero (c : Nat) (s : Device) : Device :=
  pend c 0 (modCore c (fun x => { x with timerCnt := if x.periodic then x.timerLoad else 0 }) s)

/-- One count of the timer. -/
def timerCount (c : Nat) (s : Device) : Device :=
  let x := coreAt s c
  if x.timerCnt = 1 then timerZero c s
  else if x.timerCnt = 0 then s
  else setCore c { x with timerCnt := x.timerCnt - 1 } s

def timerRuns (s : Device) (c : Nat) : Bool :=
  let x := coreAt s c
  x.timerEn && x.st = .active && !frozenBit s c 0

/-- One cycle of the prescaler. -/
def timerCycle (c : Nat) (s : Device) : Device :=
  if timerRuns s c then
    let x := coreAt s c
    if x.prescale.toNat ≤ x.preCnt then timerCount c (setCore c { x with preCnt := 0 } s)
    else setCore c { x with preCnt := x.preCnt + 1 } s
  else s

/-- A watchdog expiry (R195); during a halt or a stall that does not freeze the watchdog any expiry resets the core (R197). -/
def wdtExpire (c : Nat) (s : Device) : Device :=
  let x := coreAt s c
  if (x.dbg.halted || (x.st = .active && stalledNow s c)) && !x.freeze.getLsbD 1 then
    watchdogReset c (setCore c { x with
      dstat := x.dstat ||| 0x10, dbg := { x.dbg with haltReq := false, tgtReset := true } } s)
  else if !x.wdtStage && x.wdtAction then
    pend c 1 (setCore c { x with wdtCnt := wdtLoad x, wdtStage := true } s)
  else watchdogReset c (setCore c { x with wdtCnt := 0 } s)

def wdtRuns (s : Device) (c : Nat) : Bool :=
  let x := coreAt s c
  x.wdtEn && x.st = .active && !frozenBit s c 1

/-- One count of the watchdog. -/
def wdtCount (c : Nat) (s : Device) : Device :=
  let x := coreAt s c
  if x.wdtCnt = 1 then wdtExpire c s
  else if x.wdtCnt = 0 then s
  else setCore c { x with wdtCnt := x.wdtCnt - 1 } s

def wdtCycle (c : Nat) (s : Device) : Device :=
  if wdtRuns s c then
    let x := coreAt s c
    if 1023 ≤ x.wdtPre then wdtCount c (setCore c { x with wdtPre := 0 } s)
    else setCore c { x with wdtPre := x.wdtPre + 1 } s
  else s

/-- A write to WDT_SERVICE (R194). -/
def wdtService (c : Nat) (v : Word32) (s : Device) : Device :=
  let x := coreAt s c
  if v = 0x5AFE then setCore c { x with wdtCnt := wdtLoad x, wdtStage := false } s
  else wdtExpire c s

/-- On release from a halt or a stall with FREEZE.WDT set (R197). -/
def Core.wdtRelease (x : Core) : Core :=
  if x.freeze.getLsbD 1 then { x with wdtCnt := wdtLoad x, dstat := x.dstat ||| 0x4 } else x

/-! ## DMA (R199) -/

def dmaOf (x : Core) (ch : Nat) : Dma := if ch = 0 then x.dma0 else x.dma1
def setDma (ch : Nat) (d : Dma) (x : Core) : Core := if ch = 0 then { x with dma0 := d } else { x with dma1 := d }
def modDma (c ch : Nat) (f : Dma → Dma) (s : Device) : Device := modCore c (fun x => setDma ch (f (dmaOf x ch)) x) s

/-- DMA_CTL.START is written (R199). -/
def Dma.start (d : Dma) : Dma :=
  let n := d.len.toNat
  let m := d.smode.toNat
  let bad := d.busy || n = 0 || decide (2 ^ 24 < n) || decide (4 < m)
    || (m ≠ 0 && decide (n % 16 ≠ 0))
    || ((m = 1 || m = 2) && decide (d.dst.toNat % 16 ≠ 0)) || ((m = 3 || m = 4) && decide (d.src.toNat % 16 ≠ 0))
  if bad then { d with refused := true }
  else { d with busy := true, tSrc := d.src.toNat % 2 ^ 48, tDst := d.dst.toNat % 2 ^ 48, tLen := n, tMode := m,
                next := 0, put := 0, fin := 0, reads := [], writes := [], ready := [], stop := none }

/-- ERR and its code, and source 2 + ch if IRQ. -/
def dmaError (c ch : Nat) (code : Byte) (s : Device) : Device :=
  let s := modDma c ch (fun d => { d with err := true, code }) s
  if (dmaOf (coreAt s c) ch).irq then pend c (2 + ch) s else s

/-- The transfer ends: DONE, or ERR where it was aborted; an error response has set ERR as it came. -/
def dmaEnd (c ch : Nat) (s : Device) : Device :=
  let d := dmaOf (coreAt s c) ch
  if d.busy && d.reads.isEmpty && d.writes.isEmpty then
    match d.stop with
    | some code =>
      let s := modDma c ch (fun d => { d with busy := false, ready := [], stop := none }) s
      if code = aborted then dmaError c ch code s else s
    | none =>
      if d.fin = d.tLen then
        let s := modDma c ch (fun d => { d with busy := false, done := true }) s
        if d.irq then pend c (2 + ch) s else s
      else s
  else s

/-- Bytes of the next request: up to 256, ending at a 256-byte boundary of each side that has an address. DEDUCED (log 47). -/
def Dma.chunk (d : Dma) (off : Nat) : Nat :=
  let left := d.tLen - off
  let a := if d.tMode = 1 ∨ d.tMode = 2 then 256 else 256 - (d.tSrc + off) % 256
  let b := if d.tMode = 3 ∨ d.tMode = 4 then 256 else 256 - (d.tDst + off) % 256
  Nat.min left (Nat.min a b)

def dmaReq (c ch addr : Nat) (data : List Byte) (n : Nat) : TrlReq :=
  { init := dmaInit c ch, tag := none, enters := false, odd := none, addr := BitVec.ofNat 48 addr,
    len := BitVec.ofNat 2 ((addr % 64 + n - 1) / 64), bcnt := BitVec.ofNat 8 (n - 1), data, opA := 0, opB := 0 }

/-- The channel's requests are held back: the core stops or is frozen (R192, R197). -/
def dmaHeld (s : Device) (c : Nat) : Bool :=
  let x := coreAt s c
  x.st = .stopping || x.st = .fault || frozenBit s c 2

/-- The inbound stream of a core is enabled and its core takes tokens (R203). -/
def streamsRun (s : Device) (c : Nat) (upper : Bool) : Bool :=
  let x := coreAt s c
  x.st = .active && !x.dbg.halted && (if upper then x.enU else x.enL)

/-- Issues the next write, in ascending order, of data that has been read or of a token that has been taken. -/
def dmaWrite (frozen : Bool) (c ch : Nat) (s : Device) : Option Device :=
  let d := dmaOf (coreAt s c) ch
  match d.ready.find? fun r => r.1 = d.put with
  | none => none
  | some (off, data) =>
    let rest := d.ready.filter fun r => r.1 ≠ off
    match issue frozen .write .xload (dmaReq c ch (d.tDst + off) data data.length) s with
    | none => none
    | some (s, p) =>
      let s := { s with trl := { s.trl with net := s.trl.net ++ [p] } }
      some (modDma c ch (fun d => { d with ready := rest, put := d.put + data.length, writes := d.writes ++ [(p.tag.toNat, off, data.length)] }) s)

/-- Issues one read. -/
def dmaRead (frozen : Bool) (c ch : Nat) (s : Device) : Option Device :=
  let d := dmaOf (coreAt s c) ch
  if d.next < d.tLen ∧ d.tMode ≠ 1 ∧ d.tMode ≠ 2 then
    let n := d.chunk d.next
    match issue frozen .read .xload (dmaReq c ch (d.tSrc + d.next) [] n) s with
    | none => none
    | some (s, p) =>
      let s := { s with trl := { s.trl with net := s.trl.net ++ [p] } }
      some (modDma c ch (fun d => { d with next := d.next + n, reads := d.reads ++ [(p.tag.toNat, d.next, n)] }) s)
  else none

/-- Takes one token from an inbound stream, to be written as 16 bytes. -/
def dmaTake (c ch : Nat) (s : Device) : Option Device :=
  let d := dmaOf (coreAt s c) ch
  let io := coreIoAt s c
  let up := decide (d.tMode = 2)
  if (d.tMode = 1 ∨ d.tMode = 2) ∧ d.next < d.tLen ∧ d.ready.isEmpty ∧ streamsRun s c up then
    match (if up then io.uIn else io.lIn) with
    | [] => none
    | t :: rest =>
      let s := setCoreIo c (if up then { io with uIn := rest } else { io with lIn := rest }) s
      some (modDma c ch (fun d => { d with next := d.next + 16, ready := [(d.next, leBytes 16 t.toNat)] }) s)
  else none

/-- Places one token that has been read into a transmit buffer, in ascending order. -/
def dmaPut (c ch : Nat) (s : Device) : Option Device :=
  let d := dmaOf (coreAt s c) ch
  let io := coreIoAt s c
  let up := decide (d.tMode = 4)
  if (d.tMode = 3 ∨ d.tMode = 4) ∧ streamsRun s c up ∧ (if up then io.uOut else io.lOut).length < 2 then
    match d.ready.find? fun r => r.1 = d.fin with
    | none => none
    | some (off, data) =>
      let t := BitVec.ofNat 128 (ofLe (data.take 16))
      let s := setCoreIo c (if up then { io with uOut := io.uOut ++ [t] } else { io with lOut := io.lOut ++ [t] }) s
      let rest := d.ready.filter fun r => r.1 ≠ off
      let rest := if 16 < data.length then (off + 16, data.drop 16) :: rest else rest
      some (modDma c ch (fun d => { d with ready := rest, fin := d.fin + 16 }) s)
  else none

/-- One action of a channel. -/
def dmaStep (frozen : Bool) (c ch : Nat) (s : Device) : Option Device :=
  let d := dmaOf (coreAt s c) ch
  if !d.busy || d.stop.isSome || dmaHeld s c then none
  else if d.tMode = 3 ∨ d.tMode = 4 then (dmaPut c ch s).or (dmaRead frozen c ch s)
  else (dmaWrite frozen c ch s).or ((dmaRead frozen c ch s).or (dmaTake c ch s))

/-- A tick's worth of a channel's work, then its end if nothing is left. -/
def dmaTick (frozen : Bool) (c ch : Nat) (s : Device) : Device :=
  dmaEnd c ch (((dmaStep frozen c ch s).getD s))

/-- A response reaches a channel (R199). -/
def dmaResponse (c ch tag : Nat) (rc : Byte) (data : List Byte) (s : Device) : Device :=
  let d := dmaOf (coreAt s c) ch
  let rd := d.reads.find? fun r => r.1 = tag
  let wr := d.writes.find? fun r => r.1 = tag
  let drop (d : Dma) : Dma := { d with reads := d.reads.filter (·.1 ≠ tag), writes := d.writes.filter (·.1 ≠ tag) }
  if !d.busy then s
  else if isErr rc then
    if rd.isSome || wr.isSome then
      let s := modDma c ch (fun d => (drop d).abort rc) s
      if d.stop.isNone then dmaError c ch rc s else s
    else s
  else match rd, wr with
    | some (_, off, _), _ =>
      modDma c ch (fun d => { drop d with ready := if d.stop.isSome then [] else d.ready ++ [(off, data)] }) s
    | none, some (_, _, n) => modDma c ch (fun d => { drop d with fin := d.fin + n }) s
    | none, none => s

end Sys2Proof.Machine
end

