-- ==== Sys2Proof/Machine/CoreCsr.lean ====
section
/-! DEFINITION. The register block of a Fraelm core (R204). -/
namespace Sys2Proof.Machine
open Sys2Proof

def coreWidth (off : Nat) : Option (Nat × Nat) :=
  let b := off / 4 * 4
  if [0x000, 0x004, 0x008, 0x00C, 0x018, 0x020, 0x024, 0x028, 0x030, 0x034, 0x038, 0x03C, 0x040, 0x048, 0x04C].contains b
  then some (b, 32)
  else if 0x050 ≤ off ∧ off < 0x070 then some (off / 8 * 8, 64)
  else if 0x080 ≤ off ∧ off < 0x0A4 then some (b, 32)
  else if 0x100 ≤ off ∧ off < 0x180 then
    let o := off % 0x40
    if o < 0x10 then some (off / 8 * 8, 64) else if o < 0x1C then some (b, 32) else none
  else none

/-- STREAM_STAT; a stream that is not enabled shows no free entry. DEDUCED (log 148). -/
def streamStat (s : Device) (c : Nat) : Nat :=
  let io := coreIoAt s c
  let j (st : Stream) : Bool := let (b, sd, ch) := streamBed c st; joined s b sd ch
  io.lIn.length + place io.uIn.length 4 + (if (coreAt s c).enL then place (2 - io.lOut.length) 8 else 0) + (if (coreAt s c).enU then place (2 - io.uOut.length) 10 else 0)
    + bit (j .lIn && j .lOut) 12 + bit (j .uIn && j .uOut) 13

def wdtCtl (x : Core) : Nat := bit x.wdtEn 0 + bit x.wdtAction 1 + bit x.wdtLock 2 + bit x.wdtStage 3
def streamCtl (x : Core) : Nat := bit x.enL 0 + bit x.enU 1 + place x.tmo.toNat 16
def headToken (q : List (BitVec 128)) : Nat := ((q.head?).getD 0).toNat

def coreRead (s : Device) (c off : Nat) : Nat :=
  let x := coreAt s c
  let io := coreIoAt s c
  match off with
  | 0x000 => bit x.en 0
  | 0x004 =>
    (match x.st with | .idle => 0 | .starting => 1 | .active => 2 | .stopping => 3 | .fault => 4)
      + bit (x.en && x.st = .stopping) 3 + bit io.unusable 4 + bit x.err 5 + place (coreOwner s c) 8
      + place x.lastStop.toNat 12
  | 0x008 => x.bootPc.toNat + place x.bootVbase.toNat 16
  | 0x00C => x.pcSample.toNat
  | 0x018 => ipendVal s c / 2 ^ 16
  | 0x020 => bit x.timerEn 0 + bit x.periodic 1 + place x.prescale.toNat 8
  | 0x024 => x.timerLoad.toNat
  | 0x028 => x.timerCnt.toNat
  | 0x030 => wdtCtl x
  | 0x034 => x.wdtPeriod.toNat
  | 0x038 => x.wdtCnt.toNat
  | 0x040 => x.freeze.toNat
  | 0x048 => streamCtl x
  | 0x04C => streamStat s c
  | 0x050 => headToken io.lIn % 2 ^ 64
  | 0x058 => headToken io.lIn / 2 ^ 64
  | 0x060 => headToken io.uIn % 2 ^ 64
  | 0x068 => headToken io.uIn / 2 ^ 64
  | _ =>
    if 0x080 ≤ off ∧ off < 0x0A4 then x.regs.ctl (levels s c) (dstatVal x) ((off - 0x080) / 4)
    else if 0x100 ≤ off then
      let d := dmaOf x ((off - 0x100) / 0x40)
      match off % 0x40 with
      | 0x00 => d.src.toNat
      | 0x08 => d.dst.toNat
      | 0x10 => d.len.toNat
      | 0x14 => place d.smode.toNat 1 + bit d.irq 4
      | 0x18 => bit d.busy 0 + bit d.done 1 + bit d.err 2 + bit d.refused 3 + place d.code.toNat 8
      | _ => 0
    else 0

/-- A write to CORE_CTL with its record (R192, R171, R41, R44, R515). -/
def coreCtlWrite (i : InitId) (c : Nat) (v : Nat) (s : Device) : Device :=
  let x := coreAt s c
  let en := bitAt v 0
  if en && (coreIoAt s c).unusable then raise (coreSource c) 0 0xFF 0 s
  else
    let off := coreOff c
    let defers := en && !x.en && x.defers
    let s := if defers then csrDeferred i off (bit x.en 0) (bit en 0) s else csrRecord i off (bit x.en 0) (bit en 0) s
    let y := x.ctlWrite en
    setCore c { y with deferral := if defers then some (stampPlot s i, i.toNat) else if en then y.deferral else none } s

/-- DESIGN CHOICE (log 152). -/
def wdtCtlWrite (i : InitId) (c : Nat) (v : Nat) (s : Device) : Device :=
  let x := coreAt s c
  let y := if x.wdtLock then x else
    let en := bitAt v 0
    { x with wdtEn := en, wdtAction := bitAt v 1
             wdtCnt := if en && !x.wdtEn then wdtLoad x else x.wdtCnt
             wdtStage := if en && !x.wdtEn then false else x.wdtStage }
  let y := { y with wdtLock := x.wdtLock || bitAt v 2 }
  setCore c y (csrRecord i (coreOff c + 0x30) (wdtCtl x % 8) (wdtCtl y % 8) s)

/-- STREAM_CTL; CLR acts only in IDLE (R203). -/
def streamCtlWrite (i : InitId) (c : Nat) (v : Nat) (s : Device) : Device :=
  let x := coreAt s c
  let y := { x with enL := bitAt v 0, enU := bitAt v 1, tmo := BitVec.ofNat 16 (v / 2 ^ 16) }
  let s := setCore c y (csrRecord i (coreOff c + 0x48) (streamCtl x) (streamCtl y) s)
  if bitAt v 2 && x.st = .idle then setCoreIo c { coreIoAt s c with lIn := [], uIn := [] } s else s

def dmaCtlWrite (c ch : Nat) (v : Nat) (s : Device) : Device :=
  modDma c ch (fun d =>
    let d := { d with smode := BitVec.ofNat 3 (v / 2), irq := bitAt v 4 }
    let ends := (coreAt s c).st = .stopping ∨ (coreAt s c).st = .fault
    if bitAt v 0 then (if ends ∧ !d.busy then d.start.abort aborted else d.start) else d) s

/-- A write of the bits of `m` to a register of the block. -/
def coreWrite (i : InitId) (c off v m : Nat) (s : Device) : Device :=
  let x := coreAt s c
  let rec' (old new : Nat) (s : Device) : Device := csrRecord i (coreOff c + off) old new s
  match off with
  | 0x000 => coreCtlWrite i c v s
  | 0x004 => if bitAt v 5 then setCore c { x with err := false } s else s
  | 0x008 =>
    let y := { x with bootPc := BitVec.ofNat 16 (v &&& 0xFFF0), bootVbase := BitVec.ofNat 16 (v / 2 ^ 16 &&& 0xF000) }
    setCore c y (rec' (coreRead s c 8) (y.bootPc.toNat + place y.bootVbase.toNat 16) s)
  | 0x018 => pendMask c (v % 2 ^ 16 * 2 ^ 16) s
  | 0x020 => setCore c { x with timerEn := bitAt v 0, periodic := bitAt v 1, prescale := BitVec.ofNat 8 (v / 2 ^ 8) } s
  | 0x024 => setCore c { x with timerLoad := BitVec.ofNat 32 v, timerCnt := BitVec.ofNat 32 v } s
  | 0x030 => wdtCtlWrite i c v s
  | 0x034 => if x.wdtLock then s else setCore c { x with wdtPeriod := BitVec.ofNat 32 v } (rec' x.wdtPeriod.toNat v s)
  | 0x03C => wdtService c (BitVec.ofNat 32 v) s
  | 0x040 => setCore c { x with freeze := BitVec.ofNat 3 v } (rec' x.freeze.toNat (v % 8) s)
  | 0x048 => streamCtlWrite i c v s
  | 0x088 => setCore c { x with dstat := x.dstat &&& ~~~(BitVec.ofNat 5 (v &&& 0x1C)) } s
  | 0x08C => setCore c { x with regs := x.regs.setCtl 3 all32' v } s
  | 0x090 => setCore c { x with regs := x.regs.setCtl 4 all32' v } s
  | _ =>
    if 0x100 ≤ off then
      let ch := (off - 0x100) / 0x40
      let m48 := 2 ^ 48 - 1
      match off % 0x40 with
      | 0x00 => modDma c ch (fun d => { d with src := BitVec.ofNat 64 (maskWrite d.src.toNat v m &&& m48) }) s
      | 0x08 => modDma c ch (fun d => { d with dst := BitVec.ofNat 64 (maskWrite d.dst.toNat v m &&& m48) }) s
      | 0x10 => modDma c ch (fun d => { d with len := BitVec.ofNat 25 v }) s
      | 0x14 => dmaCtlWrite c ch v s
      | 0x18 => modDma c ch (fun d => { d with done := d.done && !bitAt v 1, err := d.err && !bitAt v 2,
                                               refused := d.refused && !bitAt v 3 }) s
      | _ => s
    else s
where all32' : Nat := 2 ^ 32 - 1

/-- A read of the block, with the half latches and the latch of the PEEK registers (R10, L_IN_PEEK). -/
def coreCsrRead (i : InitId) (c off size : Nat) (s : Device) : Option (Nat × Device) :=
  let upper := off = 0x058 ∨ off = 0x068
  let val := fun o =>
    if upper ∧ o = off / 8 * 8 then (latched i (coreOff c + o + 1) s).getD (coreRead s c o) else coreRead s c o
  match regRead coreWidth val (coreOff c) i off size s with
  | some (v, t) =>
    if off = 0x050 ∨ off = 0x060 then some (v, setLatch i (coreOff c + off + 9) (coreRead s c (off + 8)) t) else some (v, t)
  | none => none

/-- A write of a core's register block (R204). DEDUCED (log 24). -/
def coreCsrWrite (i : InitId) (c off size v : Nat) (s : Device) : Option Device :=
  match regWrite coreWidth off size v with
  | none => none
  | some none => some s
  | some (some (base, v, m)) => some (coreWrite i c base v m s)

end Sys2Proof.Machine
end

