-- ==== Sys2Proof/Machine/Float.lean ====
section
/-! DEFINITION. Floating-point numbers of the Fraelm core: fp16, bf16 and fp32 as exact dyadic numbers, and rounding to
nearest with exact halves toward positive infinity (R181, R182). -/
namespace Sys2Proof.Machine
open Sys2Proof

/-- A floating-point format: exponent and fraction widths. -/
structure FpFmt where
  ew : Nat
  fw : Nat
  deriving DecidableEq, Repr

def fmtHf : FpFmt := ⟨5, 10⟩
def fmtBf : FpFmt := ⟨8, 7⟩
def fmtF : FpFmt := ⟨8, 23⟩

def FpFmt.width (f : FpFmt) : Nat := 1 + f.ew + f.fw
/-- The exponent of the last place of a subnormal number. -/
def FpFmt.emin (f : FpFmt) : Int := 2 - (2 ^ (f.ew - 1) : Nat) - (f.fw : Int)
def FpFmt.inf (f : FpFmt) (neg : Bool) : Nat := bit neg (f.ew + f.fw) + place (2 ^ f.ew - 1) f.fw
/-- The quiet NaN of R181: 0x7FC0_0000, 0x7E00, 0x7FC0. -/
def FpFmt.nan (f : FpFmt) : Nat := place (2 ^ f.ew - 1) f.fw + 2 ^ (f.fw - 1)

/-- A value: NaN, an infinity, or the number `m × 2 ^ e`; `neg` is the sign of a zero. -/
inductive Fp where
  | nan
  | inf (neg : Bool)
  | num (neg : Bool) (m : Int) (e : Int)
  deriving DecidableEq, Repr

def FpFmt.decode (f : FpFmt) (v : Nat) : Fp :=
  let neg := bitAt v (f.ew + f.fw)
  let ex := bitsAt v f.fw f.ew
  let fr := bitsAt v 0 f.fw
  if ex = 2 ^ f.ew - 1 then (if fr = 0 then .inf neg else .nan)
  else
    let m : Int := if ex = 0 then (fr : Int) else ((fr + 2 ^ f.fw : Nat) : Int)
    .num neg (if neg then -m else m) (f.emin + ((if ex = 0 then 0 else ex - 1 : Nat) : Int))

/-- The sign of a number; that of a zero is kept apart. -/
def fpNeg (neg : Bool) (m : Int) : Bool := if m = 0 then neg else decide (m < 0)

/-- Sticky flags of a result, as PSTAT numbers them. -/
def flagSat : Nat := 2
def flagInv : Nat := 4
def flagOvf : Nat := 8
def flagUnf : Nat := 16
def flagInx : Nat := 32

/-- Rounds `m × 2 ^ e` to a multiple of `2 ^ q`, exact halves toward positive infinity; in units of `2 ^ q`. -/
def roundTo (m e q : Int) : Int :=
  if q ≤ e then m * 2 ^ (e - q).toNat
  else (m + 2 ^ ((q - e).toNat - 1)) / 2 ^ (q - e).toNat

/-- The pattern of an exact number in a format, and the flags it sets (R181). -/
def FpFmt.round (f : FpFmt) (neg : Bool) (m e : Int) : Nat × Nat :=
  let sign (n : Bool) : Nat := bit n (f.ew + f.fw)
  if m = 0 then (sign neg, 0)
  else
    let n := decide (m < 0)
    let lg : Int := (Nat.log2 m.natAbs : Int) + e
    let q := max f.emin (lg - (f.fw : Int))
    let r := roundTo m e q
    let exact := decide (q ≤ e) || decide (r * 2 ^ (q - e).toNat = m)
    let a := r.natAbs
    let (a, q) := if a = 2 ^ (f.fw + 1) then (2 ^ f.fw, q + 1) else (a, q)
    let ex : Int := q - f.emin + 1
    let inx := if exact then 0 else flagInx
    if a < 2 ^ f.fw then (sign n + a, inx + flagUnf)
    else if ((2 ^ f.ew - 1 : Nat) : Int) ≤ ex then (f.inf n, flagOvf + flagInx)
    else (sign n + place ex.toNat f.fw + (a - 2 ^ f.fw), inx)

/-- The pattern of a value in a format; a NaN result sets FINV (R181). -/
def FpFmt.encode (f : FpFmt) : Fp → Nat × Nat
  | .nan => (f.nan, flagInv)
  | .inf n => (f.inf n, 0)
  | .num neg m e => f.round neg m e

def Fp.neg : Fp → Fp
  | .nan => .nan
  | .inf n => .inf (!n)
  | .num n m e => .num (!n) (-m) e

def Fp.abs : Fp → Fp
  | .nan => .nan
  | .inf _ => .inf false
  | .num _ m e => .num false (if m < 0 then -m else m) e

/-- The exact sum. A sum of two zeros of unlike sign, and an exact cancellation, is +0. PRESUMED (log 35). -/
def Fp.add : Fp → Fp → Fp
  | .nan, _ => .nan
  | _, .nan => .nan
  | .inf a, .inf b => if a = b then .inf a else .nan
  | .inf a, _ => .inf a
  | _, .inf b => .inf b
  | .num n m e, .num n' m' e' =>
    let q := min e e'
    let x := m * 2 ^ (e - q).toNat + m' * 2 ^ (e' - q).toNat
    .num (if m = 0 ∧ m' = 0 then n && n' else false) x q

/-- The exact product. -/
def Fp.mul : Fp → Fp → Fp
  | .nan, _ => .nan
  | _, .nan => .nan
  | .inf a, .inf b => .inf (a != b)
  | .inf a, .num n m _ => if m = 0 then .nan else .inf (a != fpNeg n m)
  | .num n m _, .inf b => if m = 0 then .nan else .inf (fpNeg n m != b)
  | .num n m e, .num n' m' e' => .num (fpNeg n m != fpNeg n' m') (m * m') (e + e')

/-- `a < b` and `a ≤ b` of numbers and infinities; a NaN makes either false. -/
def Fp.lt : Fp → Fp → Bool
  | .nan, _ => false
  | _, .nan => false
  | .inf a, .inf b => a && !b
  | .inf a, .num _ _ _ => a
  | .num _ _ _, .inf b => !b
  | .num _ m e, .num _ m' e' =>
    let q := min e e'
    decide (m * 2 ^ (e - q).toNat < m' * 2 ^ (e' - q).toNat)

def Fp.isNan : Fp → Bool
  | .nan => true
  | _ => false

def Fp.le (a b : Fp) : Bool := !a.isNan && !b.isNan && !b.lt a
def Fp.eq (a b : Fp) : Bool := a.le b && b.le a

/-- Clamps to the signed range of `b` bits (R180); the flag tells whether it clamped. -/
def clampS (b : Nat) (x : Int) : Int × Bool :=
  let hi : Int := 2 ^ (b - 1) - 1
  let lo : Int := -(2 ^ (b - 1))
  if hi < x then (hi, true) else if x < lo then (lo, true) else (x, false)

/-- Half-up rounding of a right shift (R179). -/
def shrRound (x : Int) (n : Nat) : Int := if n = 0 then x else (x + 2 ^ (n - 1)) / 2 ^ n

/-- A floating-point value as an integer of `b` bits (R182). -/
def Fp.toInt (b : Nat) : Fp → Int × Nat
  | .nan => (0, flagInv)
  | .inf n => (if n then -(2 ^ (b - 1)) else 2 ^ (b - 1) - 1, flagSat)
  | .num _ m e =>
    let (x, c) := clampS b (roundTo m e 0)
    (x, if c then flagSat else 0)

end Sys2Proof.Machine
end

