-- ==== Sys2Proof/Machine/Vector.lean ====
section
/-! DEFINITION. The VX operations (R209, R210, R213, R214): encodings, element views, guards, results, flags and latencies. -/
namespace Sys2Proof.Machine
open Sys2Proof

/-! ## Syllable fields (R206, R209) -/

def synGrd (w : Word32) : Nat := bitsAt w.toNat 27 5
def synOp (w : Word32) : Nat := bitsAt w.toNat 21 6
/-- Unguarded, or guarded by a predicate name (R207). -/
def grdOk (w : Word32) : Bool := synGrd w = 0 || decide (16 ≤ synGrd w)
def vxD (w : Word32) : Nat := bitsAt w.toNat 15 6
def vxA (w : Word32) : Nat := bitsAt w.toNat 9 6
def vxB (w : Word32) : Nat := bitsAt w.toNat 3 6
def vxT (w : Word32) : Nat := bitsAt w.toNat 0 3

/-- The type codes that an operation lists (R213). -/
def vxTypes (op : Nat) : List Nat :=
  if op = 0x01 ∨ (0x04 ≤ op ∧ op ≤ 0x07) ∨ op = 0x2A then [0]
  else if op = 0x02 ∨ op = 0x03 ∨ op = 0x08 ∨ op = 0x09 ∨ op = 0x0E ∨ op = 0x0F ∨ (0x18 ≤ op ∧ op ≤ 0x1B) then [0, 1, 2, 3, 4, 5, 6]
  else if op = 0x0A ∨ op = 0x0B then [0, 1, 2, 6]
  else if op = 0x0C ∨ op = 0x0D ∨ (0x14 ≤ op ∧ op ≤ 0x16) ∨ op = 0x1E then [0, 1, 2, 3, 4, 5]
  else if (0x10 ≤ op ∧ op ≤ 0x13) ∨ op = 0x17 ∨ (0x22 ≤ op ∧ op ≤ 0x24) then [0, 1, 2]
  else if op = 0x1C ∨ op = 0x1D ∨ (0x25 ≤ op ∧ op ≤ 0x27) then [6]
  else if 0x1F ≤ op ∧ op ≤ 0x21 then [3, 4, 5]
  else if op = 0x28 ∨ op = 0x29 then [1, 2, 6]
  else []

/-- Operations listed for VX0 only. -/
def vx0Only (op : Nat) : Bool := decide (0x1F ≤ op ∧ op ≤ 0x27)

/-- The syllable is no reserved encoding in its slot (R208). -/
def vxOk (slot1 : Bool) (w : Word32) : Bool :=
  let op := synOp w
  let d := vxD w
  let a := vxA w
  let b := vxB w
  let t := vxT w
  grdOk w && (op = 0 ||
    ((vxTypes op).contains t && !(slot1 && vx0Only op)
      && (op ≠ 0x02 || decide (a < 32))
      && ((op ≠ 0x0E && op ≠ 0x0F && op ≠ 0x1D) || b = 0)
      && (!(0x14 ≤ op && op ≤ 0x17) || decide (d < 16))
      && (op ≠ 0x1C || decide (b ≤ 1))
      && (op ≠ 0x1E || decide (b ≤ 5))
      && (!(0x22 ≤ op && op ≤ 0x27) || decide (d < 8))
      && (op ≠ 0x28 || (decide (a < 8) && (t = 2 || decide (b ≤ 47))))
      && (op ≠ 0x29 || (decide (d < 8) && (t = 2 || decide (b ≤ 31))))
      && (op ≠ 0x2A || (decide (d < 8) && a = 0 && b = 0))))

/-! ## Element views (R164, R207, R210) -/

/-- Bits of one component: a complex lane has two of 16 bits. -/
def compBits (t : Nat) : Nat := match t with | 0 => 8 | 2 => 32 | 5 => 32 | _ => 16
/-- Bits of one element lane. -/
def elemBits (t : Nat) : Nat := if t = 6 then 32 else compBits t
def fmtOf (t : Nat) : FpFmt := match t with | 3 => fmtHf | 4 => fmtBf | _ => fmtF
def isFloat (t : Nat) : Bool := t = 3 || t = 4 || t = 5

def lanes (w n v : Nat) : List Nat := (List.range n).map fun i => bitsAt v (i * w) w
def packLanes (w : Nat) : List Nat → Nat
  | [] => 0
  | x :: xs => x % 2 ^ w + place (packLanes w xs) w
def signedLanes (w n v : Nat) : List Int := (lanes w n v).map (toSigned w)

/-- A guard: the predicate's value, or unguarded. -/
abbrev Guard := Option Nat
def guardBit (g : Guard) (i : Nat) : Bool := match g with | none => true | some p => bitAt p i

/-- The bits of a destination that a guard lets lane `j` of `bits` write, given the predicate bit of each lane. -/
def laneMask (g : Guard) (bits n : Nat) (idx : Nat → Nat) : Nat :=
  packLanes bits ((List.range n).map fun j => if guardBit g (idx j) then 2 ^ bits - 1 else 0)

/-- The flags of the lanes that are written. -/
def laneFlags (g : Guard) (idx : Nat → Nat) (fs : List Nat) : Nat :=
  fs.zipIdx.foldl (fun acc x => if guardBit g (idx x.2) then acc ||| x.1 else acc) 0

def withFlags (lat f : Nat) (l : List (Nat × Landing)) : List (Nat × Landing) :=
  if f = 0 then l else l ++ [(lat, .flags f)]

/-- Writes of `bits`-wide pieces to a vector register under a guard. -/
def writeV (lat : Nat) (g : Guard) (vd bits : Nat) (idx : Nat → Nat) (res : List (Nat × Nat)) : List (Nat × Landing) :=
  withFlags lat (laneFlags g idx (res.map (·.2)))
    [(lat, .write ⟨.v, vd⟩ (laneMask g bits res.length idx) (packLanes bits (res.map (·.1))))]

/-- The predicate bit that governs component `j` of a view. -/
def compIdx (t : Nat) (j : Nat) : Nat := if t = 6 then j / 2 * 4 else j * (compBits t / 8)
/-- The predicate bit that governs element lane `j`. -/
def elemIdx (t : Nat) (j : Nat) : Nat := j * (elemBits t / 8)

/-! ## Component operations -/

def wrapS (w : Nat) (x : Int) : Nat × Nat := (ofSigned w x, 0)
def satS (w : Nat) (x : Int) : Nat × Nat :=
  let (y, c) := clampS w x
  (ofSigned w y, if c then flagSat else 0)

/-- An integer or floating-point component operation. -/
def arith (t : Nat) (fi : Int → Int → Nat × Nat) (ff : Fp → Fp → Fp) (a b : Nat) : Nat × Nat :=
  if isFloat t then (fmtOf t).encode (ff ((fmtOf t).decode a) ((fmtOf t).decode b))
  else fi (toSigned (compBits t) a) (toSigned (compBits t) b)

/-- Minimum and maximum (R213). Of two zeros of unlike sign the manual states no order: `pick` chooses. DESIGN CHOICE (log 36), DESIGN CHOICE (log 151). -/
def fpMinMax (max : Bool) (t : Nat) (pick : Bool) (a b : Nat) : Nat × Nat :=
  let f := fmtOf t
  let x := f.decode a
  let y := f.decode b
  if x.isNan || y.isNan then (f.nan, flagInv)
  else if x.lt y then (if max then b else a, 0)
  else if y.lt x then (if max then a else b, 0)
  else (if pick then a else b, 0)

def minMax (max : Bool) (t fr j a b : Nat) : Nat × Nat :=
  if isFloat t then fpMinMax max t (bitAt fr j) a b
  else
    let x := toSigned (compBits t) a
    let y := toSigned (compBits t) b
    (if max then (if x < y then b else a) else (if y < x then b else a), 0)

/-- A comparison of R213: equal, less, less or equal, unsigned less. DEDUCED (log 37). -/
def compare' (op t a b : Nat) : Bool :=
  if isFloat t then
    let x := (fmtOf t).decode a
    let y := (fmtOf t).decode b
    match op with | 0x14 => x.eq y | 0x15 => x.lt y | _ => x.le y
  else
    let x := toSigned (compBits t) a
    let y := toSigned (compBits t) b
    match op with | 0x14 => decide (a = b) | 0x15 => decide (x < y) | 0x16 => decide (x ≤ y) | _ => decide (a < b)

/-- Shifts by an immediate (R213); a shift by the lane width or more moves every bit out. -/
def shiftOp (op w n a : Nat) : Nat :=
  let x := toSigned w a
  match op with
  | 0x10 => (a <<< n) % 2 ^ w
  | 0x11 => a >>> n
  | 0x12 => ofSigned w (x / 2 ^ n)
  | _ => ofSigned w (shrRound x n)

/-- Conversion of one component (R182, R213). -/
def convert (t d a : Nat) : Nat × Nat :=
  match isFloat t, isFloat d with
  | true, true => (fmtOf d).encode ((fmtOf t).decode a)
  | true, false =>
    let (x, f) := ((fmtOf t).decode a).toInt (compBits d)
    (ofSigned (compBits d) x, f)
  | false, true => (fmtOf d).encode (.num false (toSigned (compBits t) a) 0)
  | false, false => satS (compBits d) (toSigned (compBits t) a)

/-! ## Accumulator operations (R164, R214) -/

def acLane (t : Nat) : Nat := if t = 2 then 96 else 48
def acCount (t : Nat) : Nat := if t = 2 then 16 else 32
/-- The predicate bit that governs an accumulator lane (R207). -/
def acIdx (t : Nat) (k : Nat) : Nat := if t = 2 then 4 * k else 2 * k

/-- The products of VMUL: two byte products a lane, or one. -/
def products (t a b : Nat) : List Int :=
  let x := signedLanes (compBits t) (512 / compBits t) a
  let y := signedLanes (compBits t) (512 / compBits t) b
  let p := (x.zip y).map fun z => z.1 * z.2
  if t = 0 then (List.range 32).map fun i => p.getD (2 * i) 0 + p.getD (2 * i + 1) 0 else p

/-- Complex products: real parts in even lanes, imaginary parts in odd lanes. -/
def complexProducts (conj : Bool) (a b : Nat) : List Int :=
  let x := signedLanes 16 32 a
  let y := signedLanes 16 32 b
  (List.range 32).map fun k =>
    let i := k / 2
    let ar := x.getD (2 * i) 0
    let ai := x.getD (2 * i + 1) 0
    let br := y.getD (2 * i) 0
    let bi := if conj then -(y.getD (2 * i + 1) 0) else y.getD (2 * i + 1) 0
    if k % 2 = 0 then ar * br - ai * bi else ar * bi + ai * br

def packAc (t : Nat) (xs : List Int) : Nat := packLanes (acLane t) (xs.map (ofSigned (acLane t)))
def acMask (t : Nat) (g : Guard) : Nat := laneMask g (acLane t) (acCount t) (acIdx t)

/-- The latency of an operation (R172). -/
def vxLatency (op : Nat) : Nat := if 0x1F ≤ op ∧ op ≤ 0x27 then 4 else 2

/-- What a VX syllable does, its source registers read at issue (R172, R213). `rd` reads a register; `grd` is the value
of the guard predicate; `fr` is a free value for the order of zeros. DEDUCED (log 38). -/
def vxExec (w : Word32) (rd : Reg → Nat) (rrb : Word32) (g : Guard) (fr : Nat) : List (Nat × Landing) :=
  let op := synOp w
  let t := vxT w
  let imm := vxB w
  let vd := physV rrb (vxD w)
  let a := rd ⟨.v, physV rrb (vxA w)⟩
  let b := rd ⟨.v, physV rrb (vxB w)⟩
  let lat := vxLatency op
  let cb := compBits t
  let n := 512 / cb
  let eb := elemBits t
  let ne := 512 / eb
  let out (res : List (Nat × Nat)) := writeV lat g vd cb (compIdx t) res
  let outE (res : List Nat) := writeV lat g vd eb (elemIdx t) (res.map fun x => (x, 0))
  let map2 (f : Nat → Nat → Nat × Nat) := out (((lanes cb n a).zip (lanes cb n b)).map fun x => f x.1 x.2)
  let map1 (f : Nat → Nat × Nat) := out ((lanes cb n a).map f)
  let bitwise (v : Nat) := [(lat, Landing.write ⟨.v, vd⟩ (laneMask g 8 64 id) v)]
  if op = 0x00 then []
  else if op = 0x01 then bitwise a
  else if op = 0x02 then
    let x := rd ⟨.s, vxA w⟩ % 2 ^ eb
    outE ((List.range ne).map fun _ => x)
  else if op = 0x03 then
    let res := ((lanes eb ne a).zip (lanes eb ne b)).zipIdx.map fun x =>
      if guardBit g (elemIdx t x.2) then x.1.1 else x.1.2
    [(lat, .write ⟨.v, vd⟩ (2 ^ 512 - 1) (packLanes eb res))]
  else if op = 0x04 then bitwise (a &&& b)
  else if op = 0x05 then bitwise (a ||| b)
  else if op = 0x06 then bitwise (a ^^^ b)
  else if op = 0x07 then bitwise (a &&& ((2 ^ 512 - 1) ^^^ b))
  else if op = 0x08 then map2 (arith t (fun x y => wrapS cb (x + y)) Fp.add)
  else if op = 0x09 then map2 (arith t (fun x y => wrapS cb (x - y)) (fun x y => x.add y.neg))
  else if op = 0x0A then map2 (arith t (fun x y => satS cb (x + y)) Fp.add)
  else if op = 0x0B then map2 (arith t (fun x y => satS cb (x - y)) (fun x y => x.add y.neg))
  else if op = 0x0C ∨ op = 0x0D then
    out (((lanes cb n a).zip (lanes cb n b)).zipIdx.map fun x => minMax (op = 0x0D) t fr x.2 x.1.1 x.1.2)
  else if op = 0x0E then map1 fun x => arith t (fun y _ => satS cb (if y < 0 then -y else y)) (fun y _ => y.abs) x 0
  else if op = 0x0F then map1 fun x => arith t (fun y _ => satS cb (-y)) (fun y _ => y.neg) x 0
  else if 0x10 ≤ op ∧ op ≤ 0x13 then map1 fun x => (shiftOp op cb imm x, 0)
  else if 0x14 ≤ op ∧ op ≤ 0x17 then
    let p := packLanes (cb / 8) (((lanes cb n a).zip (lanes cb n b)).map fun x =>
      if compare' op t x.1 x.2 then 2 ^ (cb / 8) - 1 else 0)
    [(lat, .write ⟨.p, physP rrb (vxD w)⟩ (g.getD (2 ^ 64 - 1)) p)]
  else if op = 0x18 ∨ op = 0x19 then
    let h := if op = 0x18 then 0 else ne / 2
    let x := lanes eb ne a
    let y := lanes eb ne b
    outE ((List.range ne).map fun i => if i % 2 = 0 then x.getD (i / 2 + h) 0 else y.getD (i / 2 + h) 0)
  else if op = 0x1A ∨ op = 0x1B then
    let z := lanes eb ne a ++ lanes eb ne b
    outE ((List.range ne).map fun i => z.getD (2 * i + (op - 0x1A)) 0)
  else if op = 0x1C ∨ op = 0x1D then
    let x := signedLanes 16 32 a
    out ((List.range 32).map fun k =>
      let re := x.getD (k / 2 * 2) 0
      let im := x.getD (k / 2 * 2 + 1) 0
      if op = 0x1D then (if k % 2 = 0 then satS 16 re else satS 16 (-im))
      else if imm = 0 then (if k % 2 = 0 then satS 16 (-im) else satS 16 re)
      else (if k % 2 = 0 then satS 16 im else satS 16 (-re)))
  else if op = 0x1E then
    let d := imm % 8
    let cnt := 512 / (Nat.max cb (compBits d))
    writeV lat g vd (compBits d) (compIdx d) (((List.range (512 / compBits d)).map fun i =>
      if i < cnt then convert t d (bitsAt a (i * cb) cb) else (0, 0)))
  else if 0x1F ≤ op ∧ op ≤ 0x21 then
    let f := fmtOf t
    let old := lanes cb n (rd ⟨.v, vd⟩)
    out (((lanes cb n a).zip (lanes cb n b)).zipIdx.map fun x =>
      let p := (f.decode x.1.1).mul (f.decode x.1.2)
      let c := f.decode (old.getD x.2 0)
      f.encode (if op = 0x1F then c.add p else if op = 0x20 then c.add p.neg else p))
  else if op = 0x22 then [(lat, .write ⟨.ac, vxD w⟩ (acMask t g) (packAc t (products t a b)))]
  else if op = 0x23 then [(lat, .accum (vxD w) (acLane t) (acMask t g) (packAc t (products t a b)))]
  else if op = 0x24 then [(lat, .accum (vxD w) (acLane t) (acMask t g) (packAc t ((products t a b).map fun x => -x)))]
  else if op = 0x25 then [(lat, .write ⟨.ac, vxD w⟩ (acMask t g) (packAc t (complexProducts false a b)))]
  else if op = 0x26 ∨ op = 0x27 then
    [(lat, .accum (vxD w) (acLane t) (acMask t g) (packAc t (complexProducts (op = 0x27) a b)))]
  else if op = 0x28 then
    let ac := signedLanes (acLane t) (acCount t) (rd ⟨.ac, vxA w⟩)
    out (ac.map fun x => satS cb (shrRound x imm))
  else if op = 0x29 then
    let x := signedLanes cb n a
    [(lat, .write ⟨.ac, vxD w⟩ (acMask t g) (packAc t (x.map fun y => y * 2 ^ imm)))]
  else if op = 0x2A then [(lat, .write ⟨.ac, vxD w⟩ (acMask t g) 0)]
  else []

end Sys2Proof.Machine
end

