-- ==== Sys2Proof/Machine/Scalar.lean ====
section
/-! DEFINITION. The SC operations (R212, R217 to R228): encodings, results, branches, loops, repetitions and locks; and the address
arithmetic and encodings of the LS slot (R176 to R178, R211, R215). -/
namespace Sys2Proof.Machine
open Sys2Proof

/-! ## SC fields (R212) -/

def scD (w : Word32) : Nat := bitsAt w.toNat 16 5
def scA (w : Word32) : Nat := bitsAt w.toNat 11 5
def scB (w : Word32) : Nat := bitsAt w.toNat 6 5
def scImm11 (w : Word32) : Nat := bitsAt w.toNat 0 11
def scImm16 (w : Word32) : Nat := bitsAt w.toNat 0 16
def scDf (w : Word32) : Nat := bitsAt w.toNat 13 3
def scSrc (w : Word32) : Nat := bitsAt w.toNat 8 5
def scSf (w : Word32) : Nat := bitsAt w.toNat 5 3
def scPd (w : Word32) : Nat := bitsAt w.toNat 17 4
def scTgt (w : Word32) : Nat := bitsAt w.toNat 0 12

/-- Sizes of the files of R218. -/
def fileSize : Nat → Nat
  | 0 => 32 | 1 => 16 | 2 => 16 | 3 => 8 | 4 => 8 | 5 => 9 | 6 => 8 | _ => 0
def fileOf : Nat → RegFile
  | 0 => .s | 1 => .a | 2 => .m | 3 => .b | 4 => .l | 5 => .ctl | _ => .loop

/-- Branch, call, return, RETI and BRN (R219). -/
def isBranch (op : Nat) : Bool := decide (0x30 ≤ op ∧ op ≤ 0x35) || op = 0x3D
def isLoop (op : Nat) : Bool := op = 0x36 || op = 0x37
def isRpt (op : Nat) : Bool := op = 0x38
def isLock (op : Nat) : Bool := op = 0x39

/-- The syllable is no reserved encoding (R208, R212, R217). DEDUCED (log 39). -/
def scOk (w : Word32) : Bool :=
  let op := synOp w
  let v := w.toNat
  grdOk w && (op = 0
    || (decide (1 ≤ op ∧ op ≤ 0x0C) && bitsAt v 0 6 = 0)
    || (decide (0x10 ≤ op ∧ op ≤ 0x13) || op = 0x17)
    || (decide (0x14 ≤ op ∧ op ≤ 0x16) && bitsAt v 5 6 = 0)
    || op = 0x18 || op = 0x19
    || (op = 0x1A && bitsAt v 0 5 = 0 && decide (scD w < fileSize (scDf w)) && decide (scSrc w < fileSize (scSf w)))
    || (op = 0x1B && bitsAt v 0 6 = 0)
    || (decide (0x20 ≤ op ∧ op ≤ 0x23) && bitsAt v 0 7 = 0)
    || (decide (0x24 ≤ op ∧ op ≤ 0x26) && bitsAt v 0 9 = 0)
    || (decide (0x27 ≤ op ∧ op ≤ 0x28) && bitsAt v 0 17 = 0)
    || ((op = 0x30 || op = 0x32 || (op = 0x3D && synGrd w ≠ 0)) && bitsAt v 12 9 = 0)
    || ((op = 0x31 || op = 0x33) && bitsAt v 16 5 = 0 && bitsAt v 0 11 = 0)
    || ((op = 0x34 || op = 0x35) && bitsAt v 0 21 = 0)
    || (isLoop op && (!bitAt v 19 || bitsAt v 12 7 ≠ 0) && !(op = 0x37 && bitAt v 20))
    || (isRpt op && bitsAt v 16 4 = 0)
    || (isLock op && bitsAt v 16 4 = 0 && bitAt v 20 && bitsAt v 4 8 = 0)
    || (decide (0x3A ≤ op ∧ op ≤ 0x3C)))

/-- What a SC syllable does besides its register writes. -/
structure ScOut where
  lands  : List (Nat × Landing)
  branch : Option BranchTo
  /-- A loop whose count is 0: where issue goes on. -/
  skip   : Option Word16
  rpt    : Option Nat
  lock   : Option Nat
  pends  : Nat
  trap   : Bool
  wfi    : Bool
  deriving DecidableEq, Repr

def ScOut.none : ScOut :=
  { lands := [], branch := .none, skip := .none, rpt := .none, lock := .none, pends := 0, trap := false, wfi := false }

def all64 : Nat := 2 ^ 64 - 1
def all32 : Nat := 2 ^ 32 - 1

/-- Two-operand scalar arithmetic; register and immediate forms share it. -/
def scalarOp (op a b : Nat) : Nat :=
  let m := 2 ^ 32
  let x := toSigned 32 a
  let y := toSigned 32 b
  let sh := b % 32
  match op with
  | 0x01 => (a + b) % m
  | 0x02 => (a + m - b) % m
  | 0x03 => a &&& b
  | 0x04 => a ||| b
  | 0x05 => a ^^^ b
  | 0x06 => (a <<< sh) % m
  | 0x07 => a >>> sh
  | 0x08 => ofSigned 32 (x / 2 ^ sh)
  | 0x09 => a * b % m
  | 0x0A => ofSigned 32 (x * y / 2 ^ 32)
  | 0x0B => if y < x then b else a
  | 0x0C => if x < y then b else a
  | _ => ofSigned 32 (shrRound x sh)

/-- The register operation that an immediate form performs. -/
def immOp : Nat → Nat
  | 0x10 => 0x01 | 0x11 => 0x03 | 0x12 => 0x04 | 0x13 => 0x05 | 0x14 => 0x06 | 0x15 => 0x07 | 0x16 => 0x08 | _ => 0x17

def scalarCmp (op a b : Nat) : Bool :=
  let x := toSigned 32 a
  let y := toSigned 32 b
  match op with | 0x20 => decide (a = b) | 0x21 => decide (x < y) | 0x22 => decide (a < b) | _ => decide (x ≤ y)

/-- A move to a register file (R218): width, access codes and latency of the destination. -/
def moveTo (df d v : Nat) : List (Nat × Landing) :=
  if df = 5 ∧ d = 0 then [(1, .write ⟨.ctl, 0⟩ 0x3E v), (2, .write ⟨.ctl, 0⟩ 1 v)]
  else [(1, .write ⟨fileOf df, d⟩ all32 v)]

/-- A SC syllable that takes effect. `pc` is the address of its bundle. -/
def scExec (w : Word32) (rd : Reg → Nat) (rrb : Word32) (pc : Nat) : ScOut :=
  let op := synOp w
  let v := w.toNat
  let sA := rd ⟨.s, scA w⟩
  let sB := rd ⟨.s, scB w⟩
  let wr (lat x : Nat) : ScOut := { ScOut.none with lands := [(lat, .write ⟨.s, scD w⟩ all32 x)] }
  let wrP (x : Nat) : ScOut := { ScOut.none with lands := [(1, .write ⟨.p, physP rrb (scPd w)⟩ all64 x)] }
  let pA := rd ⟨.p, physP rrb (bitsAt v 13 4)⟩
  let pB := rd ⟨.p, physP rrb (bitsAt v 9 4)⟩
  let into (a : Nat) : Option BranchTo := some (.target (BitVec.ofNat 16 (a / 16 * 16)))
  let link : List (Nat × Landing) := [(1, .write ⟨.s, 31⟩ all32 ((pc + 48) % 2 ^ 16))]
  if 1 ≤ op ∧ op ≤ 0x0C then wr (if op = 0x09 ∨ op = 0x0A then 2 else 1) (scalarOp op sA sB)
  else if 0x10 ≤ op ∧ op ≤ 0x17 then wr 1 (scalarOp (immOp op) sA (ofSigned 32 (toSigned 11 (scImm11 w))))
  else if op = 0x18 then wr 1 (ofSigned 32 (toSigned 16 (scImm16 w)))
  else if op = 0x19 then
    { ScOut.none with lands := [(1, .write ⟨.s, scD w⟩ 0xFFFF0000 (place (scImm16 w) 16))] }
  else if op = 0x1A then { ScOut.none with lands := moveTo (scDf w) (scD w) (rd ⟨fileOf (scSf w), scSrc w⟩) }
  else if op = 0x1B then wr 1 (bitsAt (rd ⟨.v, physV rrb (bitsAt v 10 6)⟩) (bitsAt v 6 4 * 32) 32)
  else if 0x20 ≤ op ∧ op ≤ 0x23 then
    wrP (if scalarCmp op (rd ⟨.s, bitsAt v 12 5⟩) (rd ⟨.s, bitsAt v 7 5⟩) then all64 else 0)
  else if op = 0x24 then wrP (pA &&& pB)
  else if op = 0x25 then wrP (pA ||| pB)
  else if op = 0x26 then wrP (pA &&& (all64 ^^^ pB))
  else if op = 0x27 then wrP all64
  else if op = 0x28 then wrP 0
  else if op = 0x30 ∨ op = 0x3D then { ScOut.none with branch := into (scTgt w * 16) }
  else if op = 0x31 then { ScOut.none with branch := into (sA % 2 ^ 16) }
  else if op = 0x32 then { ScOut.none with branch := into (scTgt w * 16), lands := link }
  else if op = 0x33 then { ScOut.none with branch := into (sA % 2 ^ 16), lands := link }
  else if op = 0x34 then { ScOut.none with branch := into (rd ⟨.s, 31⟩ % 2 ^ 16) }
  else if op = 0x35 then { ScOut.none with branch := some .handler }
  else if isLoop op then
    let n := bitsAt v 20 1
    let count := if bitAt v 19 then bitsAt v 12 7 else rd ⟨.s, bitsAt v 12 5⟩
    let le := scTgt w * 16
    let preds : List (Nat × Landing) := if op = 0x37 then
        (List.range 8).map fun i => (1, .write ⟨.p, physP rrb (8 + i)⟩ all64 (if i = 7 then all64 else 0))
      else []
    { ScOut.none with
      lands := [(1, .write ⟨.loop, 4 + n⟩ all32 ((pc + 16) % 2 ^ 16)), (1, .write ⟨.loop, 6 + n⟩ all32 le),
                (1, .write ⟨.loop, n⟩ all32 count)] ++ preds
      skip := if count = 0 then some (BitVec.ofNat 16 (le + 16)) else .none }
  else if isRpt op then
    let n := if bitAt v 20 then bitsAt v 0 12 else sA % 2 ^ 12
    { ScOut.none with rpt := some (if n = 0 then 4096 else n) }
  else if isLock op then { ScOut.none with lock := some (bitsAt v 0 4 + 1) }
  else if op = 0x3A then { ScOut.none with pends := 2 ^ 8 }
  else if op = 0x3B then { ScOut.none with trap := true }
  else if op = 0x3C then { ScOut.none with wfi := true }
  else ScOut.none

/-- A repeated bundle may not hold these (R228). -/
def rptForbids (sc ls : Word32) : Bool :=
  let op := synOp sc
  isBranch op || isLoop op || isRpt op || isLock op || decide (0x3A ≤ op ∧ op ≤ 0x3C)
    || decide (0x0F ≤ synOp ls ∧ synOp ls ≤ 0x12)

/-! ## LS syllables (R211, R215, R216) -/

def lsOp (w : Word32) : Nat := synOp w
def lsR (w : Word32) : Nat := bitsAt w.toNat 15 6
def lsAn (w : Word32) : Nat := bitsAt w.toNat 11 4
def lsUpd (w : Word32) : Nat := bitsAt w.toNat 9 2

/-- Access width in bytes. -/
def lsWidth (op : Nat) : Nat :=
  if op = 0x01 ∨ op = 0x02 ∨ op = 0x09 then 1
  else if op = 0x03 ∨ op = 0x04 ∨ op = 0x0A then 2
  else if op = 0x05 ∨ op = 0x0B ∨ op = 0x0F ∨ op = 0x11 then 4
  else if op = 0x06 ∨ op = 0x0C ∨ op = 0x10 ∨ op = 0x12 then 8
  else if op = 0x07 ∨ op = 0x0D then 16 else 64

def lsIsStore (op : Nat) : Bool := decide (0x09 ≤ op ∧ op ≤ 0x0E)
def lsIsExcl (op : Nat) : Bool := decide (0x0F ≤ op ∧ op ≤ 0x12)
def lsIsVec (op : Nat) : Bool := op = 0x07 || op = 0x08 || op = 0x0D || op = 0x0E

/-- LX fields (R211, R216). -/
def lxD (w : Word32) : Nat := bitsAt w.toNat 16 5
def lxA (w : Word32) : Nat := bitsAt w.toNat 15 1 * 16 + bitsAt w.toNat 11 4
def lxPd (w : Word32) : Nat := bitsAt w.toNat 7 4

def lsOk (w : Word32) : Bool :=
  let op := lsOp w
  let v := w.toNat
  grdOk w && (op = 0
    || (decide (1 ≤ op ∧ op ≤ 0x0E)
        && (lsIsVec op || decide (lsR w < 32)) && (lsWidth op ≠ 8 || decide (lsR w % 2 = 0))
        && ((lsUpd w ≠ 1 && lsUpd w ≠ 3) || bitsAt v 0 5 = 0))
    || (lsIsExcl op && bitsAt v 0 7 = 0 && decide (lxA w % 2 = 0) && (lsWidth op ≠ 8 || decide (lxD w % 2 = 0))))

/-- Reverses the `k` low bits (R178). -/
def revBits (k x : Nat) : Nat := (List.range k).foldl (fun acc i => if bitAt x i then acc + 2 ^ (k - 1 - i) else acc) 0

def isPow2 (n : Nat) : Bool := n ≠ 0 && decide (2 ^ Nat.log2 n = n)

/-- The linear or circular update of R176 and R177. -/
def addrStep (n an bn ln : Nat) (m : Int) : Nat :=
  if n < 8 ∧ 0 < ln then
    let o := ((an : Int) - bn + m) % (ln : Int)
    (bn + o.toNat) % 2 ^ 32
  else ((an : Int) + m).emod (2 ^ 32) |>.toNat

/-- The bit-reversed update of R178, or the linear one where its conditions do not hold (R211). -/
def addrReverse (n an bn ln w : Nat) (m : Int) : Nat :=
  if n < 8 ∧ isPow2 ln ∧ 2 ^ w ≤ ln ∧ ln ≤ 0x20000 ∧ bn % ln = 0 then
    let k := Nat.log2 ln - w
    let d := (an + 2 ^ 32 - bn) % 2 ^ 32
    let inc := ofSigned 32 m >>> w
    let i := revBits k ((revBits k (d >>> w) + revBits k inc) % 2 ^ k)
    (bn + i * 2 ^ w + d % 2 ^ w) % 2 ^ 32
  else ((an : Int) + m).emod (2 ^ 32) |>.toNat

/-- The effective address of an LM access, and the new An (R211). -/
def lsAddress (w : Word32) (rd : Reg → Nat) : Nat × Option (Reg × Nat) :=
  let n := lsAn w
  let an := rd ⟨.a, n⟩
  let bn := if n < 8 then rd ⟨.b, n⟩ else 0
  let ln := if n < 8 then rd ⟨.l, n⟩ else 0
  let wd := lsWidth (lsOp w)
  let imm : Int := toSigned 9 (bitsAt w.toNat 0 9) * wd
  let mn := toSigned 32 (rd ⟨.m, bitsAt w.toNat 5 4⟩)
  match lsUpd w with
  | 0 => (((an : Int) + imm).emod (2 ^ 32) |>.toNat, none)
  | 1 => (an, some (⟨.a, n⟩, addrStep n an bn ln mn))
  | 2 => (an, some (⟨.a, n⟩, addrStep n an bn ln imm))
  | _ => (an, some (⟨.a, n⟩, addrReverse n an bn ln (Nat.log2 wd) mn))

/-- The register writes of a load (R215). -/
def loadLands (w : Word32) (rrb : Word32) (v : Nat) : List (Nat × Landing) :=
  let op := lsOp w
  let r := lsR w
  let ext (b : Nat) : Nat := ofSigned 32 (toSigned b v)
  if op = 0x01 then [(5, .write ⟨.s, r⟩ all32 (ext 8))]
  else if op = 0x03 then [(5, .write ⟨.s, r⟩ all32 (ext 16))]
  else if op = 0x06 then
    [(5, .write ⟨.s, r⟩ all32 (v % 2 ^ 32)), (5, .write ⟨.s, r + 1⟩ all32 (v / 2 ^ 32))]
  else if op = 0x07 ∨ op = 0x08 then [(5, .write ⟨.v, physV rrb r⟩ (2 ^ 512 - 1) v)]
  else [(5, .write ⟨.s, r⟩ all32 v)]

/-- The value that a store stores (R215). -/
def storeValue (w : Word32) (rd : Reg → Nat) (rrb : Word32) : Nat :=
  let op := lsOp w
  let r := lsR w
  let v := if lsIsVec op then rd ⟨.v, physV rrb r⟩
    else if op = 0x0C then rd ⟨.s, r⟩ + place (rd ⟨.s, r + 1⟩) 32 else rd ⟨.s, r⟩
  v % 2 ^ (8 * lsWidth op)

end Sys2Proof.Machine
end

