-- ==== Sys2Proof/Machine/CoreIssue.lean ====
section
/-! DEFINITION. The cycle of a Fraelm core: fetch, issue of a bundle, local and exclusive accesses, landings, handler entry and
return, halts (R166 to R175, R184 to R191, R200, R202, R205 to R208, R219 to R228, R590 to R592). -/
namespace Sys2Proof.Machine
open Sys2Proof

abbrev Bundle := BitVec 128
def bVx0 (b : Bundle) : Word32 := b.extractLsb' 0 32
def bVx1 (b : Bundle) : Word32 := b.extractLsb' 32 32
def bLs (b : Bundle) : Word32 := b.extractLsb' 64 32
def bSc (b : Bundle) : Word32 := b.extractLsb' 96 32
def mkBundle (vx0 vx1 ls sc : Word32) : Bundle := sc ++ ls ++ vx1 ++ vx0

/-- No reserved encoding in any slot (R208). -/
def bundleOk (b : Bundle) : Bool := vxOk false (bVx0 b) && vxOk true (bVx1 b) && lsOk (bLs b) && scOk (bSc b)

/-! ## Handlers -/

/-- The core's reservations end (R200). -/
def endReservation (c : Nat) (s : Device) : Device :=
  { s with trl := { s.trl with resvs := s.trl.resvs.filter fun r => r.init ≠ lsInit c } }

/-- Entry to a handler (R185, R189): one cycle in which no bundle issues. DEDUCED (log 41). -/
def enterHandler (c : Nat) (exc : Bool) (code : Nat) (ira : Word16) (resumable : Bool) (vec : Word16) (s : Device) : Device :=
  let f := fun (x : Core) =>
    let r := x.regs
    { x with
      regs := { r with
        bank := !r.bank, ira, ipstat := BitVec.ofNat 32 r.pstat.toNat, pstat := 0,
        istat := BitVec.ofNat 8 (1 + bit exc 1 + place code 2 + bit resumable 7),
        ipend := if exc ∨ bitAt levelMask code then r.ipend else r.ipend &&& ~~~(1#32 <<< code) }
      flights := x.flights.map fun f => { f with entered := true }
      pc := vec, branch := none, lock := 0, rpt := 0, idle := 0, closed := false, inLock := false, inSpan := false,
      exc := none, wfi := false, held := none, hold := .none, dbg := { x.dbg with pass := false, cut := false } }
  endReservation c (modCore c f s)

/-- The source whose interrupt is taken at this boundary (R184). -/
def interruptDue (s : Device) (c : Nat) : Option Nat :=
  let x := coreAt s c
  if x.st = .active ∧ x.regs.pstat.getLsbD 0 ∧ !x.regs.istat.getLsbD 0 ∧ !x.closed ∧ x.held.isNone ∧ x.stall = 0
      ∧ !x.returning ∧ !stalledNow s c ∧ !x.dbg.halted ∧ !x.dbg.halting
  then enabledSource s c else none

def enterInterrupt (c src : Nat) (s : Device) : Device :=
  let x := coreAt s c
  enterHandler c false src x.pc true (x.regs.vbase + BitVec.ofNat 16 (0x40 * (src + 1))) s

/-- An exception is found (R189, R191); a fed bundle enters no handler (R592). -/
def foundExc (c code : Nat) (ira : Word16) (resumable : Bool) (s : Device) : Device :=
  let x := coreAt s c
  if x.dbg.feeding then
    setCore c { x with hold := .none, held := none, dbg := { x.dbg with feeding := false, fedErr := true, fedCode := BitVec.ofNat 5 code } } s
  else if x.regs.istat.getLsbD 0 then coreFault c s
  else setCore c { x with exc := some (code, ira, resumable), hold := .none, held := none } s

/-- The current bundle lies in a delay slot, a LOCK window or an RPT repetition (R190). -/
def Core.fragile (x : Core) : Bool := x.branch.isSome || decide (0 < x.lock) || decide (0 < x.rpt)

/-- An exception of the bundle at PC itself. -/
def excHere (c code : Nat) (s : Device) : Device :=
  let x := coreAt s c
  foundExc c code x.pc (!x.fragile) s

/-- The return cycle of RETI (R188). -/
def returnCycle (c : Nat) (s : Device) : Device :=
  modCore c (fun x =>
    { x with
      regs := { x.regs with bank := !x.regs.bank, pstat := BitVec.ofNat 6 x.regs.ipstat.toNat,
                            istat := x.regs.istat &&& 0xFE }
      pc := x.regs.ira &&& 0xFFF0, returning := false }) s

/-! ## Landing -/

/-- The end of a cycle that counts: latencies advance and due operations land (R172, R175). DEDUCED (log 43). -/
def endCycle (c : Nat) (s : Device) : Device :=
  let x := coreAt s c
  let fs := x.flights.map fun f => { f with left := f.left - 1 }
  let due := fs.filter fun f => f.left = 0
  let bad := due.findSome? fun f => match f.what with | .dataErr a => some a | _ => none
  let y := { x with
    flights := fs.filter fun f => f.left ≠ 0
    regs := x.regs.landAll due
    dstat := x.dstat &&& ~~~(BitVec.ofNat 5 (dstatClears due)) }
  match bad with
  | none => setCore c y s
  | some a =>
    let y := { y with regs := { y.regs with eaddr := BitVec.ofNat 32 a } }
    if y.dbg.halted then setCore c { y with dbg := { y.dbg with fedErr := true, fedCode := 4 } } s
    else foundExc c 4 y.pc false (setCore c y s)

/-! ## LS accesses -/

inductive LsRes where
  /-- Done: register writes, sources that pend, stall cycles that follow. -/
  | done (lands : List (Nat × Landing)) (pends stall : Nat) (s : Device)
  | exc (code : Nat)
  /-- The bundle is held. -/
  | wait (h : Hold) (s : Device)

/-- Other initiators' reservations on lines of data memory that the core writes end (R245). -/
def touchLines (c off n : Nat) (s : Device) : Device :=
  let line (o : Nat) : Nat := (0xF00000020000 + c * 2 ^ 24 + o) / 64
  breakResvs (2 + c) (lsInit c) (line (off + n - 1)) (breakResvs (2 + c) (lsInit c) (line off) s)

/-- An access to a local memory (R166, R170). -/
def memAccess (c cls off addr : Nat) (w : Word32) (rd : Reg → Nat) (rrb : Word32) (s : Device) : LsRes :=
  let n := lsWidth (lsOp w)
  let m := arrayAt s cls c
  let stall := if cls = 1 then 1 else 0
  if lsIsStore (lsOp w) then
    let s := if cls = 2 then touchLines c off n s else s
    let s := if cls = 1 then noteCode c off n s else s
    .done [] 0 stall (setArray cls c (m.writeBytes off (leBytes n (storeValue w rd rrb))) s)
  else
    let bs := m.readBytes off n
    let s := reportRead cls c off bs s
    let lands := loadLands w rrb (ofLe (dataOf bs))
    .done (if anyBad bs then lands ++ [(5, .dataErr addr)] else lands) (if anyCorrected bs then 2 ^ 9 else 0) stall s

/-- The wait of a stream access, or its timeout (R202). -/
def streamWait (c : Nat) (s : Device) : LsRes :=
  let x := coreAt s c
  let n := match x.hold with | .stream n => n + 1 | _ => 1
  if x.tmo ≠ 0 ∧ x.tmo.toNat * 1024 < n then .exc 6 else .wait (.stream n) s

/-- An access to the stream ports (R202). -/
def streamAccess (c off : Nat) (w : Word32) (rd : Reg → Nat) (rrb : Word32) (s : Device) : LsRes :=
  let x := coreAt s c
  let io := coreIoAt s c
  let op := lsOp w
  if op = 0x05 ∧ off = 0x40 then .done (loadLands w rrb (streamStat s c)) 0 0 s
  else if op = 0x07 ∧ off = 0x00 ∧ x.enL then
    match io.lIn with
    | t :: q => .done (loadLands w rrb t.toNat) 0 0 (setCoreIo c { io with lIn := q } s)
    | [] => streamWait c s
  else if op = 0x07 ∧ off = 0x10 ∧ x.enU then
    match io.uIn with
    | t :: q => .done (loadLands w rrb t.toNat) 0 0 (setCoreIo c { io with uIn := q } s)
    | [] => streamWait c s
  else if op = 0x0D ∧ off = 0x20 ∧ x.enL then
    if io.lOut.length < 2 then .done [] 0 0 (setCoreIo c { io with lOut := io.lOut ++ [BitVec.ofNat 128 (storeValue w rd rrb)] } s)
    else streamWait c s
  else if op = 0x0D ∧ off = 0x30 ∧ x.enU then
    if io.uOut.length < 2 then .done [] 0 0 (setCoreIo c { io with uOut := io.uOut ++ [BitVec.ofNat 128 (storeValue w rd rrb)] } s)
    else streamWait c s
  else .exc 3

/-- An access to the core's own registers (R166, R167); it stalls for 4 to 12 cycles (R168). A store that the
almanac has no room for is discarded (R517). DESIGN CHOICE (log 45). -/
def ownCsrAccess (c off : Nat) (w : Word32) (rd : Reg → Nat) (rrb : Word32) (s : Device) : LsRes :=
  let op := lsOp w
  let n := lsWidth op
  let i := lsInit c
  if (n ≠ 4 ∧ n ≠ 8) ∨ lsIsVec op then .exc 3
  else if lsIsStore op then
    match coreCsrWrite i c off n (storeValue w rd rrb) s with
    | none => .exc 3
    | some s' =>
      let s' := if almRefuses (fun s => (coreCsrWrite i c off n (storeValue w rd rrb) s).getD s) s then
        noteAccess i (0x50000 + off) s else s'
      let (f, s') := freeNat s'
      .done [] 0 (4 + f % 9) s'
  else
    match coreCsrRead i c off n s with
    | none => .exc 3
    | some (v, s) => let (f, s) := freeNat s; .done (loadLands w rrb v) 0 (4 + f % 9) s

/-- An exclusive access (R200, R216): the request goes out once, and the bundle issues with the response. -/
def exclAccess (frozen : Bool) (c : Nat) (w : Word32) (rd : Reg → Nat) (rrb : Word32) (s : Device) : LsRes :=
  let op := lsOp w
  let n := lsWidth op
  let a := rd ⟨.s, lxA w⟩ + place (rd ⟨.s, lxA w + 1⟩ % 2 ^ 16) 32
  let store := op = 0x11 ∨ op = 0x12
  let d := lxD w
  if a % n ≠ 0 then .exc 2
  else match (coreAt s c).hold with
  | .answered rc val =>
    let s := if !store && (coreAt s c).dbg.cut then endReservation c (modCore c (fun x => { x with dbg := { x.dbg with cut := false } }) s) else s
    if isErr rc then .exc 5
    else if store then .done [(1, .write ⟨.p, physP rrb (lxPd w)⟩ all64 (if rc = rcOkay then all64 else 0))] 0 0 s
    else if n = 8 then
      .done [(1, .write ⟨.s, d⟩ all32 (val.toNat % 2 ^ 32)), (1, .write ⟨.s, d + 1⟩ all32 (val.toNat / 2 ^ 32))] 0 0 s
    else .done [(1, .write ⟨.s, d⟩ all32 (val.toNat % 2 ^ 32))] 0 0 s
  | .excl => .wait .excl s
  | _ =>
    let v := if n = 8 then rd ⟨.s, d⟩ + place (rd ⟨.s, d + 1⟩) 32 else rd ⟨.s, d⟩
    let req : TrlReq := { init := lsInit c, tag := none, enters := false, odd := none, addr := BitVec.ofNat 48 a, len := 0, bcnt := BitVec.ofNat 8 (n - 1),
                          data := [], opA := BitVec.ofNat 64 (if store then v else 0), opB := 0 }
    match issue frozen .atomic (if store then .xstore else .xload) req s with
    | none => .wait .none s
    | some (s, p) => .wait .excl { s with trl := { s.trl with net := s.trl.net ++ [p] } }

/-- The LS syllable of a bundle, its guard true. DEDUCED (log 40). -/
def lsAccess (frozen : Bool) (c : Nat) (w : Word32) (rd : Reg → Nat) (rrb : Word32) (s : Device) : LsRes :=
  let op := lsOp w
  if op = 0 then .done [] 0 0 s
  else if lsIsExcl op then exclAccess frozen c w rd rrb s
  else
    let (a, upd) := lsAddress w rd
    let res :=
      if a % lsWidth op ≠ 0 then .exc 2
      else if a < 0x10000 then memAccess c 1 a a w rd rrb s
      else if 0x20000 ≤ a ∧ a < 0x40000 then memAccess c 2 (a - 0x20000) a w rd rrb s
      else if 0x40000 ≤ a ∧ a < 0x40050 then streamAccess c (a - 0x40000) w rd rrb s
      else if 0x50000 ≤ a ∧ a < 0x60000 then ownCsrAccess c (a - 0x50000) w rd rrb s
      else .exc 3
    match res, upd with
    | .done l p k s, some (r, v) => .done (l ++ [(1, .write r all32 v)]) p k s
    | r, _ => r

/-! ## Issue -/

/-- A loop is active and ends at this address (R222, R223). DEDUCED (log 42). -/
def endsAt (r : RegBank) (n : Nat) (pc : Word16) : Bool :=
  if n = 0 then r.lc0 ≠ 0 && r.le0 = pc else r.lc1 ≠ 0 && r.le1 = pc

/-- No illegal placement (R219, R220, R224, R228). -/
def placeOk (x : Core) (b : Bundle) : Bool :=
  let op := synOp (bSc b)
  let r := x.regs.cur
  let atEnd := endsAt r 0 x.pc || endsAt r 1 x.pc
  let delay := x.branch.isSome
  !(delay && (isBranch op || isLoop op || isRpt op || isLock op))
    && !(decide (0 < x.lock) && (isLock op || isRpt op))
    && !(atEnd && (isBranch op || delay || isRpt op))
    && !(decide (0 < x.rpt) && rptForbids (bSc b) (bLs b))

/-- The end actions of a bundle that stands at the end of an active loop: register writes, and the next address if a loop
returns (R223 to R226). -/
def endActions (r : RegBank) (pc : Word16) : List (Nat × Landing) × Option Word16 :=
  let w (i v : Nat) : Nat × Landing := (1, .write ⟨.loop, i⟩ (2 ^ 32 - 1) v)
  let rrb' := (bitsAt r.rrb.toNat 0 5 + 1) % 32 + place ((bitsAt r.rrb.toNat 8 3 + 1) % 8) 8
  let p15 (v : Nat) : Nat × Landing := (1, .write ⟨.p, physP (BitVec.ofNat 32 rrb') 15⟩ (2 ^ 64 - 1) v)
  let one : List (Nat × Landing) × Option Word16 :=
    if endsAt r 1 pc then
      (if 1 < r.lc1.toNat then ([w 1 (r.lc1.toNat - 1)], some r.lb1) else ([w 1 0], none))
    else ([], none)
  if endsAt r 0 pc then
    if 1 < r.lc0.toNat then
      (if r.loopE then [w 0 (r.lc0.toNat - 1), w 3 rrb', p15 all64] else [w 0 (r.lc0.toNat - 1)], some r.lb0)
    else if r.loopE ∧ r.ec ≠ 0 then ([w 2 (r.ec.toNat - 1), w 3 rrb', p15 0], some r.lb0)
    else ((w 0 0) :: one.1, one.2)
  else one

/-- Where the flow goes after a bundle, and the pending branch that remains. `next` is the sequential address. -/
def flowAfter (x : Core) (sc : ScOut) (branches : Bool) (next : Word16) : Word16 × Option (Nat × BranchTo) × Bool :=
  match x.branch with
  | some (2, t) => (next, some (1, t), false)
  | some (_, .fall) => (next, none, false)
  | some (_, .target a) => (a, none, false)
  | some (_, .handler) => (next, none, true)
  | none =>
    if branches then (next, some (2, sc.branch.getD .fall), false) else (next, none, false)

/-- Issues a bundle whose LS access is done. DESIGN CHOICE (log 150). -/
def commitBundle (c : Nat) (fed : Bool) (v0 v1 ls : List (Nat × Landing)) (sc : ScOut) (branches : Bool)
    (setE : Option Bool) (pends stall : Nat) (s : Device) : Device :=
  let x := coreAt s c
  let r := x.regs.cur
  let rep := decide (0 < x.rpt)
  let last := decide (x.rpt ≤ 1)
  let acts := if !fed && last && sc.rpt.isNone then endActions r x.pc else ([], none)
  let mk (p : Nat × Landing) : Flight := { left := p.1, bank := x.regs.bank, entered := false, what := p.2 }
  let flights := x.flights ++ (v0 ++ v1 ++ ls ++ sc.lands ++ acts.1).map mk
  let regs := match setE with
    | some e => x.regs.modBank x.regs.bank fun k => { k with loopE := e }
    | none => x.regs
  let s :=
    if fed then setCore c { x with flights, stall, held := none, hold := .none, dbg := { x.dbg with feeding := false } } s
    else
      let seq := (acts.2.getD (x.pc + 16))
      let next := if rep && !last then x.pc else (sc.skip.getD seq)
      let (pc, br, ret) := flowAfter x sc branches next
      let inLock := decide (0 < x.lock) || sc.lock.isSome
      let inSpan := branches || x.branch.isSome || (rep && !last) || sc.rpt.isSome
      setCore c { x with
        flights, regs, stall, pc, branch := br, returning := ret, pcSample := x.pc, held := none, hold := .none,
        rpt := if rep then x.rpt - 1 else sc.rpt.getD 0
        lock := if 0 < x.lock then x.lock - 1 else (sc.lock.getD 1) - 1
        idle := if sc.skip.isSome then 2 else 0
        inLock, inSpan, closed := inLock || inSpan, wfi := sc.wfi
        dbg := { x.dbg with pass := false } } s
  let s :=
    if sc.trap then foundExc c 7 (coreAt s c).pc (!x.fragile) s else s
  pendMask c (pends ||| sc.pends) (endCycle c s)

/-- Issues bundle `b` at PC, or the fed bundle of a halted core; an instruction that must wait holds it. -/
def issueBundle (frozen : Bool) (c : Nat) (b : Bundle) (fed : Bool) (s : Device) : Device :=
  let x := coreAt s c
  let r := x.view
  let rrb := r.cur.rrb
  let rd (y : Reg) : Nat := r.get r.bank (levels s c) (dstatVal x) y
  let guard (w : Word32) : Guard := if synGrd w = 0 then none else some (rd ⟨.p, physP rrb (synGrd w - 16)⟩)
  let on (w : Word32) : Bool := guardBit (guard w) 0
  let scw := bSc b
  if !bundleOk b || (fed && decide (0x30 ≤ synOp scw)) || (!fed && !placeOk x b) then endCycle c (excHere c 1 s)
  else
    let res := if on (bLs b) then lsAccess frozen c (bLs b) rd rrb s else .done [] 0 0 s
    match res with
    | .exc code => endCycle c (excHere c code s)
    | .wait h s => modCore c (fun x => { x with hold := h, held := some b, stall := 0 }) s
    | .done ls pends stall s =>
      let (fr, s) := freeNat s
      let v0 := vxExec (bVx0 b) rd rrb (guard (bVx0 b)) fr
      let v1 := vxExec (bVx1 b) rd rrb (guard (bVx1 b)) (fr / 2 ^ 32)
      let op := synOp scw
      let takes := if op = 0x3D then !on scw else on scw
      let sc := if takes then scExec scw rd rrb x.pc.toNat else ScOut.none
      let setE := if takes && op = 0x37 then some true
        else if takes && op = 0x36 && !bitAt scw.toNat 20 then some false else none
      commitBundle c fed v0 v1 ls sc (isBranch op) setE pends stall s

/-- The 16 bytes that a fetch finds: for one that a write of the last 8 cycles has changed, nothing determines whether it comes as before or
after that write (R169). -/
def fetched (c pc : Nat) (s : Device) : List ByteRead × Device :=
  let bs := (arrayAt s 1 c).readBytes pc 16
  match (coreAt s c).wrote with
  | [] => (bs, s)
  | ws =>
    let (f, s) := freeNat s
    (bs.zipIdx.map fun (b, k) =>
      match ws.find? fun w => decide (w.off ≤ pc + k ∧ pc + k < w.off + w.old.length) with
      | some w => if bitAt f k then w.old.getD (pc + k - w.off) b else b
      | none => b, s)

/-- Fetches the bundle at PC (R170). DEDUCED (log 46). -/
def fetchIssue (frozen : Bool) (c : Nat) (s : Device) : Device :=
  let x := coreAt s c
  match x.held with
  | some b => issueBundle frozen c b false s
  | none =>
    let (bs, s) := fetched c x.pc.toNat s
    let s := reportRead 1 c x.pc.toNat bs s
    if anyBad bs then coreFault c (if anyCorrected bs then pend c 9 s else s)
    else
      let s := issueBundle frozen c (BitVec.ofNat 128 (ofLe (dataOf bs))) false s
      if anyCorrected bs then pend c 9 s else s

/-! ## Halts (R590 to R592) -/

/-- A breakpoint stands at PC. DEDUCED (log 48). -/
def atBreak (x : Core) : Bool := (x.dbg.bp0En && x.dbg.bp0 = x.pc) || (x.dbg.bp1En && x.dbg.bp1 = x.pc)

/-- The halt that is requested can be taken at this boundary (R590). -/
def haltDue (s : Device) (c : Nat) : Bool :=
  let x := coreAt s c
  x.st = .active && !x.dbg.halted && !x.dbg.halting && (x.dbg.haltReq || x.dbg.stepping || atBreak x) && !x.dbg.pass
    && !x.closed && x.held.isNone && x.stall = 0 && !x.returning && x.exc.isNone && !stalledNow s c

/-- HALTED is set once the last write has landed. -/
def haltLanded (c : Nat) (s : Device) : Device :=
  modCore c (fun x =>
    if x.dbg.halting && x.flights.isEmpty && x.exc.isNone then
      { x with dbg := { x.dbg with halting := false, halted := true, stepping := false, waited := none } } else x) s

def takeHalt (c : Nat) (s : Device) : Device :=
  haltLanded c (endCycle c (modCore c (fun x => { x with dbg := { x.dbg with halting := true } }) s))

/-- The core waits for the response to an exclusive store, or to an exclusive load. -/
def Core.waitsFor (store : Bool) (x : Core) : Bool :=
  let op := x.held.map fun b => lsOp (bLs b)
  x.hold ≠ .none && (if store then op = some 0x11 ∨ op = some 0x12 else op.any lsIsExcl && op ≠ some 0x11 && op ≠ some 0x12)

/-- A halt that waits on a LOCK window reaches its deadline (R591): the reservation ends, that of a load whose response is still to come once
it has come; a store that has been issued ends it itself. -/
def lockDeadline (c : Nat) (s : Device) : Device :=
  let x := coreAt s c
  match x.dbg.waited with
  | some n =>
    if 1024 ≤ n then
      if x.inLock then
        let t := setCore c { x with lock := 0, inLock := false, closed := x.inSpan
                                    dstat := x.dstat ||| 0x8, dbg := { x.dbg with waited := none, cut := x.waitsFor false } } s
        if x.waitsFor true then t else endReservation c t
      else if n = 1024 then
        setCore c { x with dbg := { x.dbg with waited := none, near := BitVec.ofNat 8 (satAdd 8 x.dbg.near.toNat 1) } } s
      else s
    else s
  | none => s

/-- Counts the wait of a halt request inside a window, stall cycles included (R591). -/
def lockWait (c : Nat) (s : Device) : Device :=
  let x := coreAt s c
  if x.dbg.haltReq && !x.dbg.halted && !x.dbg.halting then
    match x.dbg.waited with
    | some n => lockDeadline c (setCore c { x with dbg := { x.dbg with waited := if x.inLock || n + 1 = 1024 then some (n + 1) else none } } s)
    | none => if x.inLock then setCore c { x with dbg := { x.dbg with waited := some 0 } } s else s
  else s

/-! ## The cycle -/

/-- Issue and everything that takes the place of an issue in one cycle. -/
def issueCycle (frozen : Bool) (c : Nat) (s : Device) : Device :=
  let x := coreAt s c
  if stalledNow s c then s
  else if 0 < x.stall then setCore c { x with stall := x.stall - 1 } s
  else if x.dbg.halted then
    if x.dbg.feeding then issueBundle frozen c (x.held.getD x.dbg.bundle) true s else endCycle c s
  else match x.exc with
  | some (code, ira, res) => endCycle c (enterHandler c true code ira res x.regs.vbase s)
  | none =>
    if x.dbg.halting then haltLanded c (endCycle c s)
    else if x.returning then endCycle c (returnCycle c s)
    else if haltDue s c then takeHalt c s
    else match interruptDue s c with
    | some src => endCycle c (enterInterrupt c src s)
    | none =>
      if 0 < x.idle then endCycle c (setCore c { x with idle := x.idle - 1 } s)
      else if x.wfi then
        if (enabledSource s c).isSome then fetchIssue frozen c (setCore c { x with wfi := false } s) else endCycle c s
      else fetchIssue frozen c s

/-- A cycle begins: writes of instruction memory age, and the end of a stall by FREEZE_CFG.NOW releases the watchdog (R169, R197). -/
def cycleBegins (c : Nat) (s : Device) : Device :=
  let x := coreAt s c
  let now := x.st = .active && stalledNow s c
  if x.wrote.isEmpty && x.dbg.now = now then s
  else
    let x := { x with wrote := (x.wrote.filter fun (w : CodeWrite) => 1 < w.left).map fun (w : CodeWrite) => { w with left := w.left - 1 } }
    let y := if x.dbg.now && !now && !x.dbg.halted && x.st = .active then x.wdtRelease else x
    setCore c { y with dbg := { y.dbg with now } } s

/-- Bits of DSTAT that hardware sets in a cycle stay set, whatever software writes in it (R13). -/
def keepEvents (c : Nat) (old now s : Device) : Device :=
  let broke := (coreAt old c).inLock && !(coreAt now c).inLock
  let freed := (coreAt old c).dbg.now && !(coreAt now c).dbg.now && (coreAt now c).dstat.getLsbD 2
  if broke || freed then modCore c (fun x => { x with dstat := x.dstat ||| BitVec.ofNat 5 (bit broke 3 + bit freed 2) }) s else s

/-- One 1.6 GHz cycle of an ACTIVE core. -/
def coreCycle (frozen : Bool) (c : Nat) (s : Device) : Device :=
  let old := s
  let s := lockWait c (cycleBegins c s)
  let begun := s
  let s := keepEvents c old begun (if (coreAt s c).st = .active then issueCycle frozen c s else s)
  let s := if (coreAt s c).st = .active then timerCycle c s else s
  if (coreAt s c).st = .active then wdtCycle c s else s

/-- The core would fetch and issue the bundle at PC in this cycle. -/
def wouldIssue (s : Device) (c : Nat) : Bool :=
  let x := coreAt s c
  x.st = .active && !stalledNow s c && x.stall = 0 && !x.dbg.halted && !x.dbg.halting && x.exc.isNone && !x.returning
    && !haltDue s c && (interruptDue s c).isNone && x.idle = 0 && !x.wfi && x.held.isNone

/-- The response to an exclusive access reaches its core (R200). -/
def exclResponse (c : Nat) (rc : Byte) (data : List Byte) (s : Device) : Device :=
  modCore c (fun x => if x.hold = .excl then { x with hold := .answered rc (BitVec.ofNat 64 (ofLe data)) } else x) s

end Sys2Proof.Machine
end

