-- ==== Sys2Proof/Machine/CoreRows.lean ====
section
/-! DEFINITION. What the commands of the Fraelm families do: one bundle with the named syllable issues at PC; and the
events of a core's life. -/
namespace Sys2Proof.Machine
open Sys2Proof

/-- The counters of an initiator hold still (R262). -/
def initFrozen (s : Device) (i : InitId) : Bool :=
  (win s i).freeze && match initKind i with
    | .ls c => (coreAt s c).dbg.halted
    | .dma c _ => (coreAt s c).dbg.halted
    | .bed b => decide ((bedAt s b).st = .paused) && plotFrozen s (bedOwner s b) && (freezeCfg s (bedOwner s b)).getLsbD 0
    | _ => false

/-! ## Syllables (R206, R209, R211, R212) -/

def vxWord (grd : BitVec 5) (op d a b : BitVec 6) (t : BitVec 3) : Word32 := grd ++ op ++ d ++ a ++ b ++ t
def lmWord (grd : BitVec 5) (op r : BitVec 6) (an : BitVec 4) (upd : BitVec 2) (ofs : BitVec 9) : Word32 :=
  grd ++ op ++ r ++ an ++ upd ++ ofs
def lxWord (grd : BitVec 5) (op : BitVec 6) (sd sa : BitVec 5) (pd : BitVec 4) : Word32 :=
  grd ++ op ++ sd ++ sa ++ pd ++ 0#7
def srWord (grd : BitVec 5) (op : BitVec 6) (d a b : BitVec 5) : Word32 := grd ++ op ++ d ++ a ++ b ++ 0#6
def siWord (grd : BitVec 5) (op : BitVec 6) (d a : BitVec 5) (imm : BitVec 11) : Word32 := grd ++ op ++ d ++ a ++ imm
def swWord (grd : BitVec 5) (op : BitVec 6) (d : BitVec 5) (imm : BitVec 16) : Word32 := grd ++ op ++ d ++ imm
def sxWord (grd : BitVec 5) (d : BitVec 5) (df : BitVec 3) (src : BitVec 5) (sf : BitVec 3) : Word32 :=
  grd ++ 0x1A#6 ++ d ++ df ++ src ++ sf ++ 0#5
def svWord (grd : BitVec 5) (d : BitVec 5) (v : BitVec 6) (lane : BitVec 4) : Word32 := grd ++ 0x1B#6 ++ d ++ v ++ lane ++ 0#6
def cmpWord (grd : BitVec 5) (op : BitVec 6) (pd : BitVec 4) (a b : BitVec 5) : Word32 := grd ++ op ++ pd ++ a ++ b ++ 0#7
def spWord (grd : BitVec 5) (op : BitVec 6) (pd pa pb : BitVec 4) : Word32 := grd ++ op ++ pd ++ pa ++ pb ++ 0#9
def sbWord (grd : BitVec 5) (op : BitVec 6) (tgt : BitVec 12) : Word32 := grd ++ op ++ 0#9 ++ tgt
def sbrWord (grd : BitVec 5) (op : BitVec 6) (a : BitVec 5) : Word32 := grd ++ op ++ 0#5 ++ a ++ 0#11
def slWord (grd : BitVec 5) (op : BitVec 6) (l i : BitVec 1) (cnt : BitVec 7) (tgt : BitVec 12) : Word32 :=
  grd ++ op ++ l ++ i ++ cnt ++ tgt
def skWord (grd : BitVec 5) (op : BitVec 6) (i : BitVec 1) (x : BitVec 16) : Word32 := grd ++ op ++ i ++ 0#4 ++ x

/-- A bundle that holds one syllable, in VX0, VX1, LS or SC; the other slots hold NOP. -/
def bundleOf (slot : Fin 4) (w : Word32) : Bundle :=
  match slot with
  | 0 => mkBundle w 0 0 0
  | 1 => mkBundle 0 w 0 0
  | 2 => mkBundle 0 0 w 0
  | 3 => mkBundle 0 0 0 w

/-- The bundle issues as the one at PC, if the core would issue now. DESIGN CHOICE (log 15). -/
def issueRow (c : CoreId) (slot : Fin 4) (w : Word32) (s : Device) : Device :=
  if wouldIssue s c.val then issueBundle (initFrozen s (lsInit c.val)) c.val (bundleOf slot w) false s else s

def vxSlot (vx1 : Bool) : Fin 4 := if vx1 then 1 else 0

/-! ## Events -/

def interruptRow (c : Nat) (s : Device) : Device :=
  let x := coreAt s c
  if x.exc.isNone ∧ !haltDue s c then
    match interruptDue s c with
    | some src => endCycle c (enterInterrupt c src s)
    | none => s
  else s

/-- WFI ends (R217). -/
def wfiWake (c : Nat) (s : Device) : Device :=
  let x := coreAt s c
  if x.st = .active ∧ x.wfi ∧ (enabledSource s c).isSome then setCore c { x with wfi := false } s else s

def timerRow (c : Nat) (s : Device) : Device :=
  if timerRuns s c ∧ (coreAt s c).timerCnt = 1 then timerZero c s else s

def wdtRow (c : Nat) (s : Device) : Device :=
  if wdtRuns s c ∧ (coreAt s c).wdtCnt = 1 then wdtExpire c s else s

/-- A token or a free entry is there for the stalled access. -/
def streamStallEnd (c : Nat) (s : Device) : Device :=
  let x := coreAt s c
  match x.hold, x.held with
  | .stream _, some b =>
    if stalledNow s c then s else issueBundle (initFrozen s (lsInit c)) c b x.dbg.feeding s
  | _, _ => s

/-- The stall has outlasted TMO: STREAM_TMO, and the access is not made (R202). -/
def streamTmo (c : Nat) (s : Device) : Device :=
  let x := coreAt s c
  match x.hold with
  | .stream n => if x.tmo ≠ 0 ∧ x.tmo.toNat * 1024 ≤ n then excHere c 6 s else s
  | _ => s

def haltTaken (c : Nat) (s : Device) : Device := if haltDue s c then takeHalt c s else haltLanded c s

/-! ## Debug control of a core (R590 to R596) -/

/-- HALTED ends and the flow continues at PC. -/
def Core.release (x : Core) : Core :=
  let y := if x.dbg.halted && !x.dbg.now then x.wdtRelease else x
  { y with dbg := { y.dbg with halted := false, halting := false, waited := none, pass := true } }

def haltReqWrite (c : Nat) (on : Bool) (s : Device) : Device :=
  modCore c (fun x =>
    { x with dbg := { x.dbg with haltReq := on, waited := if on then x.dbg.waited else none,
                                 pass := x.dbg.pass && !(on && !x.dbg.haltReq) } }) s

/-- RESUME clears HALT_REQ (R592). -/
def coreResume (c : Nat) (s : Device) : Device :=
  modCore c (fun x => { x.release with dbg := { x.release.dbg with haltReq := false, stepping := false } }) s

def coreStep (c : Nat) (s : Device) : Device :=
  modCore c (fun x => if x.dbg.halted then { x.release with dbg := { x.release.dbg with stepping := true } } else x) s

/-- EXEC: a forbidden or reserved bundle is not issued (R592). -/
def coreExec (c : Nat) (s : Device) : Device :=
  modCore c (fun x =>
    if x.dbg.halted then
      if !bundleOk x.dbg.bundle || decide (0x30 ≤ synOp (bSc x.dbg.bundle) ∧ synOp (bSc x.dbg.bundle) ≤ 0x3D) then
        { x with dbg := { x.dbg with fedCode := 1 } }
      else { x with dbg := { x.dbg with feeding := true } }
    else x) s

/-- MON_REQ (R594). -/
def monReq (c : Nat) (on : Bool) (s : Device) : Device :=
  let x := coreAt s c
  let rise := on && !x.dbg.monReq
  let s := setCore c { x with dbg := { x.dbg with monReq := on }
                              dstat := if rise then x.dstat ||| 0x2 else if on then x.dstat else x.dstat &&& 0x1D } s
  if rise then pend c 10 s else s

end Sys2Proof.Machine
end

