-- ==== Sys2Proof/Machine/FaultUnit.lean ====
section
/-! DEFINITION. The fault collectors: sources, source words, records, history, ERR_N, and the fault commands
(chapter "Faults and the safe state"). Entering the safe state is in Machine/SafeState.lean. -/
namespace Sys2Proof.Machine
open Sys2Proof

/-! ## Sources (R527) -/

def srcKind : Source → Nat
  | .device => 0x00 | .die _ => 0x01 | .hub _ => 0x02 | .channel _ => 0x03 | .link _ => 0x04 | .plot _ => 0x05
  | .bed _ => 0x06 | .core _ => 0x07 | .lane _ => 0x08 | .region _ => 0x09 | .init _ => 0x0A

def srcIndex : Source → Nat
  | .device => 0 | .die d => d.val | .hub u => u.val | .channel c => c.val | .link l => l.val | .plot p => p.val
  | .bed b => b.val | .core c => c.val | .lane l => l.val | .region r => r.val | .init i => i.toNat

def srcSlot : Source → Nat
  | .device => 0 | .die d => 1 + d.val | .hub u => 16 + u.val | .channel c => 32 + c.val | .link l => 56 + l.val
  | .plot p => 80 + p.val | .bed b => 128 + b.val | .core c => 512 + c.val | .lane l => 640 + l.val
  | .region r => 1152 + r.val
  | .init i => if initDie i < 8 then 2176 + initDie i * 104 + initLocal i else 3008 + initLocal i

/-- The compute die whose node collector a source reports to; `none` reports to the central collector (R529). -/
def srcDie : Source → Option DieId
  | .die d => some d
  | .bed b => some (Fin.ofNat 8 (b.val / 48))
  | .core c => some (Fin.ofNat 8 (c.val / 16))
  | .lane l => some (Fin.ofNat 8 (l.val / 64))
  | .init i => if initDie i < 8 then some (Fin.ofNat 8 (initDie i)) else none
  | _ => none

/-! ## Source words (R534) -/

def SrcWord.note (w : SrcWord) (c n : Nat) : SrcWord :=
  { sticky := true, maxCls := if w.sticky then Nat.max w.maxCls c else c,
    count := satAdd 16 (if w.sticky then w.count else 0) n }

def SrcWord.value (w : SrcWord) : Nat := bit w.sticky 0 + place w.maxCls 1 + place w.count 16

def srcWord (s : Device) (slot : Nat) : SrcWord := s.flt.words.get SrcWord.reset slot
def setWord (slot : Nat) (w : SrcWord) (s : Device) : Device :=
  { s with flt := { s.flt with words := s.flt.words.set SrcWord.reset slot w } }

/-- The source words of an object are cleared when its owner changes (R534). -/
def clearWord (src : Source) (s : Device) : Device := setWord (srcSlot src) SrcWord.reset s

/-- Writing 1 to STICKY clears the word (W1C). -/
def stickyWrite (slot v : Nat) (s : Device) : Device := if bitAt v 0 then setWord slot SrcWord.reset s else s

/-! ## Interrupts (R416, R539) -/

/-- The interrupts that a fault signals. DEDUCED (log 114). -/
def signalFault (plot : Nat) (s : Device) : Device :=
  let s := raiseMsix 0 1 s
  if plot = 0 then s else raiseMsix plot 1 s

/-! ## Records (R535 to R538) -/

/-- The 32 bytes of a fault record (R536). -/
def FltRec.bytes (r : FltRec) : List Byte :=
  leBytes 1 (srcKind r.rep.src) ++ leBytes 1 (r.rep.cls.val + bit r.plotValid 3 + place r.plot 4)
    ++ leBytes 2 (srcIndex r.rep.src) ++ leBytes 1 r.rep.cause.toNat ++ leBytes 1 r.merged
    ++ leBytes 2 (1 + bit r.safe 1 + bit r.overflowed 2) ++ leBytes 8 r.rep.time ++ leBytes 8 r.rep.detail.toNat
    ++ leBytes 6 r.almSeq ++ leBytes 2 0

/-- The history queue runs (R538). -/
def histOn (s : Device) : Bool := s.flt.mode || s.flt.histRun || s.mgmt.dev = .fatal

def pushHistory (r : FltRec) (f : Faults) : Faults :=
  if f.history.length < 32 then { f with history := f.history ++ [r] }
  else { f with histOvf := satAdd 8 f.histOvf 1, history := f.history.modify 31 fun e => { e with overflowed := true } }

/-- ERR_N: a record of this class asserts the pin (R548). -/
def assertsPin (s : Device) (c : Nat) : Bool := 3 ≤ c || s.flt.errMask.getLsbD c

/-- LOW is set and the 100 µs minimum begins again (R548, R549). -/
def driveErrN (s : Device) : Device :=
  { s with flt := { s.flt with low := true, pulse := some (devNs s), clearDue := false } }

/-- ERR_N is driven low. -/
def errNLow (f : Faults) : Bool := f.low || f.held || f.pulse.isSome || f.selfFault

/-- The minimum ends; a clear of LOW made during it takes effect (R549). -/
def errNEnd (s : Device) : Device :=
  match s.flt.pulse with
  | some t =>
    if t + 100000 ≤ devNs s then
      { s with flt := { s.flt with pulse := none, low := s.flt.low && !s.flt.clearDue, clearDue := false } }
    else s
  | none => s

/-- A clear of LOW takes effect at once, or at the end of a running minimum (R549). -/
def clearLow (s : Device) : Device :=
  if s.flt.pulse.isSome then { s with flt := { s.flt with clearDue := true } }
  else { s with flt := { s.flt with low := false } }

/-! ## Register block (R554) -/

def fltWidth (off : Nat) : Option (Nat × Nat) :=
  if off = 0 ∨ off = 4 ∨ off = 8 then some (off, 32)
  else if 0x100 ≤ off ∧ off < 0x1A0 then some (off / 8 * 8, 64)
  else if 0x200 ≤ off ∧ off < 0x600 then some (off / 8 * 8, 64)
  else if 0x4000 ≤ off ∧ off < 0x4000 + 3040 * 4 then some (off / 4 * 4, 32)
  else none

def recWord (r : Option FltRec) (k : Nat) : Nat :=
  match r with
  | some r => leAt r.bytes (8 * k) 8
  | none => 0

def fltStatus (s : Device) : Nat :=
  maskOf (s.flt.first.map Option.isSome) + bit (s.mgmt.dev = .fatal) 5 + bit (histOn s) 6
    + place s.flt.history.length 7 + place s.flt.histOvf 13 + bit s.flt.selfFault 21 + place s.flt.selfCorr 22

def fltErrpin (s : Device) : Nat :=
  bit s.flt.low 0 + bit s.flt.pulse.isSome 1 + bit s.flt.held 2 + bit (errNLow s.flt) 3

def fltCfg (s : Device) : Nat :=
  s.flt.errMask.toNat + bit s.flt.mode 3 + place s.flt.irqMin.toNat 8 + place s.flt.autoReset.toNat 16

def fltRead (s : Device) (off : Nat) : Nat :=
  if off = 0 then fltStatus s
  else if off = 4 then fltErrpin s
  else if off = 8 then fltCfg s
  else if off < 0x1A0 then recWord ((s.flt.first.getD ((off - 0x100) / 0x20) none)) (off % 0x20 / 8)
  else if off < 0x600 then recWord (s.flt.history[(off - 0x200) / 0x20]?) (off % 0x20 / 8)
  else (srcWord s ((off - 0x4000) / 4)).value

def fltWrite (off v : Nat) (s : Device) : Device :=
  if off = 4 then (if bitAt v 0 then clearLow s else s)
  else if 0x4000 ≤ off then stickyWrite ((off - 0x4000) / 4) v s
  else s

/-! ## Commands (R550 to R553) -/

/-- The source at a slot of R527, to find whether a plot owns it. -/
def slotPlot (s : Device) (slot : Nat) : Option Nat :=
  if 80 ≤ slot ∧ slot < 96 then some (slot - 80)
  else if 128 ≤ slot ∧ slot < 512 then some (bedOwner s (slot - 128))
  else if 512 ≤ slot ∧ slot < 640 then some (coreOwner s (slot - 512))
  else if 640 ≤ slot ∧ slot < 1152 then some (laneOwner s (slot - 640))
  else if 1152 ≤ slot ∧ slot < 2176 then objPlot s 0x0A (slot - 1152)
  else if 2176 ≤ slot ∧ slot < 3008 then
    some (stampPlot s (BitVec.ofNat 12 ((slot - 2176) / 104 * 256 + (slot - 2176) % 104)))
  else if 3008 + 16 ≤ slot ∧ slot < 3008 + 32 then some (slot - 3024)
  else none

/-- The plot that a fault of a source concerns (R528); `none` concerns plot 0 only. -/
def concerns (s : Device) (src : Source) : Option Nat := slotPlot s (srcSlot src)

def recFor (p : Nat) (r : Option FltRec) : List Byte :=
  match r with
  | some r => if p = 0 ∨ (r.plotValid ∧ r.plot = p) then r.bytes else List.replicate 32 0
  | none => List.replicate 32 0

def opFaultRead : OpSpec where
  code := 0x0701
  plenOk := (· = 8)
  session := true
  early := true
  late := never
  refusal := fun c _ =>
    let w := leAt c.pl 0 1
    let f := leAt c.pl 2 2
    let n := leAt c.pl 4 2
    if !zeroAt c.pl 1 1 ∨ !zeroAt c.pl 6 2 ∨ 2 < w ∨ (w = 0 ∧ 5 < f + n) ∨ (w = 1 ∧ 32 < f + n)
        ∨ (w = 2 ∧ (n = 0 ∨ 1024 < n ∨ 3040 < f + n)) then some stBadParam else none
  records := fun _ _ => 0
  run := fun c s =>
    let w := leAt c.pl 0 1
    let f := leAt c.pl 2 2
    let n := leAt c.pl 4 2
    let item := fun i =>
      if w = 0 then recFor c.plot (s.flt.first.getD (f + i) none)
      else if w = 1 then recFor c.plot (s.flt.history[f + i]?)
      else if c.plot = 0 ∨ slotPlot s (f + i) = some c.plot then leBytes 4 (srcWord s (f + i)).value
      else leBytes 4 0
    { st := s, reply := some (stOk, (List.range n).flatMap item) }

def opFaultClear : OpSpec where
  code := 0x0702
  plenOk := (· = 4)
  session := true
  early := false
  late := never
  refusal := fun c _ =>
    if 8 ≤ leAt c.pl 0 1 ∨ 4 ≤ leAt c.pl 1 1 ∨ !zeroAt c.pl 2 2 then some stBadParam
    else if c.plot ≠ 0 then some stNotAuth else none
  records := fun _ _ => 1
  run := fun c s =>
    let cl := leAt c.pl 0 1
    let o := leAt c.pl 1 1
    let first := s.flt.first.zipIdx.map fun x => if bitAt cl x.2 then none else x.1
    let f := { s.flt with first := first }
    let f := if bitAt o 0 then { f with words := .empty } else f
    let f := if bitAt o 1 then { f with history := [], histOvf := 0 } else f
    { st := cmdRecPayload c 0x01 0 { s with flt := f }, reply := some (stOk, []) }

def opErrpinRelease : OpSpec where
  code := 0x0703
  plenOk := (· = 0)
  session := true
  early := false
  late := never
  refusal := fun c _ => if c.plot ≠ 0 then some stNotAuth else none
  records := fun _ _ => 1
  run := fun c s =>
    let running := s.flt.pulse.isSome
    { st := cmdRecPayload c 0x01 0 (clearLow s), reply := some (stOk, leBytes 4 (bit running 0)) }

def opHistoryMode : OpSpec where
  code := 0x0704
  plenOk := (· = 8)
  session := true
  early := false
  late := never
  refusal := fun c _ =>
    if 1 < leAt c.pl 0 1 ∨ 8 ≤ leAt c.pl 1 1 ∨ 3 < leAt c.pl 2 1 ∨ !zeroAt c.pl 3 1 ∨ !zeroAt c.pl 6 2 then some stBadParam
    else if c.plot ≠ 0 then some stNotAuth else none
  records := fun _ _ => 1
  run := fun c s =>
    let f := { s.flt with
      mode := leAt c.pl 0 1 = 1, errMask := BitVec.ofNat 3 (leAt c.pl 1 1), irqMin := BitVec.ofNat 2 (leAt c.pl 2 1),
      autoReset := BitVec.ofNat 16 (leAt c.pl 4 2) }
    { st := cmdRecPayload c 0x01 0 { s with flt := f }, reply := some (stOk, []) }

end Sys2Proof.Machine
end

