-- ==== Sys2Proof/Machine/MemMap.lean ====
section
/-! DEFINITION. LPDDR6 address mapping, channels and lines (R266 to R276, R284, R285). -/
namespace Sys2Proof.Machine
open Sys2Proof

def chAt (s : Device) (c : Nat) : Chan := s.mem.chans.get Chan.reset c
def setCh (c : Nat) (x : Chan) (s : Device) : Device := { s with mem := { s.mem with chans := s.mem.chans.set Chan.reset c x } }
def modCh (c : Nat) (f : Chan → Chan) (s : Device) : Device := setCh c (f (chAt s c)) s
def chSource (c : Nat) : Source := .channel (Fin.ofNat 24 c)
def phyId (c : Nat) : ShellId := .phy (Fin.ofNat 24 c)

/-- Bytes of a rank, and of the channel. -/
def Chan.rankBytes (x : Chan) : Nat := 2 ^ (31 + x.density.toNat)
def Chan.fitted (x : Chan) : Bool := x.present ≠ 0 && !x.failed
def Chan.bytes (x : Chan) : Nat := x.present.toNat * x.rankBytes

def fittedList (s : Device) : List Nat := (List.range 24).filter fun c => (chAt s c).fitted
/-- The capacity that start-up found (R27, R269). DEDUCED (log 135). -/
def capacity (s : Device) : Nat := (s.mem.chans.cells.map fun x => x.2.bytes).sum
def fittedMask (s : Device) : Nat := maskOf ((List.range 24).map fun c => (chAt s c).fitted)
/-- The fitted capacity (R269). -/
def fittedBytes (s : Device) : Nat := ((fittedList s).map fun c => (chAt s c).bytes).sum

/-! ## Windows (R270, R271) -/

def Window.k (w : Window) : Nat := ((List.range 24).filter fun c => bitAt w.mask c).length
def Window.grainBytes (w : Window) : Nat := 256 * 2 ^ w.grain
def Window.holds (w : Window) (a : Nat) : Bool := w.valid && decide (w.base ≤ a ∧ a < w.base + w.size)

/-- Channel and channel address of a device address in a window (R270). -/
def Window.map (w : Window) (a : Nat) : Nat × Nat :=
  let off := a - w.base
  let g := off / w.grainBytes
  let ch := ((List.range 24).filter fun c => bitAt w.mask c).getD (g % w.k) 0
  (ch, w.chBase + g / w.k * w.grainBytes + off % w.grainBytes)

def memWindow (s : Device) (a : Nat) : Option Window := s.mem.windows.find? fun w => w.holds a

/-- The device address that a window gives a channel address (the inverse of R270). -/
def Window.unmap (w : Window) (ch c : Nat) : Option Nat :=
  if w.valid && bitAt w.mask ch && decide (w.chBase ≤ c ∧ c < w.chBase + w.size / w.k) then
    let i := ((List.range ch).filter fun x => bitAt w.mask x).length
    let o := c - w.chBase
    some (w.base + (o / w.grainBytes * w.k + i) * w.grainBytes + o % w.grainBytes)
  else none

def deviceAddr (s : Device) (ch c : Nat) : Option Nat := s.mem.windows.findSome? fun w => w.unmap ch c

def overlaps (a n b m : Nat) : Bool := decide (a < b + m) && decide (b < a + n)

/-- One window meets R271 by itself. -/
def Window.ok (s : Device) (w : Window) : Bool :=
  let g := 2 ^ 28
  let k := w.k
  w.base % g = 0 && w.chBase % g = 0 && k ≠ 0 && w.size ≠ 0 && w.size % (k * g) = 0
    && (w.mask &&& (fittedMask s ^^^ (2 ^ 24 - 1))) = 0 && decide (w.grain ≤ 8) && decide (w.base + w.size ≤ 0xC000000000)
    && (List.range 24).all fun c => !bitAt w.mask c || decide (w.chBase + w.size / k ≤ (chAt s c).bytes)

/-- Two windows do not meet, in device addresses or on a channel. -/
def Window.apart (w v : Window) : Bool :=
  !overlaps w.base w.size v.base v.size
    && ((w.mask &&& v.mask) = 0 || !overlaps w.chBase (w.size / w.k) v.chBase (v.size / v.k))

def pairsOk (p : α → α → Bool) : List α → Bool
  | [] => true
  | x :: xs => xs.all (p x) && pairsOk p xs

def windowsOk (s : Device) (ws : List Window) : Bool :=
  let v := ws.filter (·.valid)
  v.all (Window.ok s) && pairsOk Window.apart v

/-- An entry of MAP_SET, with its reserved bits zero (R275). -/
def parseWindow (b : List Byte) : Option Window :=
  let base := leAt b 0 8
  let chb := leAt b 16 8
  let mask := leAt b 24 4
  let fl := leAt b 29 1
  let w : Window := { base, size := leAt b 8 8, chBase := chb, mask, grain := leAt b 28 1, hash := bitAt fl 1, valid := bitAt fl 0 }
  if 2 ^ 48 ≤ base ∨ 2 ^ 35 ≤ chb ∨ 2 ^ 24 ≤ mask ∨ 4 ≤ fl ∨ !zeroAt b 30 2 then none
  else if !w.valid ∧ w ≠ Window.off then none else some w

/-! ## DRAM coordinates (R274) -/

structure Coord where
  column : Nat
  group  : Nat
  bank   : Nat
  row    : Nat
  rank   : Nat
  deriving DecidableEq, Repr

def coord (density : Nat) (hash : Bool) (c : Nat) : Coord :=
  let d := 31 + density
  let g := bitsAt c 12 2
  let b := bitsAt c 14 2
  { column := bitsAt c 6 6
    group := if hash then g ^^^ bitsAt c 16 2 else g
    bank := if hash then b ^^^ bitsAt c 18 2 else b
    row := bitsAt c 16 (d - 16), rank := bitsAt c d 1 }

/-- The window's hash flag that a channel address is stored under. -/
def hashOf (s : Device) (ch c : Nat) : Bool :=
  s.mem.windows.any fun w => w.valid && w.hash && bitAt w.mask ch && decide (w.chBase ≤ c ∧ c < w.chBase + w.size / w.k)

def coordOf (s : Device) (ch line : Nat) : Coord := coord (chAt s ch).density.toNat (hashOf s ch (line * 64)) (line * 64)
def bankKey (k : Coord) : Nat := k.rank * 16 + k.group * 4 + k.bank

/-- The segment that a channel address lies in (R284): rank and its three highest row bits. -/
def segOf (density c : Nat) : Nat × Nat := (bitsAt c (31 + density) 1, bitsAt c (28 + density) 3)

/-! ## Lines -/

def lineKey (ch line : Nat) : Nat := ch * 2 ^ 29 + line
def storedLine (s : Device) (ch line : Nat) : Line := s.mem.lines.get .blank (lineKey ch line)
def setLine (ch line : Nat) (x : Line) (s : Device) : Device :=
  { s with mem := { s.mem with lines := s.mem.lines.set .blank (lineKey ch line) x } }

/-- The line as the channel would return it now: the write queue first (R279). -/
def currentLine (s : Device) (ch line : Nat) : Line :=
  match ((chAt s ch).wr ++ (chAt s ch).held).find? fun e => e.line = line with
  | some e => .held e.data e.ctx
  | none => storedLine s ch line

end Sys2Proof.Machine
end

