-- ==== Sys2Proof/Machine/Protect.lean ====
section
/-! DEFINITION. The Region Table, key slots, ciphers, the P2 metadata, lines as their fill left them, checks and poison (R294 to R309,
R316, R317). -/
namespace Sys2Proof.Machine
open Sys2Proof

def regionAt (s : Device) (i : Nat) : Region := s.mem.regions.get Region.reset i
def setRegion (i : Nat) (r : Region) (s : Device) : Device :=
  { s with mem := { s.mem with regions := s.mem.regions.set Region.reset i r } }
def modRegion (i : Nat) (f : Region → Region) (s : Device) : Device := setRegion i (f (regionAt s i)) s

def keySlot (s : Device) (k : Nat) : KeySlot := s.mem.keys.get KeySlot.reset k
def setKey (k : Nat) (x : KeySlot) (s : Device) : Device :=
  { s with mem := { s.mem with keys := s.mem.keys.set KeySlot.reset k x } }

/-- Valid entries: every state but FREE. -/
def validRegions (s : Device) : List (Nat × Region) := s.mem.regions.cells.filter fun x => x.2.st ≠ .free

def Region.pages (r : Region) : Nat := r.size / 4096
def Region.holds (r : Region) (a : Nat) : Bool := decide (r.base ≤ a ∧ a < r.base + r.size)

/-- The Region Table area as the P2 region that it is, under the number 1,024 (R305). -/
def rtRegion (s : Device) : Region :=
  { Region.reset with st := .active, level := 2, keyId := 255, keyGen := (keySlot s 255).gen, base := s.mem.rtBase, size := 65536,
                      metaBase := s.mem.rtBase + 65536, metaSize := 12288 }

/-- An entry, or the Region Table area. -/
def areaAt (s : Device) (i : Nat) : Region := if i = 1024 then rtRegion s else regionAt s i

/-- Indices 1,016 to 1,023 are the device's own (R304). -/
def deviceIndex (i : Nat) : Bool := decide (1016 ≤ i)

/-! ## Metadata (R301 to R303) -/

def treeNodes : Nat → Nat → Nat
  | 0, _ => 0
  | f + 1, n => let m := (n + 7) / 8; if m ≤ 1 then m else m + treeNodes f m

def metaSizeOf (size : Nat) : Nat :=
  let n := size / 4096
  let b := size / 8 + 64 * n + 64 * treeNodes 24 n
  (b + 4095) / 4096 * 4096

/-- Nodes of level k: counter blocks at level 0. -/
def levelCount (n : Nat) : Nat → Nat
  | 0 => n
  | k + 1 => (levelCount n k + 7) / 8

/-- The level of the single top node. -/
def topLevel (n : Nat) : Nat := ((List.range 24).find? fun k => decide (levelCount n (k + 1) ≤ 1)).getD 23 + 1

/-- Where level k starts. -/
def Region.levelBase (r : Region) (k : Nat) : Nat :=
  r.metaBase + r.size / 8 + 64 * ((List.range k).map fun j => levelCount r.pages j).sum

/-- Device address of node m of level k. -/
def Region.nodeAddr (r : Region) (k m : Nat) : Nat := r.levelBase k + 64 * m

/-- Device address of the MAC line of a line of the region. -/
def Region.macAddr (r : Region) (a : Nat) : Nat := r.metaBase + (a - r.base) / 64 / 8 * 64

/-- Where the MAC of a line stands in its MAC line. -/
def Region.macSlot (r : Region) (a : Nat) : Nat := 8 * ((a - r.base) / 64 % 8)

/-- A node of the tree on the way from a page to the root. -/
structure PathNode where
  level : Nat
  index : Nat
  addr  : Nat
  deriving DecidableEq, Repr

/-- The counter block of a page and its ancestors, upwards. -/
def Region.path (r : Region) (page : Nat) : List PathNode :=
  (List.range (topLevel r.pages + 1)).map fun k => { level := k, index := page / 8 ^ k, addr := r.nodeAddr k (page / 8 ^ k) }

/-- What a metadata address holds: a MAC line, or a node. -/
inductive MetaPlace where
  | macs (first : Nat)
  | node (level index : Nat)
  | pad
  deriving DecidableEq, Repr

def Region.metaPlace (r : Region) (a : Nat) : MetaPlace :=
  if a < r.levelBase 0 then .macs ((a - r.metaBase) / 64 * 8)
  else match (List.range (topLevel r.pages + 1)).find? fun k => decide (a < r.levelBase (k + 1)) with
    | some k => .node k ((a - r.levelBase k) / 64)
    | none => .pad

/-! ## Counter blocks (R302) -/

/-- The fields of a counter block, as a number. -/
def blkMajor (b : Nat) : Nat := bitsAt b 0 56
def blkMinor (b i : Nat) : Nat := bitsAt b (56 + 7 * i) 7
def blkKgen (b : Nat) : Nat := bitsAt b 504 4

/-- A block with every MINOR 0. -/
def freshBlk (major kgen : Nat) : Nat := major % 2 ^ 56 + place (kgen % 16) 504

/-- Line i takes the minor m. -/
def setMinor (b i m : Nat) : Nat := b - place (blkMinor b i) (56 + 7 * i) + place (m % 128) (56 + 7 * i)

/-! ## MACs (R299, R300) -/

/-- The first 8 bytes of a tag. -/
def mac8 (tag : List Byte) : List Byte := sliceBytes tag 0 8

/-- The MAC of a tree child at device address `n` under the tree key (R300). -/
def childMac (kt : List Byte) (n : Nat) (child : List Byte) : List Byte :=
  mac8 (Config.cmac kt (leBytes 16 (2 ^ 127 + 2 ^ 126 + place (bitsAt n 6 42) 2) ++ child))

/-- The slot of child s in a node (R303). -/
def nodeSlot (node : List Byte) (s : Nat) : List Byte := sliceBytes node (8 * (s % 8)) 8

/-! ## Ciphers (R298, R299) -/

/-- The IV of block `j` of a line, `macBit` set for the MAC context. -/
def ivBlock (x : Seal) (j : Nat) (macBit : Bool) : List Byte :=
  leBytes 16 (j % 4 + place (bitsAt x.addr 6 42) 2 + place (x.minor % 128) 44 + place (x.major % 2 ^ 56) 51
    + place (x.kgen % 16) 107 + bit macBit 127)

def xorBytes (a b : List Byte) : List Byte := (a.zip b).map fun p => p.1 ^^^ p.2

/-- The keystream of a P2 line: encryption and decryption are the same. -/
def keystream (x : Seal) : List Byte := (List.range 4).flatMap fun j => sliceBytes (Config.aes256 x.ka (ivBlock x j false)) 0 16

/-- The bytes that a line's devices hold. -/
def cipherLine (x : Option Seal) (data : List Byte) : List Byte :=
  match x with
  | none => data
  | some x =>
    if x.level = 1 then Config.xts x.ka x.kb (bitsAt x.addr 6 42) data
    else xorBytes data (keystream x)

/-- The MAC of a P2 line: message is the context block and the ciphertext, given as the channel holds it. -/
def lineMac (x : Seal) (raw : List Byte) : List Byte := mac8 (Config.cmac x.kb (ivBlock x 0 true ++ raw))

/-! ## Contexts of lines -/

def Region.pageIdx (r : Region) (a : Nat) : Nat := (a - r.base) / 4096

/-- Key ID and generation that the till line selects for a page (R304, R321). -/
def Region.keyFor (r : Region) (page : Nat) : Nat × Nat :=
  if r.st = .rotating ∧ page < r.till then (r.newKeyId, r.newGen) else (r.keyId, r.keyGen)

/-- The context of a line under a key, with these counters. -/
def sealWith (slot : KeySlot) (level a major minor kgen : Nat) : Seal :=
  { ka := slot.ka, kb := slot.kb, level, addr := a / 64 * 64, major, minor, kgen }

/-- The context that a line of a P1 region is encrypted under, or of a P2 region whose counter block is `blk`. -/
def sealFor (s : Device) (r : Region) (a blk : Nat) : Option Seal :=
  if r.level = 0 then none
  else
    let slot := keySlot s (r.keyFor (r.pageIdx a)).1
    some (if r.level = 2 then sealWith slot 2 a (blkMajor blk) (blkMinor blk (a / 64 % 64)) (blkKgen blk)
      else sealWith slot r.level a 0 0 0)

/-- The 64 bytes of a filled line. DEDUCED (log 59). -/
def zeroLine : List Byte := List.replicate 64 0

/-! ## What a fill left (R319, R324)

A line that nothing has written since its region's fill is not listed. What the fill wrote there follows from the region. -/

def rootAt (s : Device) (i : Nat) : Root := (s.mem.roots.get none i).getD { gen := 0, mac := none }

/-- The counter block of every page as the fill wrote it. -/
def fillBlk (s : Device) (i : Nat) : Nat := freshBlk 0 (rootAt s i).gen

/-- A node as the fill built it. -/
def fillNode (s : Device) (i : Nat) (r : Region) : Nat → Nat → List Byte
  | 0, _ => leBytes 64 (fillBlk s i)
  | k + 1, m => (List.range 8).flatMap fun j =>
      if 8 * m + j < levelCount r.pages k then childMac (treeKey s) (r.nodeAddr k (8 * m + j)) (fillNode s i r k (8 * m + j))
      else List.replicate 8 0

def fillSeal (s : Device) (i : Nat) (r : Region) (a : Nat) : Option Seal := sealFor s r a (fillBlk s i)

/-- A MAC line as the fill wrote it. -/
def fillMacs (s : Device) (i : Nat) (r : Region) (first : Nat) : List Byte :=
  (List.range 8).flatMap fun j =>
    let x := fillSeal s i r (r.base + (first + j) * 64)
    match x with
    | some y => lineMac y (cipherLine x zeroLine)
    | none => List.replicate 8 0

def fillMeta (s : Device) (i : Nat) (r : Region) (a : Nat) : List Byte :=
  match r.metaPlace a with
  | .macs f => fillMacs s i r f
  | .node k m => fillNode s i r k m
  | .pad => zeroLine

/-- Areas of data and metadata: every valid entry and the Region Table area. -/
def areas (s : Device) : List (Nat × Region) := validRegions s ++ (if s.mem.rtReady then [(1024, rtRegion s)] else [])

def Region.holdsMeta (r : Region) (a : Nat) : Bool := r.level = 2 && decide (r.metaBase ≤ a ∧ a < r.metaBase + r.metaSize)

/-- A line of a device address as its channel holds it; one that is not listed stands as its region's fill left it. -/
def asFilled (s : Device) (a : Nat) (l : Line) : Line :=
  match l with
  | .blank =>
    match (areas s).find? fun x => x.2.holds a with
    | some (i, r) => .held zeroLine (fillSeal s i r a)
    | none =>
      match (areas s).find? fun x => x.2.holdsMeta a with
      | some (i, r) => .held (fillMeta s i r (a / 64 * 64)) none
      | none => .blank
  | l => l

/-- The bytes of a line as a region's reader sees them. -/
def Line.plain : Line → List Byte
  | .held d _ => d
  | _ => zeroLine

/-- The bytes of a line as its devices hold them. -/
def Line.raw : Line → List Byte
  | .held d x => cipherLine x d
  | _ => zeroLine

/-- Bytes that nothing determines. -/
def freeBytes (n : Nat) (s : Device) : List Byte × Device :=
  let (v, s) := freeNat s
  (leBytes n v, s)

/-- Nothing determines what a blank line holds: ciphertext of a freed region, or a segment that was dropped (R285, R309). -/
def openBlank (s : Device) (a : Nat) : Bool :=
  (s.mem.remnants.any fun r => decide (r.1 ≤ a ∧ a < r.1 + r.2))
    || match memWindow s a with
      | some w =>
        let (ch, c) := w.map a
        let g := segOf (chAt s ch).density.toNat c
        bitAt (s.mem.lostSegs.get 0 ch) (g.1 * 8 + g.2)
      | none => false

/-- The bytes that a plaintext access outside every region finds (R309): ciphertext of a freed region, or what was written. -/
def rawLine (a : Nat) (l : Line) (s : Device) : List Byte × Device :=
  match l with
  | .held d x => (cipherLine x d, s)
  | .lost => freeBytes 64 s
  | .blank => if openBlank s a then freeBytes 64 s else (zeroLine, s)

/-! ## Checks (R309) -/

inductive Verdict where
  | deny (note : Bool)
  | poisoned
  | genFault
  | plain
  | go (index : Nat)
  deriving DecidableEq, Repr

/-- READ and XLOAD need the READ_MASK bit, the others the WRITE_MASK bit. -/
def readsOnly (p : Pkt) : Bool := p.opc = .read || (p.opc = .atomic && p.atype = .xload)

def inRtArea (s : Device) (a : Nat) : Bool := s.mem.rtReady && decide (s.mem.rtBase ≤ a ∧ a < s.mem.rtBase + 2 ^ 21)

def regionOf (s : Device) (a : Nat) : Option (Nat × Region) := (validRegions s).find? fun x => x.2.holds a

def barredArea (s : Device) (a : Nat) : Bool :=
  inRtArea s a || (validRegions s).any fun x => x.2.holdsMeta a || (deviceIndex x.1 && x.2.holds a)

/-- Decides a request; `plot` is the stamped plot, or the session's for the debug island (R587). -/
def verdict (s : Device) (i : InitId) (plot : Nat) (reads : Bool) (a : Nat) : Verdict :=
  if barredArea s a then .deny true
  else match regionOf s a with
  | none =>
    if s.trust.lifecycle = .deployed then .deny true
    else if isMgmtCore i || plot = 0 then .plain else .deny true
  | some (idx, r) =>
    if r.owner ≠ plot && !(if reads then r.rmask.getLsbD plot else r.wmask.getLsbD plot) then .deny true
    else match r.st with
    | .poisoned => .poisoned
    | .initialising | .retiring => .deny false
    | _ =>
      let (k, g) := r.keyFor (r.pageIdx a)
      if r.level ≠ 0 && decide ((keySlot s k).gen ≠ g) then .genFault else .go idx

/-! ## Security events and poison (R316, R317, R499) -/

def evClass (s : Device) (inst : Nat) : Fin 5 := Fin.ofNat 5 (s.policy.classes.getD inst 4)

/-- A security event; `region` 0 where none is concerned. Source is ENC for instances 0 to 3 and CXL for 4. -/
def securityEvent (inst region : Nat) (s : Device) : Device :=
  occur 0x0A inst region (raise (.hub (if inst = 4 then 11 else 8)) (evClass s inst) 0x14 (inst + place region 8) s)

/-- The security event of a failure in an area: the Region Table area's own tree, counters and lines are instance 2 (R316). DEDUCED (log 64). -/
def regionEvent (inst idx : Nat) (s : Device) : Device :=
  securityEvent (if idx = 1024 then 2 else inst) (if idx = 1024 then 0 else idx) s

/-- A tiller operation on the region stops, and its renewals with it. -/
def stopTillers (idx : Nat) (s : Device) : Device :=
  { s with mem := { s.mem with
      tillers := s.mem.tillers.map fun t => if t.op ≠ .idle ∧ t.region = idx then Tiller.reset else t
      renews := s.mem.renews.filter fun x => x.region ≠ idx } }

/-- The reads of an operation leave the queues. -/
def dropReads (id : Nat) (s : Device) : Device :=
  { s with mem := { s.mem with
      chans := s.mem.chans.mapCells Chan.reset fun _ c => { c with rd := c.rd.filter (·.txn ≠ id) } } }

def dropTxn (id : Nat) (s : Device) : Device := dropReads id { s with mem := { s.mem with txns := s.mem.txns.filter (·.id ≠ id) } }

/-- A request past the check fails. -/
def failTxn (t : Txn) (rc : Byte) (s : Device) : Device := failReq t.pkt rc (dropTxn t.id s)

def failTxns (p : Txn → Bool) (rc : Byte) (s : Device) : Device :=
  (s.mem.txns.filter p).foldl (fun s t => failTxn t rc s) s

/-- The renewals of a region end; the reads of an engine and the writes that they carried fail. -/
def failRenewals (idx : Nat) (rc : Byte) (s : Device) : Device :=
  (s.mem.renews.filter fun x => x.region = idx).foldl (fun s x =>
    let s := x.tags.foldl (fun s p => failReq p rc s) (dropReads x.id s)
    match x.answer with
    | some a => failReq a.1 rc s
    | none => s) s

/-- The Region Table entry no longer belongs to a running operation (R304). -/
def Region.settled (r : Region) : Region := { r with newKeyId := 0, newGen := 0, rate := 0 }

/-- The region becomes POISONED (R317). An entry with key ID 0 cannot be poisoned. -/
def poisonRegion (idx cause : Nat) (s : Device) : Device :=
  let r := regionAt s idx
  if r.keyId = 0 ∨ r.st = .poisoned ∨ r.st = .free then s
  else
    let s := setRegion idx { r.settled with st := .poisoned, poison := cause } { s with mem := { s.mem with due := s.mem.due ++ [idx] } }
    let s := failRenewals idx rcPoisoned (failTxns (fun t => t.region = some idx) rcPoisoned s)
    selfRec 0x0A idx 0x8009 0 0 cause (stopTillers idx s)

/-- A failure in the metadata or the data of an area (R313, R314, R316): counted, a security event, and poison. -/
def areaFails (idx inst cause : Nat) (s : Device) : Device :=
  let s := { s with mem := { s.mem with
    dataInteg := if cause = 1 then satAdd 8 s.mem.dataInteg 1 else s.mem.dataInteg
    metaInteg := if cause = 2 ∨ cause = 3 ∨ cause = 7 then satAdd 8 s.mem.metaInteg 1 else s.mem.metaInteg } }
  poisonRegion idx cause (regionEvent inst idx s)

/-! ## Writes of lines -/

def memStop (ch : Nat) : Nat := if ch < 12 then 0 else 1

def schedHigh (x : Chan) : Nat := let h := (x.sched.extractLsb' 0 7).toNat; if h = 0 then 1 else Nat.min h 64
def schedLow (x : Chan) : Nat := Nat.min (x.sched.extractLsb' 8 7).toNat (schedHigh x - 1)
def schedAge (x : Chan) : Nat := (x.sched.extractLsb' 16 8).toNat * 1000
def schedBypass (x : Chan) : Nat := let b := (x.sched.extractLsb' 24 4).toNat; if b = 0 then 1 else b

/-- A queued write is older than WR_AGE. -/
def agedWrite (now : Nat) (x : Chan) : Bool := schedAge x ≠ 0 && x.wr.any fun e => decide (e.time + schedAge x < now)

/-- The drain of R280 begins and ends. -/
def Chan.drainState (now : Nat) (x : Chan) : Chan :=
  if x.draining then { x with draining := !(decide (x.wr.length ≤ schedLow x) && !agedWrite now x) }
  else { x with draining := decide (schedHigh x ≤ x.wr.length) || agedWrite now x }

def putWr (e : WrEntry) (l : List WrEntry) : List WrEntry :=
  l.map fun (x : WrEntry) => if x.line = e.line then { x with data := e.data, ctx := e.ctx, keyId := e.keyId } else x

/-- Lines that wait enter the write queue while it has room. -/
def Chan.takeHeld (now : Nat) (c : Chan) : Chan :=
  let n := 64 - c.wr.length
  { c with wr := c.wr ++ (c.held.take n).map (fun (e : WrEntry) => { e with time := now }), held := c.held.drop n }

/-- A line enters the write queue; one that matches a queued line replaces its data and keeps its place (R279). DEDUCED (log 58). -/
def enqueueWrite (ch line : Nat) (data : List Byte) (x : Option Seal) (key : Nat) (s : Device) : Device :=
  let e : WrEntry := { line, data, ctx := x, keyId := key, time := devNs s, passed := 0 }
  modCh ch (fun (c : Chan) =>
    let c : Chan := if c.wr.any (fun y => y.line = line) then { c with wr := putWr e c.wr }
      else if c.held.any (fun y => y.line = line) then { c with held := putWr e c.held }
      else { c with held := c.held ++ [e] }
    (c.takeHeld (devNs s)).drainState (devNs s)) s

/-- The line of a device address is written. -/
def writeAt (a : Nat) (data : List Byte) (x : Option Seal) (key : Nat) (s : Device) : Device :=
  match memWindow s a with
  | none => s
  | some w => let (ch, c) := w.map a; enqueueWrite ch (c / 64) data x key s

/-- The line of a device address as it stands. -/
def lineAt (s : Device) (a : Nat) : Line :=
  match memWindow s a with
  | none => .blank
  | some w => let (ch, c) := w.map (a / 64 * 64); asFilled s a (currentLine s ch (c / 64))

end Sys2Proof.Machine
end

