-- ==== Sys2Proof/Machine/Tree.lean ====
section
/-! DEFINITION. The counter cache and the integrity tree, writes of P2 lines, page renewal, and the Region Table in memory
(R303 to R307, R310 to R313, R318 to R320). -/
namespace Sys2Proof.Machine
open Sys2Proof

/-! ## The counter cache (R312, R313) -/

/-- Lines of the 4 MiB cache. -/
def cacheLines : Nat := 65536

def cached (s : Device) (a : Nat) : Option CacheLine := s.mem.cache.find? fun c => c.line = a / 64
def setCache (l : List CacheLine) (s : Device) : Device := { s with mem := { s.mem with cache := l } }
def dropCached (a : Nat) (s : Device) : Device := setCache (s.mem.cache.filter fun c => c.line ≠ a / 64) s

/-- The line becomes the one used last. -/
def touchCached (c : CacheLine) (s : Device) : Device := setCache ((s.mem.cache.filter fun x => x.line ≠ c.line) ++ [c]) s

def cacheBytes (s : Device) (c : CacheLine) : List ByteRead := (arrayAt s 4 0).readBytes (c.slot * 64) 64

/-- A fault of a read of the cache, with its first byte of that kind. -/
def cacheFault (p : ByteRead → Bool) (cls : Fin 5) (cause : Nat) (c : CacheLine) (l : List ByteRead) (s : Device) : Device :=
  let i := firstIdx p l
  raise (arraySource 4 0) cls cause (sramDetail 4 (c.slot * 64 + i) ((l.map (·.syn)).getD i 0)) s

inductive CacheRead where
  | miss
  | bytes (b : List Byte)
  | lost
  deriving DecidableEq, Repr

/-- A read of a cached line (R313): a clean line with a bad byte is discarded, a dirty one is lost. -/
def readCached (a : Nat) (s : Device) : Device × CacheRead :=
  match cached s a with
  | none => (s, .miss)
  | some c =>
    let l := cacheBytes s c
    let s := if anyCorrected l then
        cacheFault (·.cls.corrected) 1 0x01 c l { s with mem := { s.mem with ccCorr := satAdd 16 s.mem.ccCorr 1 } }
      else s
    if anyBad l then
      let s := dropCached a { s with mem := { s.mem with ccUnc := satAdd 8 s.mem.ccUnc 1 } }
      if c.dirty then (s, .lost) else (cacheFault (·.cls.bad) 2 0x02 c l s, .miss)
    else (touchCached c s, .bytes (dataOf l))

def writeSlot (slot : Nat) (b : List Byte) (s : Device) : Device := setArray 4 0 ((arrayAt s 4 0).writeBytes (slot * 64) b) s

/-- A new copy of a metadata line goes to every operation that has fetched the old one. -/
def refreshGot (a : Nat) (b : List Byte) (s : Device) : Device :=
  let f (r : Reads) : Reads := { r with got := r.got.map fun (e : Nat × List Byte) => if e.1 = a / 64 then (e.1, b) else e }
  { s with mem := { s.mem with txns := s.mem.txns.map (fun (t : Txn) => { t with reads := f t.reads })
                               renews := s.mem.renews.map (fun (x : Renewal) => { x with reads := f x.reads }) } }

/-- A node is written to memory. -/
def writeNode (a : Nat) (b : List Byte) (s : Device) : Device := refreshGot a b (writeAt a b none 0 s)

/-! ## The tree (R303) -/

/-- The MAC of the top node that the root store holds. -/
def rootMac (s : Device) (i : Nat) (r : Region) : List Byte :=
  let k := topLevel r.pages
  (rootAt s i).mac.getD (childMac (treeKey s) (r.nodeAddr k 0) (fillNode s i r k 0))

/-- Nodes above node m of level k, upwards. -/
def Region.above (r : Region) (k m : Nat) : List PathNode :=
  (List.range (topLevel r.pages - k)).map fun j =>
    { level := k + 1 + j, index := m / 8 ^ (j + 1), addr := r.nodeAddr (k + 1 + j) (m / 8 ^ (j + 1)) }

/-- A node as the engine may trust it: cached, or verified against its parent or the root; upwards from the node. -/
def trustedNode (s : Device) (i : Nat) (r : Region) : List PathNode → Option (List Byte)
  | [] => none
  | n :: up =>
    match cached s n.addr with
    | some c => some (dataOf (cacheBytes s c))
    | none =>
      let b := (lineAt s n.addr).raw
      let slot := match up with
        | [] => some (rootMac s i r)
        | _ => (trustedNode s i r up).map fun p => nodeSlot p n.index
      if slot = some (childMac (treeKey s) n.addr b) then some b else none

/-- The MAC of a child that has been written goes into its parent, or from the top node to the root (R312). A parent that is not cached is
fetched, verified and written. -/
def climb (i : Nat) (r : Region) : List PathNode → Nat → List Byte → Device → Device
  | [], _, mac, s => { s with mem := { s.mem with roots := s.mem.roots.set none i (some { rootAt s i with mac := some mac }) } }
  | n :: up, child, mac, s =>
    match readCached n.addr s with
    | (s, .bytes b) =>
      match cached s n.addr with
      | some c => touchCached { c with dirty := true } (writeSlot c.slot (spliceBytes b (8 * (child % 8)) mac) s)
      | none => s
    | (s, .lost) => areaFails i 3 6 s
    | (s, .miss) =>
      match trustedNode s i r (n :: up) with
      | none => areaFails i 1 3 s
      | some b =>
        let b := spliceBytes b (8 * (child % 8)) mac
        climb i r up n.index (childMac (treeKey s) n.addr b) (writeNode n.addr b s)

/-- The area whose metadata holds an address, with the node there. -/
def nodeOf (s : Device) (a : Nat) : Option (Nat × Region × Nat × Nat) :=
  match (areas s).find? fun x => x.2.holdsMeta a with
  | none => none
  | some (i, r) =>
    match r.metaPlace a with
    | .node k m => some (i, r, k, m)
    | _ => none

/-- A line leaves the cache; a dirty one is written back (R312). -/
def evict (c : CacheLine) (s : Device) : Device :=
  let a := c.line * 64
  if !c.dirty then dropCached a s
  else
    match nodeOf s a with
    | none => dropCached a s
    | some (i, r, k, m) =>
      match readCached a s with
      | (s, .bytes b) => climb i r (r.above k m) m (childMac (treeKey s) a b) (dropCached a (writeNode a b s))
      | (s, .lost) => areaFails i 3 6 s
      | (s, .miss) => s

/-- A line enters the cache or changes there; a full cache first gives up the line used longest ago. DESIGN CHOICE (log 137). -/
def putCached (a : Nat) (b : List Byte) (dirty : Bool) (s : Device) : Device :=
  match cached s a with
  | some c => touchCached { c with dirty := c.dirty || dirty } (writeSlot c.slot b s)
  | none =>
    let s := if s.mem.cache.length < cacheLines then s else match s.mem.cache with
      | c :: _ => evict c s
      | [] => s
    let slot := ((List.range cacheLines).find? fun k => s.mem.cache.all fun c => c.slot ≠ k).getD 0
    touchCached { line := a / 64, slot, dirty } (writeSlot slot b s)

/-- Lines of an area leave the cache without being written back (R330). -/
def purgeCache (p : Nat → Bool) (s : Device) : Device := setCache (s.mem.cache.filter fun c => !p (c.line * 64)) s

/-! ## Counter blocks -/

/-- What a fetch of a page's counter block comes to: the block, lines that must still be read, or a failure. -/
inductive Fetch where
  | block (b : Nat)
  | need (lines : List Nat)
  | fails (inst cause : Nat)
  deriving DecidableEq, Repr

/-- The nodes of a page's path that must come from memory, upwards from the block. -/
def missing (s : Device) (r : Region) (page : Nat) : List PathNode := (r.path page).takeWhile fun n => (cached s n.addr).isNone

/-- Verifies downwards, each node against the slot in its parent, and caches it (R312, R314). `slot` is what the first one must match. -/
def descend (i : Nat) (got : Nat → Option (List Byte)) : List PathNode → List Byte → Device → Device × Except Fetch (List Byte)
  | [], b, s => (s, .ok b)
  | n :: down, slot, s =>
    match got n.addr with
    | none => (s, .error (.need ((n :: down).map fun x => x.addr / 64)))
    | some b =>
      if childMac (treeKey s) n.addr b = slot then
        let s := putCached n.addr b false s
        match down with
        | [] => (s, .ok b)
        | d :: _ => descend i got down (nodeSlot b d.index) s
      else (s, .error (.fails 1 3))

/-- What the topmost missing node of a path is checked against: a slot of the lowest cached ancestor, or the root; or the block itself
where none is missing. -/
def anchor (i : Nat) (r : Region) (page : Nat) (s : Device) : Device × Except Fetch (List Byte) :=
  let m := missing s r page
  match (r.path page)[m.length]? with
  | none => (s, .ok (rootMac s i r))
  | some n =>
    match readCached n.addr s with
    | (s, .bytes b) => (s, .ok (match m.getLast? with | some d => nodeSlot b d.index | none => b))
    | (s, .lost) => (s, .error (.fails 3 6))
    | (s, .miss) => (s, .error (.need ((missing s r page).map fun n => n.addr / 64)))

/-- The counter block of a page, verified; its KGEN must be that of the key that the till line selects (R312 to R314). -/
def loadBlock (i : Nat) (r : Region) (page : Nat) (got : Nat → Option (List Byte)) (s : Device) : Device × Fetch :=
  let m := missing s r page
  match anchor i r page s with
  | (s, .error e) => (s, e)
  | (s, .ok slot) =>
    match descend i got m.reverse slot s with
    | (s, .error e) => (s, e)
    | (s, .ok b) => (s, if blkKgen (ofLe b) = (r.keyFor page).2 % 16 then .block (ofLe b) else .fails 1 7)

/-- A counter block is updated in the cache and marked dirty. -/
def putBlock (r : Region) (page b : Nat) (s : Device) : Device := putCached (r.nodeAddr 0 page) (leBytes 64 b) true s

/-- Lines as they stand, for transfers that the model performs at once. -/
def standing (s : Device) (a : Nat) : Option (List Byte) := some (lineAt s a).raw

/-- A block fetched at once; a cached ancestor that is discarded on the way is fetched again. -/
def loadNow (i : Nat) (r : Region) (page : Nat) : Nat → Device → Device × Fetch
  | 0, s => (s, .fails 1 3)
  | n + 1, s =>
    match loadBlock i r page (standing s) s with
    | (s, .need _) => loadNow i r page n s
    | x => x

/-! ## P2 lines (R299, R310, R311) -/

/-- The context of a line under a counter block. -/
def p2Seal (s : Device) (r : Region) (a blk : Nat) : Seal :=
  sealWith (keySlot s (r.keyFor (r.pageIdx a)).1) 2 a (blkMajor blk) (blkMinor blk (a / 64 % 64)) (blkKgen blk)

/-- Plaintext of a P2 line whose MAC is right; `none` where it is not. -/
def openP2 (x : Seal) (raw mac : List Byte) : Option (List Byte) :=
  if lineMac x raw = mac then some (xorBytes raw (keystream x)) else none

/-- MAC lines as they change during one operation. -/
abbrev MacLines := List (Nat × List Byte)

def macLine (s : Device) (ms : MacLines) (a : Nat) : List Byte :=
  ((ms.find? fun e => e.1 = a / 64).map (·.2)).getD (lineAt s a).raw

def setMacLine (a : Nat) (b : List Byte) (ms : MacLines) : MacLines := (a / 64, b) :: ms.filter fun e => e.1 ≠ a / 64

/-- One line is encrypted under its counters, and its MAC enters the MAC line. -/
def sealLine (r : Region) (key : Nat) (x : Seal) (a : Nat) (data : List Byte) (ms : MacLines) (s : Device) : Device × MacLines :=
  let s := writeAt a data (some x) key { s with mem := { s.mem with unread := s.mem.unread.filter (· ≠ a / 64) } }
  let m := r.macAddr a
  (s, setMacLine m (spliceBytes (macLine s ms m) (r.macSlot a) (lineMac x (cipherLine (some x) data))) ms)

/-- Lines are written with a new minor each, but for the first where a renewal has just set it (R311). -/
def sealLines (r : Region) (fresh : Bool) : List (Nat × List Byte) → Nat → MacLines → Device → Device × Nat × MacLines
  | [], blk, ms, s => (s, blk, ms)
  | (a, d) :: xs, blk, ms, s =>
    let i := a / 64 % 64
    let blk := if fresh then blk else setMinor blk i (blkMinor blk i + 1)
    let (s, ms) := sealLine r (r.keyFor (r.pageIdx a)).1 (p2Seal s r a blk) a d ms s
    sealLines r false xs blk ms s

/-- The MAC lines and the counter block of a write. -/
def closeWrite (r : Region) (page blk : Nat) (ms : MacLines) (s : Device) : Device :=
  putBlock r page blk (ms.foldl (fun s e => writeAt (e.1 * 64) e.2 none 0 s) s)

/-! ## Page renewal (R318 to R320) -/

/-- Lines of a page. -/
def Region.lines (r : Region) (page : Nat) : List Nat := (List.range 64).map fun j => r.base + page * 4096 + j * 64

def Region.macLines (r : Region) (page : Nat) : List Nat := (List.range 8).map fun j => r.metaBase + page * 512 + j * 64

/-- MAJOR is exhausted (R318). -/
def exhausted (blk : Nat) : Bool := blkMajor blk = 2 ^ 56 - 1

/-- The poison of R318, R320. -/
def renewalPoison (idx cause cls : Nat) (s : Device) : Device :=
  poisonRegion idx cause (raise (.hub 8) (Fin.ofNat 5 cls) 0x15 (idx + place cause 16) s)

/-- A page under its next MAJOR and a key: every line and every MAC line whole, the block marked dirty (R319). -/
def resealP2 (r : Region) (page major : Nat) (key : Nat × Nat) (plain : Nat → List Byte) (s : Device) : Device × Nat :=
  let blk := freshBlk (major + 1) key.2
  let x (a : Nat) : Seal := sealWith (keySlot s key.1) 2 a (major + 1) 0 key.2
  let s := (r.lines page).foldl (fun s a =>
    writeAt a (plain a) (some (x a)) key.1 { s with mem := { s.mem with unread := s.mem.unread.filter (· ≠ a / 64) } }) s
  let s := (List.range 8).foldl (fun s g =>
    writeAt (r.metaBase + page * 512 + g * 64) ((List.range 8).flatMap fun j =>
      let a := r.base + page * 4096 + (g * 8 + j) * 64
      lineMac (x a) (cipherLine (some (x a)) (plain a))) none 0 s) s
  (putBlock r page blk s, blk)

/-- A P1 page under a key. -/
def resealP1 (r : Region) (page key : Nat) (plain : Nat → List Byte) (s : Device) : Device :=
  (r.lines page).foldl (fun s a => writeAt a (plain a) (some (sealWith (keySlot s key) 1 a 0 0 0)) key s) s

/-- The lines of a page as they stand, checked: plaintext by line, or `none` where a MAC is wrong. -/
def openPage (s : Device) (r : Region) (page blk : Nat) (raw : Nat → List Byte) : Option (List (Nat × List Byte)) :=
  (r.lines page).mapM fun a => (openP2 (p2Seal s r a blk) (raw a) (sliceBytes (raw (r.macAddr a)) (r.macSlot a) 8)).map fun d => (a, d)

def plainOf (l : List (Nat × List Byte)) (a : Nat) : List Byte := ((l.find? fun e => e.1 = a).map (·.2)).getD zeroLine

/-- An overflow renewal performed at once, for transfers that the model performs at once: the block after it. -/
def renewNow (i : Nat) (r : Region) (page blk : Nat) (s : Device) : Device × Option Nat :=
  if exhausted blk then (renewalPoison i 4 3 s, none)
  else match openPage s r page blk fun a => (lineAt s a).raw with
    | none => (areaFails i 0 1 s, none)
    | some l =>
      let (s, b) := resealP2 r page (blkMajor blk) (r.keyFor page) (plainOf l) s
      ({ s with mem := { s.mem with renewals := satAdd 48 s.mem.renewals 1 } }, some b)

/-- Lines of one page are written at once, with MAC lines read before (R310, R311). `false` where the region became poisoned. -/
def writeNow (i : Nat) (r : Region) (page blk : Nat) (xs : List (Nat × List Byte)) (ms : MacLines) (s : Device) : Device × Bool :=
  if xs.any fun x => blkMinor blk (x.1 / 64 % 64) = 127 then
    match renewNow i r page blk s with
    | (s, none) => (s, false)
    | (s, some b) =>
      let first := xs.filter fun x => blkMinor blk (x.1 / 64 % 64) = 127
      let (s, b, ms) := sealLines r true (first ++ xs.filter fun x => blkMinor blk (x.1 / 64 % 64) ≠ 127) b [] s
      (closeWrite r page b ms s, true)
  else
    let (s, b, ms) := sealLines r false xs blk ms s
    (closeWrite r page b ms s, true)

/-! ## The Region Table in memory (R304, R305, R307) -/

def regionStNo : RegionSt → Nat
  | .free => 0 | .initialising => 1 | .active => 2 | .rotating => 3 | .retiring => 4 | .poisoned => 5

/-- The 64 bytes of an entry (R304). -/
def Region.bytes (r : Region) : List Byte :=
  leBytes 1 (regionStNo r.st) ++ leBytes 1 (r.level + place r.owner 4) ++ leBytes 1 r.keyId
    ++ leBytes 1 (r.keyGen % 16 + place (r.newGen % 16) 4) ++ leBytes 1 r.newKeyId ++ leBytes 1 r.poison ++ leBytes 2 0
    ++ leBytes 8 r.base ++ leBytes 8 r.size ++ leBytes 8 r.metaBase ++ leBytes 8 r.metaSize ++ leBytes 2 r.rmask.toNat
    ++ leBytes 2 r.wmask.toNat ++ leBytes 4 r.till ++ leBytes 4 r.rate ++ leBytes 12 0

/-- An entry as its line holds it. -/
def Region.ofBytes (b : List Byte) : Region :=
  { st := match leAt b 0 1 % 8 with
      | 1 => .initialising | 2 => .active | 3 => .rotating | 4 => .retiring | 5 => .poisoned | _ => .free
    level := leAt b 1 1 % 4, owner := leAt b 1 1 / 16, keyId := leAt b 2 1, keyGen := leAt b 3 1 % 16, newGen := leAt b 3 1 / 16,
    newKeyId := leAt b 4 1, poison := leAt b 5 1, base := leAt b 8 8, size := leAt b 16 8, metaBase := leAt b 24 8,
    metaSize := leAt b 32 8, rmask := BitVec.ofNat 16 (leAt b 40 2), wmask := BitVec.ofNat 16 (leAt b 42 2), till := leAt b 44 4,
    rate := leAt b 48 4 }

/-- Device address of an entry. -/
def entryAddr (s : Device) (k : Nat) : Nat := s.mem.rtBase + 64 * k

/-- The line of an entry is written in the table. -/
def storeEntry (k : Nat) (s : Device) : Device :=
  if !s.mem.rtReady then s
  else
    let r := rtRegion s
    let a := entryAddr s k
    match loadNow 1024 r (r.pageIdx a) 8 s with
    | (s, .block blk) => (writeNow 1024 r (r.pageIdx a) blk [(a, (regionAt s k).bytes)] [] s).1
    | (s, .fails inst cause) => areaFails 1024 inst cause s
    | (s, .need _) => s

/-- An entry changes on-chip and in the table (R307). -/
def putRegion (k : Nat) (r : Region) (s : Device) : Device := storeEntry k (setRegion k r s)

/-- Entries that changed without a command reach the table. DESIGN CHOICE (log 136). -/
def storeDue (s : Device) : Device :=
  if s.mem.due.isEmpty then s
  else s.mem.due.foldl (fun s k => storeEntry k s) { s with mem := { s.mem with due := [] } }

/-- The region cache holds the entry, used last now; 64 entries at most (R307). -/
def useEntry (k : Nat) (s : Device) : Device :=
  let l := s.mem.entries.filter (· ≠ k)
  { s with mem := { s.mem with entries := (if l.length < 64 then l else l.drop 1) ++ [k] } }

/-- An entry that has been fetched and verified enters the cache. -/
def adoptEntry (k : Nat) (b : List Byte) (s : Device) : Device := useEntry k (setRegion k (Region.ofBytes b) s)

/-- The verified line of an entry, from lines that have been fetched. -/
def openEntry (k : Nat) (got : Nat → Option (List Byte)) (s : Device) : Device × Except Fetch (List Byte) :=
  let r := rtRegion s
  let a := entryAddr s k
  match loadBlock 1024 r (r.pageIdx a) got s with
  | (s, .block blk) =>
    match got a, got (r.macAddr a) with
    | some raw, some m =>
      match openP2 (p2Seal s r a blk) raw (sliceBytes m (r.macSlot a) 8) with
      | some b => (s, .ok b)
      | none => (s, .error (.fails 0 1))
    | _, _ => (s, .error (.need [a / 64, r.macAddr a / 64]))
  | (s, e) => (s, .error e)

end Sys2Proof.Machine
end

