-- ==== Sys2Proof/Machine/Mem.lean ====
section
/-! DEFINITION. Requests at the LPDDR6 stops, their line reads, what they do when their lines have come, and page renewals that a write
causes (R278, R279, R309 to R321, R411). -/
namespace Sys2Proof.Machine
open Sys2Proof

/-! ## Requests -/

/-- The plot whose rights a request has; the island has checked its own against the session's plot (R587). -/
def actPlot (s : Device) (p : Pkt) : Nat :=
  if p.dbg then (s.dbg.session.map fun x => x.plot.val).getD p.plot.val else p.plot.val

def Span.whole (x : Span) : Bool := x.n = 64

def spansOf (w : Window) (p : Pkt) : List Span :=
  let a := p.addr.toNat
  let e := a + p.bcnt.toNat + 1
  (List.range (p.len.toNat + 1)).map fun i =>
    let d := a / 64 + i
    let (ch, c) := w.map (d * 64)
    let lo := Nat.max a (d * 64)
    { dline := d, chan := ch, line := c / 64, lo := lo - d * 64, n := Nat.min e (d * 64 + 64) - lo }

/-- The bytes of a write that fall in a line. -/
def Span.bytes (x : Span) (p : Pkt) : List Byte :=
  sliceBytes p.data (x.dline * 64 + x.lo - p.addr.toNat) x.n

def holdAt (why : WaitFor) (p : Pkt) (s : Device) : Device :=
  { s with trl := { s.trl with waiting := s.trl.waiting ++ [{ pkt := p, why }] } }

/-! ## Snoop filters (R411) -/

def ideAt (s : Device) (k : Nat) : Ide := s.cxl.ide.get Ide.reset k

/-- Streams 0, the link stream of CXL.io, and 5, that of CXL.cache and CXL.mem, carry nothing while they are insecure (R332). PRESUMED (log 146). -/
def ioPasses (s : Device) : Bool := !(ideAt s 0).insecure
def memPasses (s : Device) : Bool := !(ideAt s 5).insecure

/-- What a message to the host belongs to: CXL.cache and CXL.mem, or CXL.io. -/
def HostMsg.coherent : HostMsg → Bool
  | .memData _ _ _ | .memCmp _ | .biSnp _ _ _ | .rdCurr _ _ _ | .wrCur _ _ _ | .snoopRsp => true
  | _ => false

/-- A memory access of CXL.io completes: completions to a stream that carries nothing are dropped. -/
def HostMsg.access : HostMsg → Bool
  | .barRead _ _ | .unsupported _ | .abort _ => true
  | _ => false

def sendHost (m : HostMsg) (s : Device) : Device :=
  if (m.coherent && !memPasses s) || (m.access && !ioPasses s) then s else { s with cxl := { s.cxl with sent := (m :: s.cxl.sent).take 16 } }

def filterOf (s : Device) (ch : Nat) : List (Nat × Nat) := if ch < 12 then s.cxl.filterW else s.cxl.filterE
def setFilter (ch : Nat) (f : List (Nat × Nat)) (s : Device) : Device :=
  if ch < 12 then { s with cxl := { s.cxl with filterW := f } } else { s with cxl := { s.cxl with filterE := f } }

def recordedBy (s : Device) (ch dline : Nat) : Option Nat := ((filterOf s ch).find? fun e => e.1 = dline).map (·.2)

/-- Lines that each filter records at most (R411). -/
def filterCap : Nat := 262144

/-- A host read that is performed has its line recorded; a full filter first evicts its oldest entry with BISnpInv (R411). -/
def allocate (ch ld dline : Nat) (s : Device) : Device :=
  let f := filterOf s ch
  if f.any fun e => e.1 = dline then s
  else if f.length < filterCap then setFilter ch (f ++ [(dline, ld)]) s
  else match f with
    | e :: rest => setFilter ch (rest ++ [(dline, ld)]) (sendHost (.biSnp e.2 e.1 true) s)
    | [] => s

/-- The snoop filter records what a host request leaves it holding (R411). DEDUCED (log 82). -/
def recordHost (p : Pkt) (xs : List Span) (s : Device) : Device :=
  match initKind p.init with
  | .cxl ld => if p.opc = .read then xs.foldl (fun s x => allocate x.chan ld x.dline s) s else s
  | _ => s

/-- Recorded lines of a page, with the logical device that holds each (R412). -/
def recordedIn (base size : Nat) (s : Device) : List (Nat × Nat) :=
  (s.cxl.filterW ++ s.cxl.filterE).filter fun e => decide (base ≤ e.1 * 64 ∧ e.1 * 64 < base + size)

def snoopAll (es : List (Nat × Nat)) (s : Device) : Device := es.foldl (fun s e => sendHost (.biSnp e.2 e.1 true) s) s

/-- A snoop for the line is already out. -/
def snoopOut (s : Device) (dline : Nat) : Bool :=
  s.trl.waiting.any fun w => match w.why with
    | .snoop l _ => l = dline
    | _ => false

/-- The first line that a host holds under another initiator, not yet answered for. -/
def snoopNeeded (s : Device) (p : Pkt) (done : List Nat) (xs : List Span) : Option (Nat × Nat) :=
  xs.findSome? fun x =>
    if done.contains x.dline then none
    else match recordedBy s x.chan x.dline with
      | some ld => if cxlInit ld = p.init then none else some (x.dline, ld)
      | none => none

/-! ## Line reads (R278, R279) -/

/-- A request changes a line. -/
def changes (p : Pkt) : Bool := !readsOnly p
def Txn.changes (t : Txn) : Bool := Machine.changes t.pkt
def Txn.dlines (t : Txn) : List Nat := t.spans.map (·.dline)

def isP2 (s : Device) (region : Option Nat) : Bool := region.any fun i => (areaAt s i).level = 2

/-- A line as it comes to an operation: plaintext, or for a P2 region the bytes that the channel holds. -/
def asRead (p2 : Bool) (region : Option Nat) (a : Nat) (l : Line) (s : Device) : List Byte × Device :=
  match region with
  | none => rawLine a l s
  | some _ => let l := asFilled s a l; (if p2 then l.raw else l.plain, s)

/-- Automatic exit begins (R287, R288). DEDUCED (log 63). -/
def beginAutoExit (ch : Nat) (s : Device) : Device :=
  let c := chAt s ch
  if c.autoExit ∧ c.sr = .on then selfRec 0x08 ch 0x800D 0 0 0 (setCh ch { c with sr := .exiting } s) else s

/-- One line read: answered from the write queue (R279), or queued where the channel has room and takes requests. -/
def feedLine (id : Nat) (region : Option Nat) (d : Nat) (r : Reads) (s : Device) : Reads × Device :=
  match memWindow s (d * 64) with
  | none => ({ r with got := r.got ++ [(d, zeroLine)] }, s)
  | some w =>
    let (ch, c) := w.map (d * 64)
    let x := chAt s ch
    match (x.wr ++ x.held).find? fun e => e.line = c / 64 with
    | some e =>
      let (b, s) := asRead (isP2 s region) region (d * 64) (.held e.data e.ctx) s
      ({ r with got := r.got ++ [(d, b)] }, s)
    | none =>
      if x.sr ≠ .off then ({ r with todo := r.todo ++ [d] }, beginAutoExit ch s)
      else if x.rd.length < 64 then
        ({ r with need := r.need ++ [d] }, setCh ch { x with rd := x.rd ++ [{ txn := id, dline := d, line := c / 64, passed := 0 }] } s)
      else ({ r with todo := r.todo ++ [d] }, s)

/-- The reads that wait for room enter the queues as far as they can. -/
def feed (id : Nat) (region : Option Nat) (r : Reads) (s : Device) : Reads × Device :=
  r.todo.foldl (fun x d => feedLine id region d x.1 x.2) ({ r with todo := [] }, s)

/-- The reads go on to these lines. -/
def Reads.further (r : Reads) (ls : List Nat) : Reads := { r with todo := ls, got := r.got.filter fun e => !ls.contains e.1 }

/-- Two requests that must go one after the other (R279, R310): on one line where either changes it; for P2 lines also where both
change lines that share a MAC line. DEDUCED (log 138). -/
def conflicts (p2 : Bool) (p : Pkt) (xs : List Span) (t : Txn) : Bool :=
  let common := xs.any fun x => t.dlines.contains x.dline
  (t.changes && common) || (p2 && changes p && common)
    || (p2 && changes p && t.changes && xs.any fun x => t.dlines.any fun d => d / 8 = x.dline / 8)

/-- The request must wait for one that is under way. -/
def mustWait (s : Device) (p2 : Bool) (p : Pkt) (xs : List Span) : Bool :=
  s.mem.txns.any fun t => t.job = .access && conflicts p2 p xs t

def operandA (p : Pkt) : Nat := p.opA.toNat % 2 ^ (8 * (p.bcnt.toNat + 1))
def operandB (p : Pkt) : Nat := p.opB.toNat % 2 ^ (8 * (p.bcnt.toNat + 1))

/-- What an atomic writes over an old value, if anything, and what it answers (R245). -/
def atomicStep (p : Pkt) (old : Nat) : Option Nat × Byte × List Byte :=
  let n := p.bcnt.toNat + 1
  match p.atype with
  | .xload => (none, rcOkay, leBytes n old)
  | .xstore => (some (operandA p), rcOkay, [])
  | .fetchAdd => (some ((old + operandA p) % 2 ^ (8 * n)), rcOkay, leBytes n old)
  | .swap => (some (operandA p), rcOkay, leBytes n old)
  | .cas => if old = operandB p then (some (operandA p), rcOkay, leBytes n old) else (none, rcExfail, leBytes n old)
  | .reserved _ => (none, rcBad, [])

def gotLine (t : Txn) (x : Span) : List Byte := (t.reads.at (x.dline * 64)).getD zeroLine

/-! ## Performing a request outside P2 -/

/-- The key that a region's page uses, 0 for none. -/
def regionKey (s : Device) (idx : Option Nat) (a : Nat) : Nat :=
  match idx with
  | none => 0
  | some i => let r := areaAt s i; if r.level = 0 then 0 else (r.keyFor (r.pageIdx a)).1

/-- Writes one line, and ends others' reservations on it (R245). -/
def storeSpan (idx : Option Nat) (i : InitId) (x : Span) (data : List Byte) (s : Device) : Device :=
  let s := breakResvs (memStop x.chan) i x.dline s
  enqueueWrite x.chan x.line data (idx.bind fun k => sealFor s (areaAt s k) (x.dline * 64) 0) (regionKey s idx (x.dline * 64)) s

def storeSpans (idx : Option Nat) (i : InitId) (xs : List (Span × List Byte)) (s : Device) : Device :=
  xs.foldl (fun s e => storeSpan idx i e.1 e.2 s) s

/-- What a request writes over the lines that it has read, and what it answers (R245, R279). -/
def Txn.outcome (t : Txn) (plain : Span → List Byte) (skipWhole : Bool) : List (Span × List Byte) × Byte × List Byte :=
  let p := t.pkt
  match p.opc with
  | .read => ([], rcOkay, t.spans.flatMap fun x => sliceBytes (plain x) x.lo x.n)
  | .write | .pwrite =>
    ((t.spans.filter fun x => !(skipWhole && x.whole)).map fun x =>
      (x, if x.whole then x.bytes p else spliceBytes (plain x) x.lo (x.bytes p)), rcOkay, [])
  | .atomic =>
    match t.spans with
    | [] => ([], rcOkay, [])
    | x :: _ =>
      match atomicStep p (ofLe (sliceBytes (plain x) x.lo x.n)) with
      | (none, rc, d) => ([], rc, d)
      | (some v, rc, d) => ([(x, spliceBytes (plain x) x.lo (leBytes x.n v))], rc, d)
  | .reserved _ => ([], rcBad, [])

/-- Every line that a request must read has come: it is performed and answered. -/
def finishPlain (t : Txn) (s : Device) : Device :=
  let (ws, rc, d) := t.outcome (gotLine t) true
  respond t.pkt rc d (storeSpans t.region t.pkt.init ws s)

/-! ## Renewals that a write causes (R311, R319 to R321) -/

def tillerInit (e : Nat) : InitId := BitVec.ofNat 12 (0x808 + e)

/-- Another renewal holds the page of a region. -/
def renewing (s : Device) (i page : Nat) : Bool := s.mem.renews.any fun x => x.region = i && x.page = page

/-- A page of the address space is locked by a renewal (R319). -/
def pageLocked (s : Device) (a : Nat) : Bool :=
  s.mem.renews.any fun x => (areaAt s x.region).base / 4096 + x.page = a / 4096

def setRenewal (x : Renewal) (s : Device) : Device :=
  { s with mem := { s.mem with renews := s.mem.renews.map fun y => if y.id = x.id then x else y } }
def dropRenewal (id : Nat) (s : Device) : Device :=
  { s with mem := { s.mem with renews := s.mem.renews.filter fun y => y.id ≠ id } }

/-- Every line has come, and no request that entered before the lock is still under way on the page. -/
def renewalReady (s : Device) (x : Renewal) : Bool :=
  x.reads.done && !s.mem.txns.any fun t => t.region = some x.region
    && decide (t.pkt.addr.toNat / 4096 = (areaAt s x.region).base / 4096 + x.page)

/-- A renewal of a P2 page with its lines read: more lines to read, or it is over (R318 to R320). -/
def renewP2 (x : Renewal) (s : Device) : Device × Option (List Nat) :=
  let r := areaAt s x.region
  match loadBlock x.region r x.page x.reads.at s with
  | (s, .need ls) => (s, some ls)
  | (s, .fails inst cause) => (areaFails x.region inst cause s, none)
  | (s, .block blk) =>
    if !x.bad.isEmpty then (renewalPoison x.region 5 2 s, none)
    else if exhausted blk then (renewalPoison x.region 4 3 s, none)
    else match openPage s r x.page blk fun a => (x.reads.at a).getD zeroLine with
      | none => (areaFails x.region 0 1 s, none)
      | some l =>
        let (s, b) := resealP2 r x.page (blkMajor blk) x.under (plainOf l) s
        let s := match x.tiller with
          | some e => (r.lines x.page).foldl (fun s a => breakResvs (memStop (((memWindow s a).map fun w => (w.map a).1).getD 0)) (tillerInit e) (a / 64) s) s
          | none => { s with mem := { s.mem with renewals := satAdd 48 s.mem.renewals 1 } }
        match x.answer with
        | none => (dropRenewal x.id s, none)
        | some (p, rc, d) =>
          let s := x.carry.foldl (fun s e => breakResvs (memStop e.1.chan) p.init e.1.dline s) s
          let (s, b, ms) := sealLines r true (x.carry.map fun e => (e.1.dline * 64, e.2)) b [] s
          (respond p rc d (dropRenewal x.id (closeWrite r x.page b ms s)), none)

/-- The renewals of writes go on as far as they can. -/
def stepRenewal (x : Renewal) (s : Device) : Device :=
  let (r, s) := feed x.id (some x.region) x.reads s
  let x := { x with reads := r }
  let s := setRenewal x s
  if x.tiller.isNone && renewalReady s x then
    match renewP2 x s with
    | (s, none) => s
    | (s, some ls) => setRenewal { x with reads := x.reads.further ls } s
  else s

def stepRenewals (s : Device) : Device :=
  s.mem.renews.foldl (fun s x => match s.mem.renews.find? fun y => y.id = x.id with
    | some y => stepRenewal y s
    | none => s) s

/-! ## P2 requests (R310 to R314) -/

/-- A request of a P2 region with its lines read: more lines to read, or it is over. -/
def finishP2 (i : Nat) (t : Txn) (s : Device) : Device × Option (List Nat) :=
  let r := areaAt s i
  let p := t.pkt
  let page := r.pageIdx p.addr.toNat
  match loadBlock i r page t.reads.at s with
  | (s, .need ls) => (s, some ls)
  | (s, .fails inst cause) => (areaFails i inst cause (failReq p (if cause = 6 then rcPoisoned else rcIntegrity) s), none)
  | (s, .block blk) =>
    let mac (x : Span) : List Byte := sliceBytes ((t.reads.at (r.macAddr (x.dline * 64))).getD zeroLine) (r.macSlot (x.dline * 64)) 8
    let opened := t.spans.filterMap fun x => (t.reads.at (x.dline * 64)).map fun raw => (x, openP2 (p2Seal s r (x.dline * 64) blk) raw (mac x))
    if opened.any fun e => e.2.isNone then (areaFails i 0 1 (failReq p rcIntegrity s), none)
    else
      let plain (x : Span) : List Byte := ((opened.find? fun e => e.1 = x).bind (·.2)).getD zeroLine
      let (ws, rc, d) := t.outcome plain false
      if ws.isEmpty then (respond p rc d s, none)
      else if renewing s i page then (holdAt (.pageLock (p.addr.toNat / 4096)) p s, none)
      else
        let spent (e : Span × List Byte) : Bool := blkMinor blk (e.1.dline % 64) = 127
        if ws.any spent then
          if exhausted blk then (renewalPoison i 4 3 (failReq p rcPoisoned s), none)
          else match recordedIn (r.base + page * 4096) 4096 s with
            | e :: _ => (holdAt (.snoop e.1 []) p (sendHost (.biSnp e.2 e.1 true) s), none)
            | [] =>
              let x : Renewal := { id := s.mem.nextTxn, region := i, page, tiller := none, keyId := t.keyId, under := r.keyFor page,
                                   reads := Reads.of ((r.lines page ++ r.macLines page).map (· / 64)), bad := [],
                                   carry := ws.filter spent ++ ws.filter fun e => !spent e, answer := some (p, rc, d), tags := [] }
              (stepRenewal x { s with mem := { s.mem with nextTxn := s.mem.nextTxn + 1, renews := s.mem.renews ++ [x] } }, none)
        else
          let s := ws.foldl (fun s e => breakResvs (memStop e.1.chan) p.init e.1.dline s) s
          let ms : MacLines := (ws.map fun e => r.macAddr (e.1.dline * 64)).eraseDups.filterMap fun a => (t.reads.at a).map fun b => (a / 64, b)
          let (s, b, ms) := sealLines r false (ws.map fun e => (e.1.dline * 64, e.2)) blk ms s
          (respond p rc d (closeWrite r page b ms s), none)

/-! ## Entries of the Region Table (R307) -/

/-- A request whose entry has been fetched is decided afresh. -/
def finishLookup (k : Nat) (t : Txn) (s : Device) : Device × Option (List Nat) :=
  match openEntry k t.reads.at s with
  | (s, .ok b) => (holdAt (.queue 0) t.pkt (adoptEntry k b s), none)
  | (s, .error (.need ls)) => (s, some ls)
  | (s, .error (.fails inst cause)) => (areaFails 1024 inst cause (failReq t.pkt rcIntegrity s), none)
  | (s, .error (.block _)) => (s, none)

/-! ## Operations whose lines have come -/

def finishTxn (t : Txn) (s : Device) : Device × Option (List Nat) :=
  match t.job, t.region with
  | .lookup k, _ => finishLookup k t s
  | .access, some i => if (areaAt s i).level = 2 then finishP2 i t s else (finishPlain t s, none)
  | .access, none => (finishPlain t s, none)

/-- A request goes on: it waits for lines, or is performed. -/
def runTxn : Nat → Txn → Device → Device
  | 0, t, s => { s with mem := { s.mem with txns := s.mem.txns ++ [t] } }
  | n + 1, t, s =>
    let (r, s) := feed t.id t.region t.reads s
    let t := { t with reads := r }
    if !r.done then { s with mem := { s.mem with txns := s.mem.txns ++ [t] } }
    else match finishTxn t s with
      | (s, none) => s
      | (s, some ls) => runTxn n { t with reads := t.reads.further ls } s

/-- Times that a request may be sent back for further lines before it waits for the next event. -/
def rounds : Nat := 4

/-- Lines of the engine's own that a P2 request needs beside its data: nodes that are not cached, and MAC lines. -/
def metaLines (s : Device) (r : Region) (a : Nat) (dlines : List Nat) : List Nat :=
  ((missing s r (r.pageIdx a)).map fun n => n.addr / 64) ++ (dlines.map fun d => r.macAddr (d * 64) / 64).eraseDups

/-- A line lies on a channel that has failed. -/
def onFailed (s : Device) (d : Nat) : Bool := (memWindow s (d * 64)).any fun w => (chAt s (w.map (d * 64)).1).failed

/-- A new operation of a request. -/
def startTxn (job : Job) (region : Option Nat) (p : Pkt) (xs : List Span) (ls : List Nat) (s : Device) : Device :=
  if ls.any (onFailed s) then failReq p rcData s
  else
    runTxn rounds { id := s.mem.nextTxn, pkt := p, job, region, keyId := regionKey s region (if job = .access then p.addr.toNat else s.mem.rtBase),
                    spans := xs, reads := Reads.of ls } { s with mem := { s.mem with nextTxn := s.mem.nextTxn + 1 } }

/-- A request past every check enters its channels' queues. -/
def enterQueues (idx : Option Nat) (p : Pkt) (xs : List Span) (s : Device) : Device :=
  let isWrite := p.opc = .write || p.opc = .pwrite
  let reads := (xs.filter fun x => !isWrite || !x.whole).map (·.dline)
  if isP2 s idx then
    startTxn .access idx p xs (metaLines s (areaAt s (idx.getD 0)) p.addr.toNat (xs.map (·.dline)) ++ reads) s
  else
    let s := if isWrite then storeSpans idx p.init ((xs.filter Span.whole).map fun x => (x, x.bytes p)) s else s
    startTxn .access idx p xs reads s

/-! ## Reservations (R245) -/

def hasResv (stop : Nat) (i : InitId) (line : Nat) (s : Device) : Bool :=
  s.trl.resvs.any fun r => r.stop = stop && r.init = i && r.line = line

def dropResv (stop : Nat) (i : InitId) (line : Nat) (s : Device) : Device :=
  { s with trl := { s.trl with resvs := s.trl.resvs.filter fun r => !(r.stop = stop && r.init = i && r.line = line) } }

/-- A Fraelm LS slot holds a single reservation, which a further exclusive load or any exclusive store ends (R200). -/
def dropOwn (i : InitId) (s : Device) : Device :=
  match initKind i with
  | .ls _ => { s with trl := { s.trl with resvs := s.trl.resvs.filter fun r => r.init ≠ i } }
  | _ => s

/-- Records a reservation; a full stop loses its oldest. -/
def addResv (stop cap : Nat) (i : InitId) (line : Nat) (s : Device) : Device :=
  let s := dropResv stop i line s
  let old := (s.trl.resvs.filter fun r => r.stop = stop).head?
  let full := decide (cap ≤ (s.trl.resvs.filter fun r => r.stop = stop).length)
  let keep := match old with
    | some o => if full then s.trl.resvs.erase o else s.trl.resvs
    | none => s.trl.resvs
  { s with trl := { s.trl with resvs := keep ++ [{ stop, init := i, line }] } }

/-! ## A request at MW or ME -/

def srWaits (c : Chan) : Bool := c.sr ≠ .off

/-- Room in the read or write queues for what a request adds (R278). -/
def roomFor (s : Device) (p : Pkt) (xs : List Span) : Bool :=
  let isWrite := p.opc = .write || p.opc = .pwrite
  xs.all fun x =>
    let c := chAt s x.chan
    let rds := (xs.filter fun y => y.chan = x.chan && (!isWrite || !y.whole)).length
    let wrs := if readsOnly p then 0 else (xs.filter fun y => y.chan = x.chan).length
    decide (c.rd.length + rds ≤ 64) && decide (c.wr.length + wrs ≤ 64)

def mwStop : Nat := 0
def meStop : Nat := 11

/-- The first channel of a request that is in self-refresh. -/
def sleeping (s : Device) (xs : List Span) : Option Nat :=
  (xs.find? fun x => srWaits (chAt s x.chan)).map (·.chan)

/-- Performs a request that no check, lock or snoop holds. -/
def memQueue (idx : Option Nat) (p : Pkt) (xs : List Span) (s : Device) : Device :=
  if xs.any fun x => (chAt s x.chan).failed then failReq p rcData s
  else match sleeping s xs with
  | some ch => beginAutoExit ch (holdAt (.selfRefresh ch) p s)
  | none =>
    let ch0 := (xs.head?.map (·.chan)).getD 0
    if (xs.any fun x => (chAt s x.chan).retrain.isSome) || mustWait s (isP2 s idx) p xs then holdAt (.queue ch0) p s
    else if !roomFor s p xs then refuse .hub p s
    else if p.opc = .atomic then
      let line := p.addr.toNat / 64
      match p.atype with
      | .xload => enterQueues idx p xs (addResv (memStop ch0) 512 p.init line (dropOwn p.init s))
      | .xstore =>
        let held := hasResv (memStop ch0) p.init line s
        let s := dropOwn p.init (dropResv (memStop ch0) p.init line s)
        if held then enterQueues idx p xs s else respond p rcExfail [] s
      | _ => enterQueues idx p xs s
    else enterQueues idx p xs (recordHost p xs s)

/-- The entry that decides a request is not in the region cache. -/
def entryMiss (s : Device) (i : InitId) (plot : Nat) (reads : Bool) (a : Nat) : Option Nat :=
  match verdict s i plot reads a, regionOf s a with
  | .deny _, none => none
  | _, some (k, _) => if s.mem.rtReady && !barredArea s a && !s.mem.entries.contains k then some k else none
  | _, none => none

/-- A well-formed request in the LPDDR6 range is decided and performed, or waits (R27, R272, R282, R307, R309, R319, R411). `done`
names the lines that a host has already answered for. -/
def memRequest (done : List Nat) (p : Pkt) (s : Device) : Device :=
  let a := p.addr.toNat
  if !s.mem.trained then holdAt .map p s
  else match (if a < capacity s then memWindow s a else none) with
  | none => failReq p rcDecode s
  | some w =>
    let xs := spansOf w p
    match entryMiss s p.init (actPlot s p) (readsOnly p) a with
    | some k =>
      let s := storeDue s
      let e := entryAddr s k
      startTxn (.lookup k) (some 1024) p xs (metaLines s (rtRegion s) e [e / 64] ++ [e / 64]) s
    | none =>
      let s := match regionOf s a with
        | some (k, _) => if s.mem.entries.contains k then useEntry k s else s
        | none => s
      let go (idx : Option Nat) : Device :=
        if pageLocked s a then holdAt (.pageLock (a / 4096)) p s
        else match snoopNeeded s p done xs with
          | some (line, ld) =>
            let s' := if snoopOut s line then s else sendHost (.biSnp ld line (!readsOnly p)) s
            holdAt (.snoop line done) p s'
          | none => memQueue idx p xs s
      match verdict s p.init (actPlot s p) (readsOnly p) a with
      | .deny note => failReq p rcDenied (if note && p.opc ≠ .pwrite then noteAccess p.init a s else s)
      | .poisoned => failReq p rcPoisoned s
      | .genFault => failReq p rcDenied (raise (.hub 8) 2 0xFF a s)
      | .plain => go none
      | .go i => go (some i)

/-- Requests that wait for something that has happened are decided afresh, oldest first. -/
def wake (f : WaitFor → Bool) (done : Waiting → List Nat) (s : Device) : Device :=
  let ws := s.trl.waiting.filter fun w => f w.why
  let s := { s with trl := { s.trl with waiting := s.trl.waiting.filter fun w => !f w.why } }
  ws.foldl (fun s w => if tooOld s w.pkt then s else memRequest (done w) w.pkt s) s

def wakeQueue (s : Device) : Device := wake (fun w => match w with | .queue _ => true | _ => false) (fun _ => []) s
def wakePage (pg : Nat) (s : Device) : Device := wake (· = .pageLock pg) (fun _ => []) s
def wakeMap (s : Device) : Device := wake (· = .map) (fun _ => []) s
/-- Requests whose page is no longer locked (R321). -/
def wakeUnlocked (s : Device) : Device :=
  let free (w : WaitFor) : Bool := match w with | .pageLock pg => !pageLocked s (pg * 4096) | _ => false
  if s.trl.waiting.any fun w => free w.why then wake free (fun _ => []) s else s
def wakeChan (ch : Nat) (s : Device) : Device := wake (· = .selfRefresh ch) (fun _ => []) s

/-- A BIRsp releases the requests that wait for a line (R411). Where the host keeps a shared copy, a request that changes the
line is not yet answered for. -/
def wakeSnoop (line : Nat) (shared : Bool) (s : Device) : Device :=
  wake (fun w => match w with | .snoop l _ => l = line | _ => false)
    (fun w => match w.why with | .snoop l d => if shared && !readsOnly w.pkt then d else l :: d | _ => []) s

/-- Requests and renewals go on after lines have come or room has been made. -/
def memSettle (s : Device) : Device := wakeQueue (wakeUnlocked (stepRenewals s))

end Sys2Proof.Machine
end

