-- ==== Sys2Proof/Machine/Channel.lean ====
section
/-! DEFINITION. The channels: their scheduler, reads as they return, refresh, retraining, self-refresh, MAP_SET and the MEM registers
(R275 to R293, R313 to R315). -/
namespace Sys2Proof.Machine
open Sys2Proof

/-! ## The scheduler (R280) -/

/-- The entry to serve: one that has been passed as often as allowed, else the oldest to an open row, else the oldest. -/
def pickEntry (isOpen : Nat → Bool) (limit : Nat) (es : List (Nat × Nat)) : Option Nat :=
  match es.findIdx? fun e => decide (limit ≤ e.2) with
  | some i => some i
  | none =>
    match es.findIdx? fun e => isOpen e.1 with
    | some i => some i
    | none => if es.isEmpty then none else some 0

def rowOpen (s : Device) (ch line : Nat) : Bool :=
  let k := coordOf s ch line
  (chAt s ch).rows.get 0 (bankKey k) = k.row + 1

def openRow (ch line : Nat) (s : Device) : Device :=
  let k := coordOf s ch line
  modCh ch (fun c => { c with rows := c.rows.set 0 (bankKey k) (k.row + 1) }) s

def postpone (c : Chan) : Nat := Nat.min (c.refresh.extractLsb' 16 4).toNat 8

/-- Commands may be issued on the channel. -/
def Chan.runs (c : Chan) : Bool := !c.failed && c.retrain.isNone && (c.sr = .off || c.sr = .entering)

/-- A refresh closes its bank's row and is no longer owed. PRESUMED (log 62). -/
def Chan.refreshBank (c : Chan) (k : Nat) : Chan :=
  { c with owed := c.owed.set 0 k (c.owed.get 0 k - 1), rows := c.rows.set 0 k 0 }

/-- Refreshes of a rank past the postponement limit go before any other command to it (R280, R281). -/
def Chan.dueFirst (c : Chan) (rank : Nat) : Chan :=
  (List.range 16).foldl (fun c b =>
    let k := rank * 16 + b
    if postpone c < c.owed.get 0 k then c.refreshBank k else c) c

/-- A queued write may be issued: no older read of its line is queued (R279). -/
def Chan.mayWrite (c : Chan) (e : WrEntry) : Bool := !c.rd.any fun r => r.line = e.line

/-- The channel reads now: outside a drain, where every write of a drain waits for an older read of its line, and while it completes its
read queue before self-refresh (R280, R286). DEDUCED (log 139). -/
def Chan.reads (c : Chan) : Bool := !c.draining || c.sr = .entering || c.wr.all fun e => !c.mayWrite e

/-- The channel writes now. -/
def Chan.writes (c : Chan) : Bool := c.rd.isEmpty || (c.draining && c.sr ≠ .entering)

/-- One write leaves the write queue for its line. -/
def drainOne (ch : Nat) (s : Device) : Device :=
  let c := chAt s ch
  let es := c.wr.filter c.mayWrite
  match pickEntry (fun l => rowOpen s ch l) (schedBypass c) (es.map fun e => (e.line, e.passed)) with
  | none => s
  | some i =>
    match es[i]? with
    | none => s
    | some e =>
      let older := es.take i
      let c := c.dueFirst (coordOf s ch e.line).rank
      let wr := (c.wr.filter fun x => x.line ≠ e.line).map fun x => if older.contains x then { x with passed := x.passed + 1 } else x
      let s := setCh ch (({ c with wr := wr }.takeHeld (devNs s)).drainState (devNs s)) s
      openRow ch e.line (setLine ch e.line (.held e.data e.ctx) s)

def drainAll (ch : Nat) : Nat → Device → Device
  | 0, s => s
  | n + 1, s => if (chAt s ch).wr.isEmpty then s else drainAll ch n (drainOne ch s)

/-- One tick of a channel: the age of writes, one refresh that no read holds up, and one write. -/
def chanTick (s : Device) (ch : Nat) : Device :=
  let c := (chAt s ch).drainState (devNs s)
  if !c.runs then s else
  let due := (List.range 32).find? fun k => decide ((if c.rd.isEmpty then 0 else postpone c) < c.owed.get 0 k)
  let c := match due with
    | some k => c.refreshBank k
    | none => c
  let s := setCh ch c s
  if c.writes then drainOne ch s else s

/-! ## Reads as they return (R290, R291, R313 to R315) -/

def burstCls (b : Burst) : BurstCls :=
  if b.errs = 0 then .clean
  else if b.errs = 1 then (if b.pos.val < 36 then .corrected else .address)
  else if b.errs ≤ 3 then .uncorrectable
  else b.many

/-- The order of the results of a burst, gravest last. DEDUCED (log 60). -/
def gravity : BurstCls → Nat
  | .clean => 0 | .corrected => 1 | .address => 2 | .uncorrectable => 3

/-- The graver burst's subchannel, class and position. -/
def lineClass (b0 b1 : Burst) : Nat × BurstCls × Nat :=
  if gravity (burstCls b0) < gravity (burstCls b1) then (1, burstCls b1, b1.pos.val) else (0, burstCls b0, b0.pos.val)

/-- ERR_FIRST of an event. -/
def errFirst (line : Nat) (x : Nat × BurstCls × Nat) : Nat :=
  let (sub, c, pos) := x
  let code := match c with | .clean => 0 | .corrected => 1 | .uncorrectable => 2 | .address => 3
  place (line % 2 ^ 29) 6 + place (if c = .uncorrectable then 0 else pos) 35 + place sub 41 + place code 42 + 2 ^ 63

/-- Counting, ERR_FIRST, fault and measurement of a line that is not clean (R291). -/
def channelEvent (ch line : Nat) (x : Nat × BurstCls × Nat) (s : Device) : Device :=
  let v := errFirst line x
  let note (c : Chan) : Chan := { c with first := if c.first.getLsbD 63 then c.first else BitVec.ofNat 64 v }
  match x.2.1 with
  | .clean => s
  | .corrected =>
    let s := modCh ch (fun c => note { c with corr := satAdd 16 c.corr 1 }) s
    occur 0x07 ch 0 (raise (chSource ch) 1 0x0C (v - 2 ^ 63) s)
  | .uncorrectable =>
    let s := modCh ch (fun c => note { c with unc := satAdd 8 c.unc 1 }) s
    occur 0x08 ch 0 (raise (chSource ch) 2 0x0D (v - 2 ^ 63) s)
  | .address =>
    let s := modCh ch (fun c => note { c with addr := satAdd 8 c.addr 1 }) s
    occur 0x08 ch 0 (raise (chSource ch) 2 0x0D (v - 2 ^ 63) s)

/-- The bursts bring other bytes than those stored: a miscorrection of four or more symbols, or devices, a board or a bus that have
changed them (R290). -/
def altered (w0 w1 : Option (List Byte)) : Bool := w0.isSome || w1.isSome

/-- Replaces the halves of a line that come altered. -/
def alter (w0 w1 : Option (List Byte)) (d : List Byte) : List Byte :=
  sliceBytes (w0.getD (sliceBytes d 0 32)) 0 32 ++ sliceBytes (w1.getD (sliceBytes d 32 32)) 0 32

/-- The line that the bytes of a channel stand for under the context in which it is stored; a P1 line that comes altered decrypts to what
nothing determines. DEDUCED (log 140). -/
def returned (w0 w1 : Option (List Byte)) (l : Line) (s : Device) : Line × Device :=
  match l with
  | .held d none => (.held (alter w0 w1 d) none, s)
  | .held d (some x) =>
    if x.level = 2 then (.held (xorBytes (alter w0 w1 (cipherLine (some x) d)) (keystream x)) (some x), s)
    else
      let (f, s) := freeBytes 64 s
      (.held ((if w0.isSome then f.take 32 else d.take 32) ++ (if w1.isSome then f.drop 32 else d.drop 32)) (some x), s)
  | _ => (.held (alter w0 w1 zeroLine) none, s)

/-- The corrected line is queued for writing back, unless a later write to it waits already (R291). -/
def writeBack (ch line key : Nat) (l : Line) (s : Device) : Device :=
  let c := chAt s ch
  if (c.wr ++ c.held).any fun e => e.line = line then s
  else match l with
    | .held d x => enqueueWrite ch line d x key s
    | _ => s

/-- A line read has come: its place in the operation, and what the line is to it. -/
structure Arrival where
  dline : Nat
  chan  : Nat
  line  : Nat
  cls   : Nat × BurstCls × Nat
  w0    : Option (List Byte)
  w1    : Option (List Byte)

def Arrival.bad (v : Arrival) : Bool := v.cls.2.1 = .uncorrectable || v.cls.2.1 = .address

/-- A metadata line of an area that is a counter block or a node. -/
def isNode (s : Device) (region : Option Nat) (d : Nat) : Bool :=
  region.any fun i => (areaAt s i).holdsMeta (d * 64) && match (areaAt s i).metaPlace (d * 64) with
    | .node _ _ => true
    | _ => false

/-- The line that a read finds: for a region what its fill left where nothing is listed, outside regions what the devices hold. A counter
block or node comes as it stands now, for a newer copy may wait to be written. -/
def found (region : Option Nat) (v : Arrival) (s : Device) : Line × Device :=
  let l := if isNode s region v.dline then currentLine s v.chan v.line else storedLine s v.chan v.line
  match region with
  | some _ => (asFilled s (v.dline * 64) l, s)
  | none => if altered v.w0 v.w1 then let (d, s) := rawLine (v.dline * 64) l s; (.held d none, s) else (l, s)

/-- The bytes that an operation receives. -/
def arriving (region : Option Nat) (key : Nat) (v : Arrival) (s : Device) : List Byte × Device :=
  let (l, s) := found region v s
  let (l, s) := if altered v.w0 v.w1 then returned v.w0 v.w1 l s else (l, s)
  let s := if v.cls.2.1 = .corrected then writeBack v.chan v.line key l s else s
  let s := if v.cls.2.1 = .corrected && isNode s region v.dline then
      { s with mem := { s.mem with metaCorr := satAdd 16 s.mem.metaCorr 1 } } else s
  asRead (isP2 s region) region (v.dline * 64) l s

/-- The reads of an operation after one has come. -/
def Reads.take (r : Reads) (d : Nat) (b : List Byte) : Reads := { r with need := r.need.erase d, got := r.got ++ [(d, b)] }

/-- A data line that stays unreadable until it is written whole (R314). -/
def isUnread (s : Device) (region : Option Nat) (d : Nat) : Bool := isP2 s region && s.mem.unread.contains d

/-- A line has come for a request (R279, R310, R314, R315). -/
def lineReturned (t : Txn) (v : Arrival) (s : Device) : Device :=
  let s := channelEvent v.chan v.line v.cls s
  if v.bad || isUnread s t.region v.dline then
    if isNode s t.region v.dline then
      match t.region with
      | some i => areaFails i 1 2 (failTxn t rcIntegrity s)
      | none => s
    else
      let own := isP2 s t.region && t.dlines.contains v.dline && !s.mem.unread.contains v.dline && t.job = .access
      failTxn t rcData (if own then { s with mem := { s.mem with unread := s.mem.unread ++ [v.dline] } } else s)
  else
    let (b, s) := arriving t.region t.keyId v s
    let s := { s with mem := { s.mem with txns := s.mem.txns.filter (·.id ≠ t.id) } }
    runTxn rounds { t with reads := t.reads.take v.dline b } s

/-- A line has come for a renewal (R319, R320). -/
def lineRenewed (x : Renewal) (v : Arrival) (s : Device) : Device :=
  let s := channelEvent v.chan v.line v.cls s
  if v.bad || isUnread s (some x.region) v.dline then
    if isNode s (some x.region) v.dline then areaFails x.region 1 2 s
    else
      let (f, s) := freeBytes 64 s
      setRenewal { x with reads := x.reads.take v.dline f, bad := x.bad ++ [v.dline] } s
  else
    let (b, s) := arriving (some x.region) x.keyId v s
    setRenewal { x with reads := x.reads.take v.dline b } s

/-- DRAM_READ_COMPLETE: the read that R280 serves next returns. DEDUCED (log 61). -/
def dramRead (ch : Nat) (b0 b1 : Burst) (w0 w1 : Option (List Byte)) (s : Device) : Device :=
  let c := chAt s ch
  if !c.runs || !c.reads then s else
  match pickEntry (fun l => rowOpen s ch l) (schedBypass c) (c.rd.map fun e => (e.line, e.passed)) with
  | none => s
  | some i =>
    match c.rd[i]? with
    | none => s
    | some e =>
      let c := c.dueFirst (coordOf s ch e.line).rank
      let rd := ((c.rd.take i).map fun x => { x with passed := x.passed + 1 }) ++ c.rd.drop (i + 1)
      let s := openRow ch e.line (setCh ch { c with rd := rd } s)
      let v : Arrival := { dline := e.dline, chan := ch, line := e.line, cls := lineClass b0 b1, w0, w1 }
      memSettle (match s.mem.txns.find? fun t => t.id = e.txn, s.mem.renews.find? fun x => x.id = e.txn with
        | some t, _ => lineReturned t v s
        | none, some x => lineRenewed x v s
        | none, none => s)

/-- WR_AGE_EXPIRY (R280). -/
def wrAgeExpiry (ch : Nat) (s : Device) : Device := modCh ch (fun c => c.drainState (devNs s)) s

/-! ## Refresh and training (R281 to R283) -/

def refreshDue (ch rank bank : Nat) (s : Device) : Device :=
  let c := chAt s ch
  if c.fitted && (c.sr = .off || c.sr = .entering) && decide (rank < c.present.toNat) then
    let k := rank * 16 + bank
    setCh ch { c with owed := c.owed.set 0 k (c.owed.get 0 k + 1) } s
  else s

/-- A retraining begins: owed refreshes are issued and commands stop (R282). -/
def beginRetrain (ch : Nat) (s : Device) : Device :=
  let c := chAt s ch
  if c.fitted && c.retrain.isNone && c.sr = .off then
    setCh ch { c with retrain := some 1, owed := .empty, rows := .empty } s
  else s

/-- REFRESH_RATE_POLL: the indication of each rank, and whether it is above its operating range (R281). DEDUCED (log 141). -/
def ratePoll (ch : Nat) (r0 r1 : Byte) (high : BitVec 2) (s : Device) : Device :=
  let c := chAt s ch
  if !c.fitted then s else
  let two := c.present = 2
  let hot (k : Nat) : Bool := high.getLsbD k && (k = 0 || two)
  let changed := c.rateCode ≠ r0 || (two && c.rateCode1 ≠ r1)
  let note (k : Nat) (r : Byte) (s : Device) : Device :=
    if hot k then occur 0x09 ch r.toNat (raise (chSource ch) 2 0x0E r.toNat s) else s
  let s := setCh ch { c with rateCode := r0, rateCode1 := if two then r1 else 0, tempHi := c.tempHi || hot 0 || hot 1 } s
  let s := note 1 r1 (note 0 r0 s)
  if changed && c.refresh.getLsbD 8 then beginRetrain ch s else s

/-- PERIODIC_RETRAINING: the interval of RETRAIN milliseconds ends; 0 is off (R282). -/
def retrainDue (ch : Nat) (s : Device) : Device := if (chAt s ch).refresh.extractLsb' 0 8 = 0 then s else beginRetrain ch s

/-- Every queued request of a failed channel is answered with DATA_ERROR; a renewal cannot read there (R283, R320). -/
def failQueued (ch : Nat) (s : Device) : Device :=
  let here (d : Nat) : Bool := (memWindow s (d * 64)).any fun w => (w.map (d * 64)).1 = ch
  let ids := ((chAt s ch).rd.map (·.txn)).eraseDups
  let s := failTxns (fun t => ids.contains t.id || t.reads.todo.any here) rcData s
  let s := { s with mem := { s.mem with renews := s.mem.renews.map fun (x : Renewal) =>
    let l := (x.reads.need ++ x.reads.todo).filter here
    { x with bad := x.bad ++ l, reads := { need := x.reads.need.filter fun d => !here d, todo := x.reads.todo.filter fun d => !here d,
                                           got := x.reads.got ++ l.map fun d => (d, zeroLine) } } } }
  modCh ch (fun c => { c with rd := [], wr := [], held := [] }) s

/-! ## Self-refresh (R284 to R288) -/

/-- The segments of a channel that its masks drop. -/
def dropsSeg (m0 m1 : Nat) (x : Nat × Nat) : Bool := !bitAt (if x.1 = 0 then m0 else m1) x.2

/-- Lines of dropped segments are lost (R285). -/
def loseSegs (ch : Nat) (m0 m1 : Nat) (s : Device) : Device :=
  let d := (chAt s ch).density.toNat
  let dropped := maskOf ((List.range 16).map fun g => dropsSeg m0 m1 (g / 8, g % 8))
  { s with mem := { s.mem with
      lines := s.mem.lines.mapCells .blank fun k l =>
        if k / 2 ^ 29 = ch && dropsSeg m0 m1 (segOf d (k % 2 ^ 29 * 64)) then .lost else l
      lostSegs := s.mem.lostSegs.set 0 ch (s.mem.lostSegs.get 0 ch ||| dropped) } }

/-- Every MASK channel of the ranges of an entry, the table or a staged stream keeps its segments (R285). -/
def kept (s : Device) (chans m0 m1 : Nat) (base size : Nat) : Bool :=
  s.mem.windows.all fun w =>
    !w.valid || !overlaps w.base w.size base size ||
      (List.range 24).all fun ch =>
        !bitAt w.mask ch || !bitAt chans ch ||
          let d := (chAt s ch).density.toNat
          (List.range 16).all fun g =>
            !dropsSeg m0 m1 (g / 8, g % 8) ||
              let lo := g / 8 * 2 ^ (31 + d) + g % 8 * 2 ^ (28 + d)
              let i := ((List.range ch).filter fun x => bitAt w.mask x).length
              let first := Nat.max base w.base - w.base
              let last := Nat.min (base + size) (w.base + w.size) - 1 - w.base
              let gr := w.grainBytes
              let gl := first / gr
              let gh := last / gr
              let n0 := (gl + w.k - 1 - i) / w.k
              let n1 := (gh + w.k - i) / w.k
              let a := w.chBase + n0 * gr
              let b := w.chBase + n1 * gr
              n1 ≤ n0 || !overlaps lo (2 ^ (28 + d)) a (b - a)

/-- Address ranges that may not be lost or moved: valid regions, their metadata, and the table's area. -/
def ownedRanges (s : Device) : List (Nat × Nat) :=
  (validRegions s).flatMap (fun x => [(x.2.base, x.2.size)] ++ (if x.2.level = 2 then [(x.2.metaBase, x.2.metaSize)] else []))
    ++ (if s.mem.rtReady then [(s.mem.rtBase, 2 ^ 21)] else [])

def srChans (c : Ctx) : List Nat := (List.range 24).filter fun ch => bitAt (leAt c.pl 0 4) ch

/-- MEM_SELFREFRESH (0x0403). -/
def opSelfRefresh : OpSpec where
  code := 0x0403
  plenOk := (· = 12)
  session := true
  early := false
  late := never
  refusal := fun c s =>
    let chans := leAt c.pl 0 4
    let s1 := leAt c.pl 7 1
    if 2 ^ 24 ≤ chans ∨ 1 < leAt c.pl 4 1 ∨ 1 < leAt c.pl 5 1 ∨ !zeroAt c.pl 8 4
        ∨ (srChans c).any (fun ch => !(chAt s ch).fitted || ((chAt s ch).present = 1 && s1 ≠ 0)) then some stBadParam
    else if c.plot ≠ 0 then some stNotAuth
    else if leAt c.pl 4 1 = 0 ∧ (ownedRanges s).any (fun r => !kept s chans (leAt c.pl 6 1) s1 r.1 r.2) then some stBadParam
    else if heldByOther c ((srChans c).map Obj.chan) s ∧ leAt c.pl 4 1 = 0 then some stBusy
    else none
  records := fun c s =>
    if leAt c.pl 4 1 = 0 then (srChans c).length
    else ((srChans c).filter fun ch => (chAt s ch).sr ≠ .off).length
  run := fun c s =>
    if leAt c.pl 4 1 = 0 then
      let m0 := leAt c.pl 6 1
      let m1 := leAt c.pl 7 1
      let s := (srChans c).foldl (fun s ch =>
        let s := cmdRecObj c 0x08 ch s
        modCh ch (fun x => { x with autoExit := leAt c.pl 5 1 = 1, seg0 := BitVec.ofNat 8 m0, seg1 := BitVec.ofNat 8 m1,
                                    sr := if x.sr = .on then .on else .entering }) s) s
      let s := (srChans c).foldl (fun s ch => if (chAt s ch).sr = .on then loseSegs ch m0 m1 s else s) s
      if (srChans c).all fun ch => (chAt s ch).sr = .on then { st := s, reply := some (stOk, []) }
      else { st := defer c ((srChans c).map Obj.chan) s, reply := none }
    else
      let deferred := (srChans c).any fun ch => (chAt s ch).sr = .entering
      let s := (srChans c).foldl (fun s ch =>
        if (chAt s ch).sr = .off then s
        else
          let (b, s) := freshDigest s
          let (a, s) := freshDigest s
          let s := cmdRecS c 0x08 ch (if (chAt s ch).sr = .entering then stDeferred else stOk) b a s
          modCh ch (fun x => match x.sr with
            | .entering => { x with exitDue := true }
            | .on => { x with sr := .exiting }
            | _ => x) s) s
      { st := s, reply := some (if deferred then stDeferred else stOk, []) }

/-- One channel has completed its queues: it loses the dropped segments and sleeps, or goes straight on to exit, with the SELF record of
an exit that was deferred (R44, R285 to R288). -/
def enterSleep (ch : Nat) (s : Device) : Device :=
  let c := chAt s ch
  let s := drainAll ch (c.wr.length + c.held.length) s
  let c := chAt s ch
  let auto := !c.exitDue && c.autoExit && ((s.trl.waiting.any fun w => w.why = .selfRefresh ch)
    || s.mem.txns.any fun t => t.reads.todo.any fun d => (memWindow s (d * 64)).any fun w => (w.map (d * 64)).1 = ch)
  let s := loseSegs ch c.seg0.toNat c.seg1.toNat s
  let s := setCh ch { c with sr := if c.exitDue || auto then .exiting else .on, exitDue := false, draining := false, owed := .empty, rows := .empty } s
  if c.exitDue then
    let (b, s) := freshDigest s
    let (a, s) := freshDigest s
    selfRec 0x08 ch 0x8004 0 b a s
  else if auto then selfRec 0x08 ch 0x800D 0 0 0 s else s

/-- SELF_REFRESH_ENTRY_COMPLETE: each channel of the command in progress whose reads are complete sleeps, and the command is answered once
all do (R286). -/
def srEntered (s : Device) : Device :=
  match progressOf 0x0403 s with
  | none => s
  | some p =>
    let chs := srChans p.ctx
    let s := chs.foldl (fun s ch => if (chAt s ch).sr = .entering && (chAt s ch).rd.isEmpty then enterSleep ch s else s) s
    if chs.any fun ch => (chAt s ch).sr = .entering then s else finish p stOk [] s

/-- SELF_REFRESH_EXIT_COMPLETE, with the eye that the retraining finds (R287, R293). -/
def srExited (ch : Nat) (eye : Word16) (s : Device) : Device :=
  let c := chAt s ch
  if c.sr = .exiting then memSettle (wakeChan ch (setCh ch { c with sr := .off, seg0 := 0, seg1 := 0, autoExit := false, eye } s)) else s

/-! ## MAP_SET (R275 to R277) -/

def mapEntries (pl : List Byte) : List (Option Window) := (List.range 8).map fun i => parseWindow ((pl.drop (32 * i)).take 32)

/-- Windows whose entry changes, in their old and new forms. -/
def changedWindows (old new : List Window) : List Window :=
  (old.zip new).flatMap fun (a, b) => if a = b then [] else [a, b]

/-- The table in the layout of R275. -/
def Window.bytes (w : Window) : List Byte :=
  leBytes 8 w.base ++ leBytes 8 w.size ++ leBytes 8 w.chBase ++ leBytes 4 w.mask ++ leBytes 1 w.grain
    ++ leBytes 1 (bit w.valid 0 + bit w.hash 1) ++ [0, 0]
/-- DEDUCED (log 142). -/
def tableDigest (ws : List Window) : Nat := first8 (Config.sha384 (ws.flatMap Window.bytes))

/-- MAP_SET; its record carries the digests of the old and the new table (R277). -/
def opMapSet : OpSpec where
  code := 0x0404
  plenOk := (· = 256)
  session := true
  early := false
  late := never
  refusal := fun c s =>
    let es := mapEntries c.pl
    let ws := es.filterMap id
    if es.any Option.isNone ∨ !windowsOk s ws then some stBadParam
    else if c.plot ≠ 0 then some stNotAuth
    else if (changedWindows s.mem.windows ws).any fun w => w.valid && (ownedRanges s).any fun r => overlaps w.base w.size r.1 r.2 then
      some stBusy
    else none
  records := fun _ _ => 1
  run := fun c s =>
    let ws := (mapEntries c.pl).filterMap id
    let s := cmdRec c 0x09 0 (tableDigest s.mem.windows) (tableDigest ws) s
    { st := { s with mem := { s.mem with windows := ws } }, reply := some (stOk, []) }

/-! ## The MEM sub-block (R292) -/

def memWidth (off : Nat) : Option (Nat × Nat) :=
  if off = 0 ∨ off = 4 then (if off = 0 then some (0, 32) else none)
  else if off = 8 ∨ off = 0xC ∨ off = 0x10 then some (off, 32)
  else if 0x18 ≤ off ∧ off < 0x20 then some (0x18, 64)
  else if 0x800 ≤ off ∧ off < 0x900 then
    let r := off % 0x20
    if r < 0x18 then some (off / 8 * 8, 64) else if r = 0x18 then some (off, 32) else none
  else none

def memStatus (c : Chan) : Nat :=
  if c.present = 0 ∨ c.failed then 0
  else c.present.toNat + place c.rate.toNat 2 + place c.density.toNat 5 + bit c.draining 7
    + (if c.sr = .off then 0 else place c.seg0.toNat 16 + place c.seg1.toNat 24)

def memRead (s : Device) (ch off : Nat) : Nat :=
  let c := chAt s ch
  if off = 0 then memStatus c
  else if off = 8 then c.sched.toNat
  else if off = 0xC then c.refresh.toNat
  else if off = 0x10 then c.corr + place c.unc 16 + place c.addr 24
  else if off = 0x18 then c.first.toNat
  else
    let w := s.mem.windows.getD ((off - 0x800) / 0x20) Window.off
    match off % 0x20 with
    | 0 => w.base
    | 8 => w.size
    | 0x10 => w.chBase
    | _ => w.mask + place w.grain 24 + bit w.hash 28 + bit w.valid 31

def schedMask : Nat := 0x0FFF7F7F
def refreshMask : Nat := 0x000F01FF

/-- A write of a memory controller register (R292). DEDUCED (log 65). -/
def memWrite (i : InitId) (blk ch off v m : Nat) (s : Device) : Device :=
  let c := chAt s ch
  if off = 8 then
    let new := maskWrite c.sched.toNat v (m &&& schedMask)
    csrRecord i blk c.sched.toNat new (setCh ch { c with sched := BitVec.ofNat 32 new } s)
  else if off = 0xC then
    let new := maskWrite c.refresh.toNat v (m &&& refreshMask)
    csrRecord i blk c.refresh.toNat new (setCh ch { c with refresh := BitVec.ofNat 32 new } s)
  else if off = 0x18 then
    if bitAt (v &&& m) 63 then setCh ch { c with first := c.first &&& 0x7FFFFFFFFFFFFFFF } s else s
  else s

/-- MEAS of the PHY, and its macro status bits (R293). -/
def phyMeas (c : Chan) : Nat := Nat.max c.rateCode.toNat c.rateCode1.toNat + place c.eye.toNat 8
def phyMstat (c : Chan) : Nat := bit (c.sr = .on || c.sr = .exiting) 0 + bit (c.retrain.isSome || c.sr = .exiting) 1 + bit c.tempHi 2

end Sys2Proof.Machine
end

