-- ==== Sys2Proof/Machine/Access.lean ====
section
/-! DEFINITION. Where an address lies, and requests at targets other than registers (R26 to R31, R243 to R245, R309, R413); the host's
answers to snoops (R411, R412). -/
namespace Sys2Proof.Machine
open Sys2Proof

/-- Where an address lies (R26, R29). -/
inductive Spot where
  | lpddr | host | bed (b : Nat) | core (c cls off : Nat) | csr | nothing
  deriving DecidableEq, Repr

def spotOf (a : Nat) : Spot :=
  if a < 0x00C000000000 then .lpddr
  else if 0x100000000000 ≤ a ∧ a < 0x200000000000 then .host
  else if 0xE00000000000 ≤ a ∧ a < 0xE00000000000 + 384 * 2 ^ 32 then .bed ((a - 0xE00000000000) / 2 ^ 32)
  else if 0xF00000000000 ≤ a ∧ a < 0xF00000000000 + 128 * 2 ^ 24 then
    let o := a % 2 ^ 24
    if o < 0x10000 then .core ((a - 0xF00000000000) / 2 ^ 24) 1 o
    else if 0x20000 ≤ o ∧ o < 0x40000 then .core ((a - 0xF00000000000) / 2 ^ 24) 2 (o - 0x20000)
    else .core ((a - 0xF00000000000) / 2 ^ 24) 0 0
  else if 0xFFF000000000 ≤ a ∧ a < 0xFFF009000000 then .csr
  else .nothing

/-- The logical device of a plot may issue CXL.cache requests (R413). -/
def hostOpen (s : Device) (plot : Nat) : Bool := s.cxl.linkUp && s.cxl.cacheEn.getLsbD plot && plotExists s plot

/-- The bed answers requests to its target window (R30). -/
def bedAnswers (s : Device) (b : Nat) : Bool :=
  match (bedAt s b).st with
  | .running | .waiting | .paused | .stopped => true
  | _ => false

/-! ## Snoops answered (R411, R412) -/

def cxlNote (a : Nat) (s : Device) : Device := raise cxlSrc 0 0x0B a s

/-- Dirty data that a host returns: discarded where the region is being retired (R412), else written under R309 and R410. -/
def dirtyBack (ld a : Nat) (d : List Byte) (s : Device) : Device :=
  if (regionOf s a).any fun e => e.2.st = .retiring then s
  else
    let p : Pkt := { opc := .pwrite, atype := .xload, init := cxlInit ld, plot := Fin.ofNat 16 ld, pri := initPri s (cxlInit ld),
                     tag := 0, gen := 0, addr := BitVec.ofNat 48 a, len := 0, bcnt := 63, stamp := devStamp s, dbg := false, data := d,
                     opA := 0, opB := 0 }
    match verdict s (cxlInit ld) ld false a with
    | .plain | .go _ => memRequest [a / 64] p s
    | .poisoned => s
    | .deny _ | .genFault => cxlNote a s

/-- BIRSP: the answer for a line, with any dirty data; `shared` where the host keeps a clean copy. -/
def birsp (ld line : Nat) (dirty : Option (List Byte)) (shared : Bool) (s : Device) : Device :=
  if !s.cxl.linkUp || !memPasses s then s
  else
    let s := match dirty with
      | some d => dirtyBack ld (line * 64) d s
      | none => s
    let gone (f : List (Nat × Nat)) : List (Nat × Nat) := if shared then f else f.filter (· ≠ (line, ld))
    wakeSnoop line shared { s with cxl := { s.cxl with filterW := gone s.cxl.filterW, filterE := gone s.cxl.filterE } }

/-! ## Form (R244, R245) -/

def pktSize (p : Pkt) : Nat := p.bcnt.toNat + 1

/-- The opcodes are not reserved, the bytes lie in one page, LEN names their lines, and an atomic has its size and alignment. -/
def formOk (p : Pkt) : Bool :=
  let a := p.addr.toNat
  let e := a + p.bcnt.toNat
  let known : Bool := match p.opc, p.atype with
    | .reserved _, _ => false
    | .atomic, .reserved _ => false
    | _, _ => true
  known && a / 4096 = e / 4096 && p.len.toNat + 1 = e / 64 - a / 64 + 1
    && (p.opc ≠ .atomic || ((pktSize p = 4 || pktSize p = 8) && a % pktSize p = 0 && p.len = 0))

/-! ## Targets other than LPDDR6 -/

/-- A refusal of R32 at a target: ACCESS_DENIED with a C0 note. -/
def deny (p : Pkt) (s : Device) : Device :=
  failReq p rcDenied (if p.opc = .pwrite then s else noteAccess p.init p.addr.toNat s)

/-- Host memory: RdCurr or WrCur under the plot's logical device, or NO_ROUTE with a note (R413). -/
def hostRequest (p : Pkt) (s : Device) : Device :=
  let plot := actPlot s p
  let a := p.addr.toNat - 0x100000000000
  if p.opc = .atomic then failReq p rcBad s
  else if !hostOpen s plot then failReq p rcNoRoute (if p.opc = .pwrite then s else noteAccess p.init p.addr.toNat s)
  else
    let s := sendHost (if p.opc = .read then .rdCurr plot a (pktSize p) else .wrCur plot a p.data) s
    if p.opc = .pwrite then s else { s with cxl := { s.cxl with hostReqs := s.cxl.hostReqs ++ [p] } }

/-- A bed's target window (R30): a request that its state admits is queued at the access point, for its user logic. -/
def bedRequest (b : Nat) (p : Pkt) (s : Device) : Device :=
  if bedOwner s b ≠ actPlot s p then deny p s
  else if !bedAnswers s b then failReq p rcDecode s
  else if p.opc = .atomic then failReq p rcBad s
  else if p.opc = .pwrite then s
  else holdAt (.bed b) p s

/-- An atomic on data memory at a core stop, which keeps 16 reservations (R245). -/
def coreAtomic (c off : Nat) (p : Pkt) (s : Device) : Device :=
  let line := p.addr.toNat / 64
  let held := hasResv (2 + c) p.init line s
  let s := match p.atype with
    | .xload => dropOwn p.init s
    | .xstore => dropOwn p.init (dropResv (2 + c) p.init line s)
    | _ => s
  if p.atype = .xstore && !held then respond p rcExfail [] s
  else
    let l := (arrayAt s 2 c).readBytes off (pktSize p)
    let s := if p.atype = .xstore then s else reportRead 2 c off l s
    if p.atype ≠ .xstore && anyBad l then failReq p rcData s
    else
      let s := if p.atype = .xload then addResv (2 + c) 16 p.init line s else s
      match atomicStep p (ofLe (dataOf l)) with
      | (none, rc, d) => respond p rc d s
      | (some v, rc, d) =>
        let s := breakResvs (2 + c) p.init line s
        respond p rc d (setArray 2 c ((arrayAt s 2 c).writeBytes off (leBytes (pktSize p) v)) s)

/-- Lines that a request covers. -/
def pktLines (p : Pkt) : List Nat := (List.range (p.len.toNat + 1)).map fun i => p.addr.toNat / 64 + i

/-- A local memory of a core: class 1 is instruction and class 2 data memory (R29, R31, R148). -/
def coreRequest (c cls off : Nat) (p : Pkt) (s : Device) : Device :=
  if cls = 0 then failReq p rcDecode s
  else if coreOwner s c ≠ actPlot s p then deny p s
  else match p.opc with
    | .atomic => if cls = 2 then coreAtomic c off p s else failReq p rcBad s
    | .read =>
      let l := (arrayAt s cls c).readBytes off (pktSize p)
      let s := reportRead cls c off l s
      if anyBad l then failReq p rcData s else respond p rcOkay (dataOf l) s
    | _ =>
      let s := if cls = 1 then noteCode c off p.data.length s else s
      let s := if cls = 2 then (pktLines p).foldl (fun s l => breakResvs (2 + c) p.init l s) s else s
      respond p rcOkay [] (setArray cls c ((arrayAt s cls c).writeBytes off p.data) s)

end Sys2Proof.Machine
end

