-- ==== Sys2Proof/Machine/Bulk.lean ====
section
/-! DEFINITION. Transfers of the port engines and the configuration loader over the device address space. A transfer is a sequence of
requests of its initiator, one for each 64-byte line, each with a tag, a timer and its counts, performed at its target as any other request
is; but the row carries them there and back at once, and brings the lines that they read. -/
namespace Sys2Proof.Machine
open Sys2Proof

/-- The pieces of a transfer within 64-byte lines: address and length. -/
def pieces : Nat → Nat → Nat → List (Nat × Nat)
  | 0, _, _ => []
  | f + 1, a, n =>
    if n = 0 then [] else
    let k := Nat.min n (64 - a % 64)
    (a, k) :: pieces f (a + k) (n - k)

def piecesOf (a n : Nat) : List (Nat × Nat) := pieces (n / 64 + 2) a n

/-! ## Lines that a request reads -/

def cleanBurst : Burst := { errs := 0, pos := 0, many := .clean }

/-- A line as the transfer's channels return it. -/
def arrivalOf (x : NetIn) (s : Device) (d : Nat) : Arrival :=
  let (ch, c) := ((memWindow s (d * 64)).map fun w => w.map (d * 64)).getD (0, 0)
  let l := (x.lines.find? fun l => l.dline = d).getD { dline := d, b0 := cleanBurst, b1 := cleanBurst, w0 := none, w1 := none }
  { dline := d, chan := ch, line := c / 64, cls := lineClass l.b0 l.b1, w0 := l.w0, w1 := l.w1 }

/-- A read leaves its queue. -/
def unqueue (id d : Nat) (s : Device) : Device :=
  { s with mem := { s.mem with chans := s.mem.chans.mapCells Chan.reset fun _ (c : Chan) =>
      { c with rd := c.rd.filter fun e => !(e.txn = id && e.dline = d) } } }

/-- The request goes on at its target: lines that it reads come, its own renewal reads the page, and hosts answer its snoops. It stops where
it is answered or must wait for something else. -/
def carry (p : Pkt) : Nat → NetIn → Device → NetIn × Device
  | 0, x, s => (x, s)
  | n + 1, x, s =>
    match s.mem.txns.find? (fun t => t.pkt = p), s.mem.renews.find? (fun y => y.answer.any fun a => a.1 = p), s.trl.waiting.find? fun w => w.pkt = p with
    | some t, _, _ =>
      match t.reads.need with
      | d :: _ => carry p n x (lineReturned t (arrivalOf x s d) (unqueue t.id d s))
      | [] => (x, s)
    | none, some y, _ =>
      match y.reads.need with
      | d :: _ => carry p n x (memSettle (lineRenewed y (arrivalOf x s d) (unqueue y.id d s)))
      | [] => (x, s)
    | none, none, some w =>
      match w.why with
      | .snoop l _ =>
        match x.snoops.find? (fun a => a.line = l), (s.cxl.filterW ++ s.cxl.filterE).find? fun e => e.1 = l with
        | some a, some e => carry p n { x with snoops := x.snoops.erase a } (birsp e.2 l a.dirty a.shared s)
        | _, _ => (x, s)
      | .queue _ => let s' := wakeQueue s; if s'.trl.waiting.contains w then (x, s) else carry p n x s'
      | _ => (x, s)
    | none, none, none => (x, s)

/-- Lines that a request brings at most. -/
def carryLimit : Nat := 256

/-! ## One request -/

/-- A host, or a bed's user logic, answers the request with the bytes that the transfer brings (R30, R413). -/
def answerOutside (p : Pkt) (x : NetIn) (s : Device) : NetIn × Device :=
  let held (w : Waiting) : Bool := w.pkt = p && match w.why with | .bed _ => true | _ => false
  if p.opc = .read then
    if (s.cxl.hostReqs.contains p || s.trl.waiting.any held) && decide (pktSize p ≤ x.host.length) then
      ({ x with host := x.host.drop (pktSize p) }, respond p rcOkay (x.host.take (pktSize p))
        { s with cxl := { s.cxl with hostReqs := s.cxl.hostReqs.erase p }, trl := { s.trl with waiting := s.trl.waiting.filter fun w => !held w } })
    else (x, s)
  else if s.cxl.hostReqs.contains p then (x, respond p rcOkay [] { s with cxl := { s.cxl with hostReqs := s.cxl.hostReqs.erase p } })
  else (x, s)

/-- A request at its target (R27, R30, R31, R236). A register cannot be accessed this way. -/
def atSpot (p : Pkt) (s : Device) : Device :=
  match route s (initSite p.init) (targetSite p.addr.toNat) with
  | none => failReq p rcNoRoute s
  | some _ =>
    match spotOf p.addr.toNat with
    | .lpddr => memRequest [] p s
    | .host => hostRequest p s
    | .bed b => bedRequest b p s
    | .core c cls off => coreRequest c cls off p s
    | .csr => failReq p rcBad s
    | .nothing => failReq p rcDecode s

/-- The first error response that the network gives. -/
def netError (x : NetIn) : Option Byte := x.fail.filter isErr

def perform (p : Pkt) (x : NetIn) (s : Device) : NetIn × Device :=
  match netError x with
  | some rc => ({ x with fail := none }, if rc = rcTimeout then s else respond p rc [] s)
  | none => let (x, s) := carry p carryLimit x (atSpot p s); let (x, s) := answerOutside p x s; (x, memSettle s)

/-- Some time below the request's timeout has passed since it was issued. -/
def backdate (p : Pkt) (s : Device) : Device :=
  let (k, s) := freeNat s
  let w := win s p.init
  let t := tagOf w p.tag.toNat
  setWin p.init (setTag w p.tag.toNat { t with start := t.start - k % t.tmo }) s

/-- The loader's requests bear the plot of its operation (R240). -/
def asOperation (i : InitId) (plot : Nat) (s : Device) : Device := if i = loaderInit then opPlot 2 plot s else s

/-- What a request comes to: its response code and data, or nothing yet. -/
def request (opc : Opc) (i : InitId) (x : NetIn) (a n : Nat) (d : List Byte) (s : Device) : NetIn × Device × Option Pkt × Option (Byte × List Byte) :=
  let r : TrlReq := { init := i, tag := none, enters := false, odd := none, addr := BitVec.ofNat 48 a, len := 0, bcnt := BitVec.ofNat 8 (n - 1),
                      data := d, opA := 0, opB := 0 }
  match issue (initFrozen s i) opc .xload r s with
  | none => (x, s, none, none)
  | some (s, p) =>
    let lost := netError x = some rcTimeout
    let (x, s) := perform p x s
    if lost then (x, expireTag (initFrozen s i) i p.tag.toNat s, some p, some (rcTimeout, []))
    else match s.trl.rsps.find? fun q => q.req = p with
      | some q => (x, (arrive (initFrozen s i) q (backdate p { s with trl := { s.trl with rsps := s.trl.rsps.erase q } })).1, some p, some (q.rcode, q.data))
      | none => (x, s, some p, none)

/-- A host or a bed has not answered: the request's timer runs out (R253). -/
def unanswered (s : Device) (p : Pkt) : Bool :=
  s.cxl.hostReqs.contains p || s.trl.waiting.any fun w => w.pkt = p && match w.why with
    | .bed _ | .snoop _ _ => true
    | _ => false

def stick (s : Device) : Device := { s with trl := { s.trl with stuck := true } }

/-- One piece is read: response code and bytes. -/
def readPiece (i : InitId) (x : NetIn) (a n : Nat) (s : Device) : Device × Byte × List Byte × NetIn :=
  match request .read i x a n [] s with
  | (x, s, _, some (rc, d)) => (s, rc, if isErr rc then [] else d, x)
  | (x, s, some p, none) => if unanswered s p then (expireTag (initFrozen s i) i p.tag.toNat s, rcTimeout, [], x) else (stick s, rcTimeout, [], x)
  | (x, s, none, none) => (stick s, rcTimeout, [], x)

/-- One piece is written. One that waits at its target is written later; where no request can be issued, it is lost. -/
def writePiece (i : InitId) (x : NetIn) (a : Nat) (d : List Byte) (s : Device) : NetIn × Device × Byte :=
  match request .write i x a d.length d s with
  | (x, s, _, some (rc, _)) => (x, s, rc)
  | (x, s, some _, none) => (x, s, rcOkay)
  | (x, s, none, none) => (x, s, rcTimeout)

/-! ## Transfers -/

def readPieces (i : InitId) : List (Nat × Nat) → NetIn → Device → Device × Byte × List Byte × NetIn
  | [], x, s => (s, rcOkay, [], x)
  | (a, n) :: ps, x, s =>
    match readPiece i x a n s with
    | (s, rc, d, x) =>
      if isErr rc then (s, rc, [], x)
      else match readPieces i ps x s with
        | (s, rc, ds, x) => (s, rc, d ++ ds, x)

/-- A read of `n` bytes: the first error response, or the bytes. DEDUCED (log 71). -/
def busRead (i : InitId) (plot : Nat) (x : NetIn) (a n : Nat) (s : Device) : Device × Byte × List Byte × NetIn :=
  readPieces i (piecesOf a n) x (asOperation i plot s)

/-- A write; pieces before the first error have been performed. -/
def busWriteWith (x : NetIn) (i : InitId) (plot a : Nat) (d : List Byte) (s : Device) : Device × Byte :=
  let r := (piecesOf a d.length).foldl (fun (acc : NetIn × Device × Byte) (p : Nat × Nat) =>
    if isErr acc.2.2 then acc else writePiece i acc.1 p.1 (sliceBytes d (p.1 - a) p.2) acc.2.1) (x, asOperation i plot s, rcOkay)
  r.2

def busWrite : InitId → Nat → Nat → List Byte → Device → Device × Byte := busWriteWith .calm

/-- A row whose transfer must wait for its target has no effect, but that a channel in self-refresh may begin to leave it (R287). -/
def orWait (f : Device → Device) (s : Device) : Device :=
  let t := f s
  if t.trl.stuck then
    (List.range 24).foldl (fun s ch => if (chAt t ch).sr = .exiting ∧ (chAt s ch).sr = .on then beginAutoExit ch s else s) s
  else t

/-- Outside such a row a transfer that must wait fails. -/
def unstick (s : Device) : Device := { s with trl := { s.trl with stuck := false } }

end Sys2Proof.Machine
end

