-- ==== Sys2Proof/Machine/Lanes.lean ====
section
/-! DEFINITION. Lanes: the Lane Table, refreshes, calibration and retirement; and which subports run (R359 to R376). -/
namespace Sys2Proof.Machine
open Sys2Proof

def laneAt (s : Device) (l : Nat) : Lane := s.ports.lanes.get Lane.reset l
def setLane (l : Nat) (x : Lane) (s : Device) : Device := { s with ports := { s.ports with lanes := s.ports.lanes.set Lane.reset l x } }
def modLane (l : Nat) (f : Lane → Lane) (s : Device) : Device := setLane l (f (laneAt s l)) s
def pmaId (l : Nat) : ShellId := .pma (Fin.ofNat 512 l)
def pmaShell (s : Device) (l : Nat) : Shell := shellAt s (pmaId l)

def subKey (e k : Nat) : Nat := e * 8 + k
def subAt (s : Device) (e k : Nat) : Subport := s.ports.subs.get Subport.reset (subKey e k)
def setSub (e k : Nat) (x : Subport) (s : Device) : Device :=
  { s with ports := { s.ports with subs := s.ports.subs.set Subport.reset (subKey e k) x } }
def modSub (e k : Nat) (f : Subport → Subport) (s : Device) : Device := setSub e k (f (subAt s e k)) s

/-! ## Entries (R364, R367) -/

def enEnable (e : List Byte) : Bool := bitAt (leAt e 3 1) 0
def enVersion (e : List Byte) : Nat := leAt e 4 4
def enOwner (e : List Byte) : Nat := leAt e 2 1 % 16
def enMode (e : List Byte) : Nat := leAt e 8 1
def enRate (e : List Byte) : Nat := leAt e 12 4
def enFec (e : List Byte) : Nat := leAt e 16 1
def enEngine (e : List Byte) : Nat := leAt e 17 1
def enSub (e : List Byte) : Nat := leAt e 18 1
def enPortMode (e : List Byte) : Nat := leAt e 19 1
def enPos (e : List Byte) : Nat := leAt e 20 1
def enPrbs (e : List Byte) : Nat := leAt e 22 1
def enAdapt (e : List Byte) : Bool := bitAt (leAt e 32 4) 16
/-- The entry maps its lane to an engine. -/
def enMapped (e : List Byte) : Bool := !e.isEmpty && !bitAt (enEngine e) 7

/-- A port mode: lanes per subport, lane rate in kb/s, PAM4, FEC codes, and whether engines 6 and 7 run it. -/
structure PortMode where
  lanes : Nat
  rate  : Nat
  pam4  : Bool
  fecs  : List Nat
  high  : Bool
  deriving DecidableEq, Repr

def portMode : Nat → Option PortMode
  | 0x01 => some ⟨8, 106250000, true, [2], false⟩
  | 0x02 => some ⟨4, 106250000, true, [2], false⟩
  | 0x03 => some ⟨2, 106250000, true, [2], false⟩
  | 0x04 => some ⟨1, 106250000, true, [2], false⟩
  | 0x05 => some ⟨1, 53125000, true, [2], false⟩
  | 0x06 => some ⟨1, 25781250, false, [0, 1], false⟩
  | 0x07 => some ⟨1, 10312500, false, [0], false⟩
  | 0x08 => some ⟨1, 1250000, false, [0], false⟩
  | 0x11 => some ⟨8, 212500000, true, [2, 3], true⟩
  | 0x12 => some ⟨4, 212500000, true, [2, 3], true⟩
  | 0x13 => some ⟨2, 212500000, true, [2, 3], true⟩
  | 0x14 => some ⟨1, 212500000, true, [2, 3], true⟩
  | 0x15 => some ⟨1, 106250000, true, [2], true⟩
  | _ => none

/-- Local lanes 48 to 63 are of type L (R359). -/
def laneIsL (l : Nat) : Bool := decide (48 ≤ l % 64)

/-- The line rate lies within the limits of the lane's type and modulation. -/
def rateInRange (l mode rate : Nat) : Bool :=
  if laneIsL l then mode = 1 && decide (50000000 ≤ rate ∧ rate ≤ 224000000)
  else if mode = 0 then decide (1250000 ≤ rate ∧ rate ≤ 56000000)
  else decide (20000000 ≤ rate ∧ rate ≤ 112000000)

/-- The sum of the magnitudes of the transmit taps. -/
def tapSum (e : List Byte) : Nat := ((List.range 5).map fun i => (toSigned 8 (leAt e (24 + i) 1)).natAbs).sum

/-- Every field of a fetched entry is in range (R359, R367). DEDUCED (log 72). -/
def entryOk (l : Nat) (e : List Byte) : Bool :=
  let rx := leAt e 32 4
  let prbs := enPrbs e
  leAt e 0 2 = l && decide (leAt e 2 1 < 16) && bitsAt (leAt e 3 1) 3 2 ≠ 3 && bitsAt (leAt e 3 1) 5 3 = 0
    && decide (enMode e ≤ 1) && bitsAt (leAt e 9 1) 3 5 = 0 && zeroAt e 10 2 && rateInRange l (enMode e) (enRate e)
    && decide (enFec e ≤ 3) && (enMapped e || enFec e = 0) && bitsAt (enEngine e) 3 4 = 0 && decide (enSub e ≤ 7)
    && (if enMapped e then (portMode (enPortMode e)).isSome else enPortMode e = 0)
    && decide (enPos e ≤ 7) && decide (leAt e 21 1 ≤ 2) && !bitAt prbs 3 && !bitAt prbs 7
    && (enMode e = 1 || (bitsAt prbs 0 3 ≠ 7 && bitsAt prbs 4 3 ≠ 7)) && zeroAt e 23 1
    && decide (tapSum e ≤ 64) && zeroAt e 29 3 && bitsAt rx 5 3 = 0 && bitsAt rx 12 4 = 0 && bitsAt rx 18 14 = 0
    && zeroAt e 36 76

/-- The quad's reference is present and classified (R360). -/
def refOf (s : Device) (l : Nat) : Nat := s.ports.xref.get 0 (l / 64 * 4 + l % 64 / 16)
def refOk (s : Device) (l : Nat) : Bool := refOf s l ≠ 0

/-- The engine that serves a lane, and its first lane (R363). -/
def laneEngine (l : Nat) : Nat := l / 8
def engineLanes (e : Nat) : List Nat := (List.range 8).map fun i => e * 8 + i

/-- The entry that a lane has or is about to have. -/
def comingEntry (s : Device) (l : Nat) : List Byte := (laneAt s l).next.getD (laneAt s l).entry

/-- The rules of R365 for the entries of one engine's group. -/
def groupOk (s : Device) (e : Nat) (get : Nat → List Byte) : Bool :=
  let mapped := (engineLanes e).filter fun l => enMapped (get l)
  match mapped with
  | [] => true
  | l0 :: _ =>
    let pm := enPortMode (get l0)
    match portMode pm with
    | none => false
    | some m =>
      m.high = decide (6 ≤ e % 8)
        && mapped.all (fun l =>
            let x := get l
            enEngine x % 8 = e % 8 && enPortMode x = pm && enOwner x = engineOwner s e && enSub x = l % 8 / m.lanes
              && enRate x = m.rate && (enMode x = 1) = m.pam4 && m.fecs.contains (enFec x) && decide (enPos x < m.lanes))
        && (List.range (8 / m.lanes)).all (fun k =>
            let ls := mapped.filter fun l => l % 8 / m.lanes = k
            ls.isEmpty || (ls.length = m.lanes && (List.range m.lanes).all fun p => ls.any fun l => enPos (get l) = p))

/-- The lane key of a plot (R484). -/
def plotKey (s : Device) (p : Nat) (label : String) : Option (List Byte) :=
  (plotSt s p).ownerKey.map fun k => Config.hkdfExpand (Config.hkdfExtract (List.replicate 48 0) k) (asciiBytes label) 32

def laneMacOk (s : Device) (e : List Byte) : Bool :=
  match plotKey s (enOwner e) "kv lane" with
  | some k => (Config.cmac k (e.take 112)).take 16 = (e.drop 112).take 16
  | none => false

/-- R368: an accepted entry counts from its acceptance, though the lane still stops. -/
def versionOk (x : Lane) (e : List Byte) : Bool :=
  decide (x.version < enVersion e) || (enVersion e = x.version && e = x.next.getD x.entry)

/-- The status of one fetched entry, by the rows of R370 from the fetch on. -/
def entryStatus (s : Device) (l : Nat) (rc : Byte) (e : List Byte) (rulesOk : Bool) : Nat :=
  if rc = rcTimeout then stTimeout
  else if isErr rc then stBadParam
  else if !laneMacOk s e ∨ enOwner e ≠ laneOwner s l then stAuthFail
  else if !versionOk (laneAt s l) e then stReplay
  else if !entryOk l e ∨ (enEnable e ∧ !refOk s l) ∨ !rulesOk then stBadParam
  else if enEnable e ∧ (laneAt s l).retired then stBusy
  else stOk

/-! ## Subports (R364, R376, R377, R381) -/

/-- The lanes of a subport, if it is fully mapped by the cached entries. -/
def subLanes (s : Device) (e k : Nat) : List Nat :=
  (engineLanes e).filter fun l => let x := (laneAt s l).entry; enMapped x && enSub x = k && enEngine x % 8 = e % 8

def subMapped (s : Device) (e k : Nat) : Bool :=
  match subLanes s e k with
  | [] => false
  | l :: ls => match portMode (enPortMode (laneAt s l).entry) with
    | some m => ls.length + 1 = m.lanes
    | none => false

/-- What the mapping of a subport is, to see whether it changes. -/
def subMapping (s : Device) (e k : Nat) : List (Nat × Nat × Nat) :=
  (subLanes s e k).map fun l => (l, enPortMode (laneAt s l).entry, enPos (laneAt s l).entry)

def subEn (x : Subport) : Bool := x.ctl.getLsbD 0

/-- No freeze of R595 holds the owner's ports. -/
def portFrozen (s : Device) (e : Nat) : Bool := plotFrozen s (engineOwner s e) && (freezeCfg s (engineOwner s e)).getLsbD 1

/-- The subport's lanes are all ACTIVE. -/
def subLanesUp (s : Device) (e k : Nat) : Bool := (subLanes s e k).all fun l => (pmaShell s l).st = .active

def lanesDark (s : Device) : Bool := s.flt.fsafe ≠ .none

/-- The rings run (SP_CTL.EN). -/
def ringsRun (s : Device) (e k : Nat) : Bool :=
  subEn (subAt s e k) && subMapped s e k && subLanesUp s e k && !lanesDark s && !portFrozen s e
    && !(plotSt s (engineOwner s e)).fallow

def subStopping (s : Device) (e k : Nat) : Bool := (subLanes s e k).any fun l => (pmaShell s l).st = .stopping

/-- A lane of the subport sends its generator's pattern (R367). -/
def subPrbs (s : Device) (e k : Nat) : Bool := (subLanes s e k).any fun l => bitsAt (enPrbs (laneAt s l).entry) 0 3 ≠ 0

def linkUp (s : Device) (e k : Nat) : Bool :=
  let x := subAt s e k
  subMapped s e k && x.aligned && !x.local' && !x.remote && !subPrbs s e k

/-- Effective ring size exponent (R381). -/
def Ring.exp (r : Ring) : Nat := Nat.min (Nat.max r.size.toNat 4) 16
def Ring.slots (r : Ring) : Nat := 2 ^ r.exp
def Ring.idx (r : Ring) (v : Word16) : Nat := v.toNat % r.slots
def Ring.empty (r : Ring) : Bool := r.idx r.head = r.idx r.tail
def Ring.waiting (r : Ring) : Nat := (r.idx r.tail + r.slots - r.idx r.head) % r.slots
def Ring.descAddr (r : Ring) (k : Nat) : Nat := r.base + 32 * k
def Ring.advance (r : Ring) : Ring := { r with head := BitVec.ofNat 16 ((r.idx r.head + 1) % r.slots) }
/-- HEAD left at TAIL. -/
def Ring.flush (r : Ring) : Ring := { r with head := BitVec.ofNat 16 (r.idx r.tail) }

/-- The descriptors that remain in a ring are completed with STATUS 4 (R378). -/
def completeRest (e : Nat) (r : Ring) (s : Device) : Device :=
  (List.range r.waiting).foldl (fun s i =>
    (busWrite (engineInit e) (engineOwner s e) (r.descAddr ((r.idx r.head + i) % r.slots) + 11) [4] s).1) s

/-- A subport is stopped (R371, R378). -/
def stopSubport (e k : Nat) (s : Device) : Device :=
  let x := subAt s e k
  let s := completeRest e x.rxr (completeRest e x.txr s)
  modSub e k (fun (x : Subport) => { x with txr := x.txr.flush, rxr := x.rxr.flush, aligned := false, fecLock := false }) s

/-- Stops the subport that a lane carries, if its rings run. -/
def stopLaneSub (l : Nat) (s : Device) : Device :=
  let e := laneEngine l
  let x := (laneAt s l).entry
  if enMapped x ∧ enSub x < 8 ∧ ringsRun s e (enSub x) then stopSubport e (enSub x) s else s

/-- A subport whose lanes are ACTIVE again samples its pending enable: the SELF record of R44. -/
def subSample (e : Nat) (s : Device) : Device :=
  (List.range 8).foldl (fun s k =>
    let x := subAt s e k
    if x.deferral && !subStopping s e k && subLanesUp s e k then
      let s := setSub e k { x with deferral := false } s
      if subEn x then selfRec 0x06 (subKey e k) 0x8004 0 0 1 s else s
    else s) s

/-! ## Applying an entry (R371) -/

/-- Bytes that may differ between two entries for a change of the second row of R371. -/
def lightBytes (i : Nat) : Bool := decide (4 ≤ i ∧ i < 8) || i = 21 || decide (112 ≤ i)

/-- An entry with the fields of the second row blanked, and with the equaliser blanked too. -/
def blankLight (e : List Byte) : List Byte :=
  e.zipIdx.map fun (b, i) => if lightBytes i then 0 else if i = 22 then b &&& 0x0F else b
def blankEq (e : List Byte) : List Byte :=
  (blankLight e).zipIdx.map fun (b, i) => if 24 ≤ i ∧ i < 29 then 0 else if 32 ≤ i ∧ i < 36 then 0 else b

/-- The change can be applied to an ACTIVE lane without restarting it. -/
def changeIsLight (old new : List Byte) : Bool :=
  blankLight old = blankLight new
    || (blankEq old = blankEq new && (sliceBytes old 32 4 = sliceBytes new 32 4 || !enAdapt new))

/-- The entry becomes the cached one; subports whose mapping changes take SP_CTL's reset value (R381). -/
def cacheEntry (l : Nat) (e : List Byte) (s : Device) : Device :=
  let eng := laneEngine l
  let old := (List.range 8).map fun k => subMapping s eng k
  let s := modLane l (fun x =>
    { x with entry := e, version := enVersion e, next := none,
             prbsErr := if bitsAt (enPrbs x.entry) 4 3 = bitsAt (enPrbs e) 4 3 ∧ !x.entry.isEmpty then x.prbsErr else 0 }) s
  (List.range 8).foldl (fun s k =>
    if subMapping s eng k ≠ old.getD k [] then modSub eng k (fun (x : Subport) => { x with ctl := 0x05F00000, deferral := false }) s else s) s

/-- An accepted entry waits for its lane to stop. -/
def holdEntry (l : Nat) (e : List Byte) (restarts : Nat) (s : Device) : Device :=
  modLane l (fun x => { x with next := some e, version := enVersion e, restarts := satAdd 16 x.restarts restarts }) s

/-- One lane of an accepted refresh: the state, and whether its start is deferred (R371, R43). -/
def applyEntry (l : Nat) (e : List Byte) (s : Device) : Device × Bool :=
  let x := laneAt s l
  let sh := pmaShell s l
  let again := if enEnable e then 1 else 0
  if e = comingEntry s l then (s, false)
  else match sh.st with
    | .idle =>
      let s := cacheEntry l e s
      (modShell (pmaId l) (fun y => y.ctlWrite (enEnable e) 0) s, false)
    | .fault =>
      let s := cacheEntry l e s
      (modShell (pmaId l) (fun y => (y.ctlWrite false 0).ctlWrite (enEnable e) 0) s, false)
    | .active =>
      if changeIsLight x.entry e then (cacheEntry l e s, false)
      else
        let s := holdEntry l e again (stopLaneSub l s)
        (modShell (pmaId l) (fun y => (y.ctlWrite false 0).ctlWrite (enEnable e) 0) s, false)
    | .starting =>
      if sh.pendStop then (modShell (pmaId l) (fun y => y.ctlWrite (enEnable e) 0) (holdEntry l e 0 s), enEnable e)
      else if changeIsLight x.entry e then (cacheEntry l e s, false)
      else (modShell (pmaId l) (fun y => (y.ctlWrite false 0).ctlWrite (enEnable e) 0) (holdEntry l e again s), enEnable e)
    | .stopping => (modShell (pmaId l) (fun y => y.ctlWrite (enEnable e) 0) (holdEntry l e 0 s), enEnable e)

/-! ## Commands -/

def opLaneRefreshCode : Nat := 0x0501

def laneObjs (first count : Nat) : List Obj := (List.range count).map fun i => Obj.lane (first + i)

def opLaneRefresh : OpSpec where
  code := opLaneRefreshCode
  plenOk := (· = 16)
  session := true
  early := false
  late := never
  refusal := fun c s =>
    let t := leAt c.pl 0 8
    let f := leAt c.pl 8 2
    let n := leAt c.pl 10 2
    if 2 ^ 48 ≤ t ∨ t % 64 ≠ 0 ∨ 512 ≤ f ∨ n = 0 ∨ 512 < f + n ∨ !zeroAt c.pl 12 4 then some stBadParam
    else if c.plot ≠ 0 ∧ (List.range n).any (fun i => laneOwner s (f + i) ≠ c.plot) then some stNotAuth
    else if heldByOther c (laneObjs f n) s then some stBusy
    else none
  records := fun _ _ => 1
  run := fun c s =>
    let f := leAt c.pl 8 2
    let n := leAt c.pl 10 2
    let job : LaneJob := { inst := c.inst, first := f, count := n, table := leAt c.pl 0 8, applied := none }
    { st := defer c (laneObjs f n) { s with ports := { s.ports with jobs := s.ports.jobs ++ [job] } }, reply := none }

/-- A lane of the range still moves to what its entry calls for. -/
def laneMoving (s : Device) (l : Nat) : Bool :=
  match (pmaShell s l).st with
  | .stopping => true
  | .fault => false
  | _ => (laneAt s l).next.isSome

def dropJob (inst : Inst) (s : Device) : Device :=
  { s with ports := { s.ports with jobs := s.ports.jobs.filter (·.inst ≠ inst) } }

def firstBad (l : List Nat) : Nat := ((l.find? fun x => x ≠ stOk && x ≠ stDeferred).orElse fun _ => l.find? (· ≠ stOk)).getD stOk

def statusBytes (l : List Nat) : List Byte := l.flatMap (leBytes 2)

/-- The entries of a range, cached now. -/
def cachedRange (s : Device) (f n : Nat) : List Byte := (List.range n).flatMap fun i => comingEntry s (f + i)

/-- Replies to a refresh whose lanes have all settled or are deferred, with its record (R371, R372). -/
def jobCheck (s : Device) (j : LaneJob) : Device :=
  match j.applied with
  | none => s
  | some (sts, before) =>
    let waits := (List.range j.count).any fun i => sts.getD i 0 ≠ stDeferred && laneMoving s (j.first + i)
    if waits then s
    else match inProgress j.inst s with
      | none => dropJob j.inst s
      | some p =>
        let status := firstBad sts
        let s := match before with
          | some b => cmdRecS p.ctx 0x05 j.first status b (first8 (Config.sha384 (cachedRange s j.first j.count))) s
          | none => s
        finish p status (statusBytes sts) (dropJob j.inst s)

/-- A calibration command whose calibration has ended is answered (R373). -/
def calReply (l : Nat) (s : Device) : Device :=
  match s.mgmt.progress.find? fun p => p.opcode.toNat = 0x0502 ∧ p.holds.contains (Obj.lane l) with
  | some p =>
    let x := pmaShell s l
    if x.start then s else finish p stOk (leBytes 1 x.result.toNat ++ leBytes 3 0 ++ leBytes 4 x.meas) s
  | none => s

/-- Clock recovery is running. -/
def laneListens (s : Device) (l : Nat) : Bool :=
  match (pmaShell s l).st with
  | .starting | .active => true
  | _ => false

/-- The entry that waits for the lane is cached once the lane has stopped, or has failed. -/
def takeNext (l : Nat) (s : Device) : Device :=
  match (laneAt s l).next with
  | some e =>
    let x := pmaShell s l
    if x.st = .idle ∨ x.st = .fault ∨ (x.st = .starting ∧ !x.pendStop) then cacheEntry l e s else s
  | none => s

/-- A lane that neither starts nor runs detects nothing. -/
def laneQuiet (l : Nat) (s : Device) : Device :=
  if laneListens s l then s else modLane l (fun x => { x with sigDet := false, cdrLock := false, prbsLock := false }) s

/-- What follows any change of a lane's shell: its waiting entry, its detectors, pending subport enables and commands that waited. -/
def laneAfter (l : Nat) (s : Device) : Device :=
  let s := subSample (laneEngine l) (calReply l (laneQuiet l (takeNext l s)))
  s.ports.jobs.foldl jobCheck s

/-- Fetches the entries of a job: a code and the bytes for each lane. -/
def fetchEntries (j : LaneJob) (plot : Nat) (x : NetIn) (s : Device) : Device × List (Byte × List Byte) :=
  let r := (List.range j.count).foldl (fun (acc : Device × NetIn × List (Byte × List Byte)) i =>
    match busRead 0x802 plot acc.2.1 (j.table + 128 * (j.first + i)) 128 acc.1 with
    | (s, rc, d, y) => (s, y, acc.2.2 ++ [(rc, d)])) (s, x, [])
  (r.1, r.2.2)

/-- LANE_ENTRIES_FETCHED (R370, R371). -/
def laneEntriesFetched (inst : Inst) (x : NetIn) (s : Device) : Device :=
  match s.ports.jobs.find? (fun j => j.inst = inst && j.applied.isNone), inProgress inst s with
  | some j, some p =>
    let (s, es) := fetchEntries j p.ctx.plot x s
    let entry (l : Nat) : List Byte :=
      if j.first ≤ l ∧ l < j.first + j.count then (es.getD (l - j.first) (0, [])).2 else comingEntry s l
    let sts := (List.range j.count).map fun i =>
      let l := j.first + i
      let e := es.getD i (0, [])
      entryStatus s l e.1 e.2 (groupOk s (laneEngine l) entry)
    if sts.any (· ≠ stOk) then finish p (firstBad sts) (statusBytes sts) (dropJob inst s)
    else
      let before := first8 (Config.sha384 (cachedRange s j.first j.count))
      let changes := (List.range j.count).any fun i => (es.getD i (0, [])).2 ≠ (laneAt s (j.first + i)).entry
      let r := (List.range j.count).foldl (fun (acc : Device × List Nat) i =>
        let (s, d) := applyEntry (j.first + i) (es.getD i (0, [])).2 acc.1
        let s := if d then modShell (pmaId (j.first + i)) (fun y => { y with deferral := some (p.ctx.plot, 0) }) s else s
        (s, acc.2 ++ [if d then stDeferred else stOk])) (s, [])
      let s := { r.1 with ports := { r.1.ports with jobs := r.1.ports.jobs.map fun (k : LaneJob) =>
        if k.inst = inst then { k with applied := some (r.2, if changes then some before else none) } else k } }
      s.ports.jobs.foldl jobCheck s
  | _, _ => s

/-- Authority for LANE_CALIBRATE and LANE_RETIRE (R373, R374). -/
def laneAuth (c : Ctx) (s : Device) (l : Nat) : Bool := c.plot = 0 || laneOwner s l = c.plot

def calKindOk (k : Nat) : Bool := decide (1 ≤ k ∧ k ≤ 4)

def opLaneCalibrate : OpSpec where
  code := 0x0502
  plenOk := (· = 4)
  session := true
  early := false
  late := never
  refusal := fun c s =>
    let l := leAt c.pl 0 2
    if 512 ≤ l ∨ !calKindOk (leAt c.pl 2 1) ∨ !zeroAt c.pl 3 1 then some stBadParam
    else if !laneAuth c s l then some stNotAuth
    else if (pmaShell s l).st ≠ .active ∨ (pmaShell s l).start ∨ heldByOther c [.lane l] s then some stBusy
    else none
  records := fun _ _ => 0
  run := fun c s =>
    let l := leAt c.pl 0 2
    { st := defer c [.lane l] (modShell (pmaId l) (fun x => x.calWrite (BitVec.ofNat 32 (1 + place (leAt c.pl 2 1) 1)) true) s),
      reply := none }

/-- Retires a lane (R374). -/
def retireLane (l : Nat) (s : Device) : Device :=
  let s := stopLaneSub l s
  let s := modLane l (fun x => { x with retired := true, cdrLock := false, sigDet := false, prbsLock := false }) s
  laneAfter l (modShell (pmaId l) (fun x => Shell.ctlWrite { x.abortCal with deferral := none } false 0) s)

/-- LANE_RETIRE. DEDUCED (log 73). -/
def opLaneRetire : OpSpec where
  code := 0x0503
  plenOk := (· = 4)
  session := true
  early := false
  late := never
  refusal := fun c s =>
    let l := leAt c.pl 0 2
    if 512 ≤ l ∨ !zeroAt c.pl 2 2 then some stBadParam
    else if !laneAuth c s l then some stNotAuth
    else if heldByOther c [.lane l] s then some stBusy
    else none
  records := fun c s => if (laneAt s (leAt c.pl 0 2)).retired then 0 else 1
  run := fun c s =>
    let l := leAt c.pl 0 2
    { st := if (laneAt s l).retired then s else retireLane l (cmdRecObj c 0x05 l s), reply := some (stOk, []) }

/-! ## Events of a lane (R362, R498) -/

def cdrLost (l : Nat) (sig : Bool) (s : Device) : Device :=
  let x := laneAt s l
  if laneListens s l && x.cdrLock && !x.retired then
    occur 0x0E l 0 (setLane l { x with cdrLock := false, sigDet := sig, prbsLock := false, lockLoss := satAdd 16 x.lockLoss 1 } s)
  else s

def cdrLocked (l : Nat) (s : Device) : Device :=
  if laneListens s l then modLane l (fun x => { x with cdrLock := true, sigDet := true }) s else s

/-- The checker gains or loses synchronisation; `errs` bit errors were found since the last change while it was in lock. -/
def prbsChange (l : Nat) (on : Bool) (errs : Word32) (s : Device) : Device :=
  let x := laneAt s l
  if laneListens s l && bitsAt (enPrbs x.entry) 4 3 ≠ 0 then
    setLane l { x with prbsLock := on, prbsErr := if x.prbsLock then satAdd 32 x.prbsErr errs.toNat else x.prbsErr } s
  else s

/-! ## Registers of a quad (R361, R362) -/

/-- The lane transmits its SAFE pattern (R376). -/
def laneSafe (s : Device) (l : Nat) : Bool :=
  let e := laneEngine l
  let x := (laneAt s l).entry
  let k := enSub x
  (pmaShell s l).st = .active && !lanesDark s
    && ((plotSt s (laneOwner s l)).fallow
      || (enMapped x && (!ringsRun s e k || (subAt s e k).ctl.getLsbD 2 || ((subAt s e k).txr.empty && !linkUp s e k))))

/-- STAT bits [31:16] of a lane. -/
def laneMstat (s : Device) (l : Nat) : Nat :=
  let x := laneAt s l
  bit x.sigDet 0 + bit x.cdrLock 1 + bit x.prbsLock 2 + bit x.retired 3 + bit (laneSafe s l) 4

def quadStatus (s : Device) (q : Nat) : Nat :=
  let r := refOf s (q * 4)
  bit (decide (r ≠ 0)) 0 + (if r = 0 then 0 else place (r - 1) 1) + bit (decide (r ≠ 0)) 3
    + maskOf ((List.range 4).map fun i => decide ((pmaShell s (q * 4 + i)).st = .active)) * 2 ^ 8
    + maskOf ((List.range 4).map fun i => (laneAt s (q * 4 + i)).retired) * 2 ^ 12

def shellRead (s : Device) (i : ShellId) (mstat : Nat) (r : Nat) : Nat :=
  let x := shellAt s i
  match r with
  | 0 => x.ctl | 4 => x.cal | 8 => x.meas | 0xC => x.stat mstat | 0x10 => x.trimReg i | _ => 0

def quadWidth (off : Nat) : Option (Nat × Nat) :=
  if off = 0 then some (0, 32)
  else if 0x100 ≤ off ∧ off < 0x200 ∧ off % 0x40 < 0x14 then some (off / 4 * 4, 32)
  else if 0x200 ≤ off ∧ off < 0x240 ∧ off % 0x10 / 4 ≠ 2 then some (off / 4 * 4, 32)
  else if 0x800 ≤ off ∧ off < 0xA00 then some (off / 4 * 4, 32)
  else none

def quadRead (s : Device) (q off : Nat) : Nat :=
  if off = 0 then quadStatus s q
  else if off < 0x200 then
    let l := q * 4 + (off - 0x100) / 0x40
    shellRead s (pmaId l) (laneMstat s l) (off % 0x40)
  else if off < 0x240 then
    let x := laneAt s (q * 4 + (off - 0x200) / 0x10)
    match off % 0x10 with
    | 0 => x.prbsErr
    | 4 => x.lockLoss + place x.restarts 16
    | _ => x.pmaLat.toNat
  else leAt (laneAt s (q * 4 + (off - 0x800) / 0x80)).entry (off % 0x80) 4

end Sys2Proof.Machine
end

