-- ==== Sys2Proof/Machine/ShellRows.lean ====
section
/-! DEFINITION. The life of the shells of the four kinds of macro: register writes past their access check, and the events of
their state machines (R36 to R45, R101 to R106, R269, R283, R293, R362, R608 to R611). -/
namespace Sys2Proof.Machine
open Sys2Proof

/-- The compute die of a GPIO bank (R608). -/
def bankDie (g : Nat) : Nat := [0, 3, 4, 7].getD (g / 4) 0
def gpioOff (g : Nat) : Nat := dieOff (bankDie g) + 0x400000 + g % 4 * 0x1000

/-- Offset of a shell window from the CSR base. -/
def shellOff : ShellId → Nat
  | .gen b => bedOff b.val + 0x100
  | .pma l => quadOff (l.val / 4) + 0x100 + l.val % 4 * 0x40
  | .phy c => 0x00100000 + c.val * 0x1000 + 0x100
  | .gpio g => gpioOff g.val
  | id => Config.shellOff id

/-- A sensor's die, or the device for the hub's sensors (R527, R618). -/
def sensorSource (d : Nat) : Source := if d = 8 then .device else .die (Fin.ofNat 8 d)

/-- The source of a shell's faults (R527). -/
def shellSource : ShellId → Source
  | .gen b => .bed b
  | .pma l => .lane l
  | .phy c => .channel c
  | .gpio g => .die (Fin.ofNat 8 (bankDie g.val))
  | .puf => .hub 3
  | .volt d => sensorSource d.val
  | .clk d => sensorSource d.val
  | .temp t => sensorSource (t.val / 16)

/-- Object class and ID of a shell's records (R513, R625). -/
def shellObj : ShellId → Nat × Nat
  | .gen b => (0x03, b.val)
  | .pma l => (0x05, l.val)
  | .phy c => (0x08, c.val)
  | _ => (0x01, 0)

/-! ## CTL, CAL, STAT and TRIM writes -/

def ctlMask : ShellId → Nat
  | .gen _ => 0x7F
  | .gpio _ => 0x1F
  | _ => 0xFFFF

/-- The first 8 bytes of SHA-384 over CTL and the 48 PIN_CFG values (R611). -/
def bankDigest (s : Device) (g ctl : Nat) : Nat :=
  first8 (Config.sha384 (leBytes 4 ctl ++ (List.range 48).flatMap fun p => leBytes 4 (pinCfg s g p).toNat))

/-- LOCK_CFG and FREE_CODE are sampled with EN; a bed whose stop is asked for stops at the end of its user cycle (R95, R102). -/
def genSample (n : Nat) (was : Shell) (s : Device) : Device :=
  let x := genShell s n
  let s := if x.st = .starting ∧ was.st ≠ .starting then
      modBed n (fun b => { b with clock := { b.clock with lockEff := b.clock.lockCfg, freeEff := b.clock.freeCode } }) s
    else s
  if x.st = .stopping ∧ was.st = .active then modBed n (fun b => { b with clock := { b.clock with stopDue := true } }) s else s

/-- A write of a shell's CTL (R37, R38, R41 to R44, R101, R515). -/
def shellCtl (i : InitId) (id : ShellId) (v : Nat) (s : Device) : Device :=
  let x := shellAt s id
  let v := v &&& ctlMask id
  let free : Bool := match id with | .gen _ => bitsAt v 1 2 = 2 && s.trust.lifecycle = .deployed | _ => false
  let s := if free then noteAccess i (csrBase + shellOff id) s else s
  let v := if free then v &&& 0x79 else v
  let en := bitAt v 0
  let defers := en && !x.en && (x.st = .stopping || (x.st = .starting && x.pendStop))
  let after := match id with | .gpio g => if en then bankDigest s g.val v else v | _ => v
  let s := if defers then csrDeferred i (shellOff id) x.ctl after s
    else if x.ctl = v then s else csrRecord i (shellOff id) x.ctl after s
  let y := x.ctlWrite en (BitVec.ofNat 15 (v / 2))
  let y := { y with deferral := if defers then some (stampPlot s i, i.toNat) else if en then y.deferral else none }
  let s := setShell id y s
  match id with
  | .gen b => genSample b.val x s
  | .pma l => laneAfter l.val s
  | .phy c => if y.st = .stopping && x.st = .active then memSettle (modCh c.val (fun z => { z with retrain := none }) s) else s
  | _ => s

/-- Calibration kinds that each macro defines (R105, R293, R362, R608). -/
def kindOk : ShellId → Nat → Bool
  | .gen _, k => k = 1 || k = 2
  | .pma _, k => decide (1 ≤ k ∧ k ≤ 4)
  | .phy _, k => k = 1
  | .gpio _, k => k = 1
  | _, _ => false

/-- The macro can calibrate now: a channel in self-refresh cannot. DEDUCED (log 143). -/
def calReady (s : Device) : ShellId → Bool
  | .phy c => (chAt s c.val).sr = .off
  | _ => true

/-- A write of CAL (R39). A PHY's calibration is a periodic retraining now (R293). -/
def shellCal (id : ShellId) (v : Nat) (s : Device) : Device :=
  let x := shellAt s id
  let y := x.calWrite (BitVec.ofNat 32 v) (kindOk id (bitsAt v 1 3) && calReady s id)
  let s := setShell id y s
  match id with
  | .phy c => if y.start && !x.start then beginRetrain c.val s else s
  | _ => s

/-- W1C bits of STAT: ERR, and SAT or TEMP_HI. DEDUCED (log 18). -/
def shellStat (id : ShellId) (v : Nat) (s : Device) : Device :=
  let s := if bitAt v 8 then modShell id (fun x => { x with err := false }) s else s
  match id with
  | .gen _ => if bitAt v 18 then modShell id (fun x => { x with mstat := x.mstat &&& ~~~4#16 }) s else s
  | .phy c => if bitAt v 18 then modCh c.val (fun x => { x with tempHi := false }) s else s
  | _ => s

/-- TRIM under its lock (R15, R485). -/
def shellTrim (i : InitId) (id : ShellId) (v : Nat) (s : Device) : Device :=
  let x := shellAt s id
  let x := { x with trimLock := x.trimLock || s.trust.trimLockAll }
  let y := x.trimWrite (BitVec.ofNat 32 v)
  csrRecord i (shellOff id + 0x10) (x.trimReg id) (y.trimReg id) (setShell id y s)

/-- A 32-bit write to a register of the window. -/
def shellWrite (i : InitId) (id : ShellId) (r v : Nat) (s : Device) : Device :=
  match r with
  | 0x00 => shellCtl i id v s
  | 0x04 => shellCal id v s
  | 0x0C => shellStat id v s
  | 0x10 => shellTrim i id v s
  | _ => s

/-- MSTAT of each kind. -/
def shellMstat (s : Device) : ShellId → Nat
  | .gen b => genMstat s b.val
  | .pma l => laneMstat s l.val
  | .phy c => phyMstat (chAt s c.val)
  | id => (shellAt s id).mstat.toNat % 2

/-- A register of the window; the TRIM lock of R485 shows in every shell. -/
def windowRead (s : Device) (id : ShellId) (r : Nat) : Nat :=
  match id, r with
  | .phy c, 8 => phyMeas (chAt s c.val) + (shellAt s (.phy c)).meas / 2 ^ 24 * 2 ^ 24
  | _, 0x10 => shellRead s id 0 0x10 ||| bit s.trust.trimLockAll 31
  | _, _ => shellRead s id (shellMstat s id) r

def windowWidth (off : Nat) : Option (Nat × Nat) := if off < 0x14 then some (off / 4 * 4, 32) else none

/-! ## Events -/

/-- The SELF record when a deferred enable takes effect, or is lost in FAULT (R44, R45). -/
def deferralDone (id : ShellId) (status : Nat) (s : Device) : Device :=
  let x := shellAt s id
  match x.deferral with
  | none => s
  | some _ =>
    let o := shellObj id
    selfRec o.1 o.2 0x8004 status 0 (if status = 0 then 1 else 0) (setShell id { x with deferral := none } s)

/-- What each macro does when its shell faults (R40, R103, R269, R283). -/
def faultEffect (id : ShellId) (was : ShellSt) (s : Device) : Device :=
  let note (s : Device) : Device := raise (shellSource id) 2 0x03 (csrBase + shellOff id) s
  match id with
  | .gen b => genFaulted b.val was (note s)
  | .pma l =>
    if (laneAt s l.val).retired then laneAfter l.val s
    else
      let s := stopLaneSub l.val s
      laneAfter l.val (note s)
  | .phy c =>
    let s := modCh c.val (fun x => { x with failed := true, retrain := none }) s
    let s := if was = .starting then note s else raise (chSource c.val) 3 0x0F 0 (failQueued c.val s)
    memSettle (selfRec 0x08 c.val 0x800A 0 0 0 s)
  | .gpio g => note (setShell (.gpio g) { shellAt s (.gpio g) with mstat := 0 } s)
  | id => raise (shellSource id) (Config.shellFault id) 0x03 (csrBase + shellOff id) s

/-- SHELL_MACRO_FAULT. -/
def macroFaultRow (id : ShellId) (s : Device) : Device :=
  let x := shellAt s id
  if x.canFault then
    let s := match id with
      | .pma l => stopLaneSub l.val s
      | _ => s
    let s := setShell id x.macroFault s
    faultEffect id x.st (deferralDone id stBusy s)
  else s

/-- VCCO ranges of the standards, in mV within ±3% (R599, R609). -/
def vccoOf : Nat → List Nat
  | 1 => [1000] | 2 => [1200] | 3 => [1500] | 4 => [1800] | 5 => [1200] | 6 => [1500] | 7 => [1800] | 8 => [1200]
  | 9 => [1350] | 10 => [1100] | 11 => [1200] | 12 => [1800] | 13 => [1800] | 14 => [1200, 1800] | _ => []
def vccoOk (std mv : Nat) : Bool := (vccoOf std).any fun n => decide (97 * n ≤ 100 * mv ∧ 100 * mv ≤ 103 * n)

/-- A LOCKED generator asks for more than SIGNED_FREQ (R96). -/
def lockTooFast (s : Device) (n : Nat) : Bool :=
  let c := (bedAt s n).clock
  genMode (genShell s n) = 1 && (reference s n).any fun f => decide (2000 * c.signedFreq.toNat * lockM c < f * lockN c)

/-- A LOCKED generator finds its reference; every other needs none (R100). -/
def refFound (s : Device) (n : Nat) : Bool := genMode (genShell s n) ≠ 1 || (reference s n).isSome

/-- SHELL_START_COMPLETE: `found` where the start sequence finds the macro; `v` is a GPIO bank's VCCO in mV. Only LPDDR6
channels can be absent (R269). -/
def startComplete (id : ShellId) (found : Bool) (v : BitVec 24) (s : Device) : Device :=
  let x := shellAt s id
  if x.st ≠ .starting then s
  else match id with
  | .gen b =>
    if lockTooFast s b.val then macroFaultRow id s
    else if !refFound s b.val then s
    else
      let s := modBed b.val (fun y => { y with clock := { y.clock with refFreq := (reference s b.val).getD 0 } }) s
      let y := x.startDone true
      let s := setShell id { y with mstat := if genMode x = 1 then y.mstat ||| 1 else y.mstat &&& ~~~1#16 } s
      if y.st = .active then genStarted b.val s else s
  | .pma l => laneAfter l.val (setShell id (x.startDone true) s)
  | .phy _ => setShell id (x.startDone found) s
  | .gpio g =>
    if vccoOk (x.sampled.toNat % 16) v.toNat then
      setShell (.gpio g) ({ x.startDone true with mstat := 1 }.measure v) s
    else macroFaultRow id s
  | id => setShell id (x.startDone true) s

/-- SHELL_STOP_COMPLETE (R37, R41, R44). -/
def stopComplete (id : ShellId) (s : Device) : Device :=
  let x := shellAt s id
  if x.st ≠ .stopping then s
  else
    let s := match id with
      | .gen b => genStopped b.val s
      | _ => s
    let y := (shellAt s id).stopDone
    let s := setShell id y s
    let s := if y.st = .starting then deferralDone id 0 s else setShell id { y with deferral := none } s
    match id with
    | .gen b => genSample b.val x s
    | .pma l => laneAfter l.val s
    | _ => s

/-- RETRAINING_COMPLETE, with the eye that a training that passes found (R282, R283, R293). -/
def retrainDone (ch : Nat) (eye : Option Word16) (s : Device) : Device :=
  let c := chAt s ch
  match c.retrain with
  | none => s
  | some n =>
    match eye with
    | some e => memSettle (modShell (phyId ch) (fun x => x.calDone true) (setCh ch { c with retrain := none, eye := e } s))
    | none =>
    if n = 1 then setCh ch { c with retrain := some 2 } s
    else if (shellAt s (phyId ch)).canFault then macroFaultRow (phyId ch) s
    else setCh ch { c with retrain := none } s

/-- CALIBRATION_COMPLETE: the outcome, a generator's failure being a macro fault (R103), and for a lane what kind 3 measured and the value that kind 4 leaves in MEAS. -/
def calComplete (id : ShellId) (pass : Bool) (lat : Word32) (eye : BitVec 24) (s : Device) : Device :=
  let x := shellAt s id
  if !x.start then s
  else match id with
  | .phy c => retrainDone c.val (if pass then some (eye.extractLsb' 8 16) else none) s
  | _ =>
    let s := setShell id (x.calDone pass) s
    match id with
    | .pma l =>
      let s := if x.kind = 3 ∧ pass then modLane l.val (fun y => { y with pmaLat := lat }) s else s
      let s := if x.kind = 4 ∧ pass then modShell id (fun y => y.measure eye) s else s
      laneAfter l.val s
    | .gen _ => if pass then s else macroFaultRow id s
    | _ => s

/-- SHELL_MEASUREMENT. A PHY's MEAS shows its polls and trainings (R293). -/
def measurement (id : ShellId) (v : BitVec 24) (s : Device) : Device :=
  match id with
  | .phy c =>
    if (shellAt s id).st = .active then
      modShell id (fun x => x.measure v) (modCh c.val (fun x => { x with rateCode := v.extractLsb' 0 8, eye := v.extractLsb' 8 16 }) s)
    else s
  | _ => modShell id (fun x => x.measure v) s

/-- GENERATOR_LOCK_TIMEOUT (R100). -/
def lockTimeout (n : Nat) (s : Device) : Device :=
  let x := genShell s n
  if x.st = .starting ∧ genMode x = 1 then macroFaultRow (genId n) s else s

/-- CAL_START: CAL is written with START = 1. -/
def calStartWord (kind : BitVec 3) (cont : Bool) : Nat := 1 + place kind.toNat 1 + bit cont 4

end Sys2Proof.Machine
end

