-- ==== Sys2Proof/Machine/BedCsr.lean ====
section
/-! DEFINITION. The register block of a bed and of a GPIO bank (R92 to R94, R105, R132, R133, R158, R159, R608 to R611). -/
namespace Sys2Proof.Machine
open Sys2Proof

def bedWidth (off : Nat) : Option (Nat × Nat) :=
  if off = 0 ∨ off = 8 ∨ off = 0xC ∨ off = 0x10 ∨ off = 0x18 then some (off, 32)
  else if 0x100 ≤ off ∧ off < 0x114 then some (off / 4 * 4, 32)
  else if 0x114 ≤ off ∧ off < 0x130 then some (off / 4 * 4, 32)
  else if 0x200 ≤ off ∧ off < 0x220 then some (off / 4 * 4, 32)
  else if 0x400 ≤ off ∧ off < 0x800 then some (off / 4 * 4, 32)
  else if 0x800 ≤ off ∧ off < 0xB00 then some (off / 4 * 4, 32)
  else if 0xB00 ≤ off ∧ off < 0xB08 then some (0xB00, 64)
  else if 0xB08 ≤ off ∧ off < 0xB0C then some (0xB08, 32)
  else none

def bedStateNo : BedState → Nat
  | .unconfigured => 0 | .fallow => 2 | .committed => 3 | _ => 1

def bedStatus (s : Device) (n : Nat) : Nat :=
  let b := bedAt s n
  bedStateNo b.st + bit (decide (b.st = .paused)) 2 + bit b.cutFlag 3 + place (b.cfg.fold / 2) 4
    + bit (decide (b.st = .stopped)) 6 + place (bedOwner s n) 8 + bit b.repair.isSome 12 + bit b.unusable 13

def bmCfgReg (c : BmCfg) : Nat :=
  c.aspectA.toNat + place c.aspectB.toNat 3 + bit c.check 6 + place c.rdwA.toNat 8 + place c.rdwB.toNat 10
    + place c.pamA.toNat 12 + place c.pamB.toNat 16 + bit c.used 20

def bmStatBits (x : BmStat) : Nat := bit x.corr 0 + bit x.unc 1 + bit x.addr 2 + bit x.coll 3

def injectReg (x : BmInject) : Nat := x.mem.toNat + place x.pos.toNat 6 + bit x.arm 11

def bedRead (s : Device) (n off : Nat) : Nat :=
  let b := bedAt s n
  if off = 0 then bedStatus s n
  else if off = 8 then b.rowCe.toNat
  else if off = 0xC then b.rowCeSrc.toNat
  else if off = 0x10 then (match b.repair with | some (c, f) => 1 + place c 4 + bit f 8 | none => 0)
  else if off = 0x18 then contentionReg b.contention
  else if off < 0x114 then windowRead s (genId n) (off - 0x100)
  else if off < 0x130 then
    let c := b.clock
    match off with
    | 0x114 => c.signedFreq.toNat | 0x118 => c.stretchCfg.toNat | 0x11C => c.lockCfg.toNat
    | 0x120 => c.stretchCount.toNat | 0x124 => c.droopEvents.toNat | 0x128 => c.freeCode.toNat
    | _ => c.throttle.toNat
  else if off < 0x220 then
    match off with
    | 0x200 => borderStatus b | 0x204 => b.border.waitCount.toNat | 0x208 => b.border.waitLimit.toNat
    | 0x20C => b.border.discards.toNat
    | _ => Nat.min (b.border.sunk.getD ((off - 0x210) / 4) 0) (2 ^ 32 - 1)
  else if off < 0x800 then
    let k := (off - 0x400) / 0x100 * 64 + off % 0x100 / 4
    ((chan b k).cfg.toNat &&& 0x1FFFFFFF) + bit (joined s n (k / 64) (k % 64)) 29
  else if off < 0xB00 then
    let m := (off - 0x800) / 0x10
    let x := b.bmStat.get BmStat.reset m
    match off % 0x10 with
    | 0 => bmCfgReg (b.cfg.bms.get BmCfg.reset m)
    | 4 => bmStatBits x + bit (b.bmBad.get false m) 8
    | 8 => x.first.toNat
    | _ => x.corrCnt.toNat + place x.uncCnt.toNat 16 + place x.collCnt.toNat 24
  else if off = 0xB00 then maskOf ((List.range 48).map fun m => bmStatBits (b.bmStat.get BmStat.reset m) ≠ 0)
  else injectReg b.inject

def stretchMask : Nat := 0xFF1F0F1F
def lockMask : Nat := 0x003FFFFF

/-- BM_INJECT, in BLANK, PROVISIONED and RMA; in DEPLOYED the write is ignored with a note (R159). -/
def injectWrite (i : InitId) (n v : Nat) (s : Device) : Device :=
  if s.trust.lifecycle = .deployed then noteAccess i (csrBase + bedOff n + 0xB08) s
  else
    let mem := bitsAt v 0 6
    let pos := bitsAt v 6 5
    let x := (bedAt s n).inject
    let y : BmInject := { mem := BitVec.ofNat 6 mem, pos := BitVec.ofNat 5 pos, arm := bitAt v 11 && decide (mem < 48) && decide (pos < 20) }
    csrRecord i (bedOff n + 0xB08) (injectReg x) (injectReg y) (modBed n (fun b => { b with inject := y }) s)

/-- THROTTLE takes a new STEP (R99); the origin of its record is the writer's. -/
def setThrottle (n step : Nat) (s : Device) : Device :=
  modBed n (fun b => { b with clock := { b.clock with throttle := BitVec.ofNat 4 step } }) s

/-- A write to a register of the bed; `none` is refused as R32 states (R94, R133, R159). -/
def bedWrite (i : InitId) (n off v : Nat) (s : Device) : Option Device :=
  let b := bedAt s n
  let rec' (old new : Nat) (s : Device) : Device := csrRecord i (bedOff n + off) old new s
  let mgmt := isMgmtCore i
  let only (s : Device) : Option Device := if mgmt then some s else none
  let clk (f : BedClock → BedClock) (s : Device) : Device := modBed n (fun b => { b with clock := f b.clock }) s
  if off = 8 then some (rec' b.rowCe.toNat v (modBed n (fun b => { b with rowCe := BitVec.ofNat 32 v }) s))
  else if off = 0xC then some (rec' b.rowCeSrc.toNat (v % 8) (modBed n (fun b => { b with rowCeSrc := BitVec.ofNat 3 v }) s))
  else if off = 0x18 then
    some (if bitAt v 0 then modBed n (fun b => { b with contention := { b.contention with seen := false } }) s else s)
  else if 0x100 ≤ off ∧ off < 0x114 then only (shellWrite i (genId n) (off - 0x100) v s)
  else if off = 0x118 then only (rec' b.clock.stretchCfg.toNat (v &&& stretchMask) (clk (fun c => { c with stretchCfg := BitVec.ofNat 32 (v &&& stretchMask) }) s))
  else if off = 0x11C then only (rec' b.clock.lockCfg.toNat (v &&& lockMask) (clk (fun c => { c with lockCfg := BitVec.ofNat 32 (v &&& lockMask) }) s))
  else if off = 0x128 then only (rec' b.clock.freeCode.toNat (v % 4096) (clk (fun c => { c with freeCode := BitVec.ofNat 12 v }) s))
  else if off = 0x12C then only (rec' b.clock.throttle.toNat (v % 16) (setThrottle n (v % 16) s))
  else if off = 0x200 then
    some (if bitAt v 1 then modBed n (fun b => { b with border := { b.border with alarm := false } }) s else s)
  else if off = 0x208 then
    some (waitAlarm n (rec' b.border.waitLimit.toNat (v % 2 ^ 20) (modBed n (fun b => { b with border := { b.border with waitLimit := BitVec.ofNat 20 v } }) s)))
  else if 0x800 ≤ off ∧ off < 0xB00 ∧ off % 0x10 = 4 then
    let m := (off - 0x800) / 0x10
    some (modBed n (fun b => { b with bmStat := b.bmStat.modify BmStat.reset m fun x =>
      { x with corr := x.corr && !bitAt v 0, unc := x.unc && !bitAt v 1, addr := x.addr && !bitAt v 2, coll := x.coll && !bitAt v 3 } }) s)
  else if off = 0xB08 then (if s.trust.lifecycle = .decommissioned then none else only (injectWrite i n v s))
  else if (bedWidth off).isNone then some s
  else if 0x800 ≤ off then none
  else only s

/-! ## GPIO banks -/

def gpioWidth (off : Nat) : Option (Nat × Nat) :=
  if off < 0x14 then some (off / 4 * 4, 32)
  else if 0x80 ≤ off ∧ off < 0x88 then some (0x80, 64)
  else if 0x100 ≤ off ∧ off < 0x1C0 then some (off / 4 * 4, 32)
  else none

/-- Bed and bed pin of a bank pin (R612): the inverse of `pinOfBed`. -/
def bedOfPin (g p : Nat) : Nat × Nat :=
  let d := bankDie g
  let n := g % 4 * 48 + p
  (d * 48 + n / 32 * 8 + (if d = 0 ∨ d = 4 then 0 else 7), n % 32)

def pinIn (s : Device) (g : Nat) : Nat :=
  maskOf ((List.range 48).map fun p =>
    let (n, i) := bedOfPin g p
    let b := bedAt s n
    (if pinSide n = some 1 then b.pinE else b.pinW).getLsbD i)

def gpioRead (s : Device) (g off : Nat) : Nat :=
  if off < 0x14 then windowRead s (gpioId g) off
  else if off = 0x80 then pinIn s g
  else (pinCfg s g ((off - 0x100) / 4)).toNat

/-- PIN_CFG is stored only while the bank is IDLE (R611). -/
def gpioWrite (i : InitId) (g off v : Nat) (s : Device) : Device :=
  if off < 0x14 then shellWrite i (gpioId g) off v s
  else if 0x100 ≤ off ∧ off < 0x1C0 then
    if (shellAt s (gpioId g)).st = .idle then
      { s with gpio := s.gpio.set 0 (g * 48 + (off - 0x100) / 4) (BitVec.ofNat 32 (v % 512)) }
    else noteAccess i (csrBase + gpioOff g + off) s
  else s

end Sys2Proof.Machine
end

