-- ==== Sys2Proof/Machine/Links.lean ====
section
/-! DEFINITION. Die links: frames, replay, sideband messages, wire tests, grafts, retirement, failure, capabilities,
LINK_STATUS and the D2D registers (chapter "Die links"). -/
namespace Sys2Proof.Machine
open Sys2Proof

/-! ## Links and strands (R334, R343) -/

def linkAt (s : Device) (l : Nat) : Link := s.d2d.links.get Link.reset l
def setLink (l : Nat) (x : Link) (s : Device) : Device := { s with d2d := { s.d2d with links := s.d2d.links.set Link.reset l x } }
def modLink (l : Nat) (f : Link → Link) (s : Device) : Device := setLink l (f (linkAt s l)) s

def isHubLink (l : Nat) : Bool := decide (l < 8)
def strandCount (l : Nat) : Nat := if isHubLink l then 16 else 8
def minStrands (l : Nat) : Nat := if isHubLink l then 8 else 4

def Link.strand (x : Link) (d n : Nat) : Strand := x.strands.get Strand.reset (d * 16 + n)
def Link.setStrand (x : Link) (d n : Nat) (t : Strand) : Link := { x with strands := x.strands.set Strand.reset (d * 16 + n) t }

def workList (l : Nat) (x : Link) (d : Nat) : List Nat :=
  if x.mode = .up then (List.range (strandCount l)).filter fun n => (x.strand d n).st = .working else []
def workCount (l : Nat) (x : Link) (d : Nat) : Nat := (workList l x d).length
def fabReq (x : Link) (d : Nat) : Nat := if d = 0 then x.fab0 else x.fab1
/-- F of R343. -/
def fabCount (l : Nat) (x : Link) (d : Nat) : Nat := Nat.min (fabReq x d) (workCount l x d / 2)
def isFabStrand (l : Nat) (x : Link) (d n : Nat) : Bool := ((workList l x d).take (fabCount l x d)).contains n
def notRetired (l : Nat) (x : Link) (d : Nat) : Nat :=
  if x.mode = .down then 0 else maskOf ((List.range (strandCount l)).map fun n => (x.strand d n).st ≠ .retired)

/-- LINK_STATE.STATE. -/
def linkStateNo (l : Nat) (x : Link) : Nat :=
  match x.mode with
  | .down => 0
  | .failed => 3
  | .up => if [0, 1].any fun d => (List.range (strandCount l)).any fun n => (x.strand d n).st = .retired then 2 else 1

/-- Adopts a new link state and notes the time of a change of STATE, W or F. -/
def putLink (l : Nat) (x : Link) (s : Device) : Device :=
  let o := linkAt s l
  let fig (y : Link) : List Nat := [linkStateNo l y, workCount l y 0, workCount l y 1, fabCount l y 0, fabCount l y 1]
  setLink l (if fig o = fig x then x else { x with tChange := devNs s }) s

def rpl64 (s : Device) : Bool := s.d2d.cap.getLsbD 32
def bufDepth (s : Device) : Nat := if rpl64 s then 64 else 32

/-! ## CRC (R336, R338) -/

/-- One bit through the CRC register of a frame. DEDUCED (log 69). -/
def crcStep (c : Word16) (b : Bool) : Word16 :=
  let top := xor (c.getLsbD 15) b
  (c <<< 1) ^^^ (if top then 0x8BB7 else 0)

/-- CRC-16 over bits in the order given. -/
def crc16 (bits : List Bool) : Word16 := bits.foldl crcStep 0xFFFF

def bitsOf (w : Nat) (v : Nat) : List Bool := (List.range w).map fun i => bitAt v i

/-- Frame bits [255:240] hold the CRC of the payload and SEQ. -/
def frameOk (frame : BitVec 256) (seq : Byte) : Bool :=
  crc16 (bitsOf 240 frame.toNat ++ bitsOf 8 seq.toNat) = frame.extractLsb' 240 16

/-- Bits [47:0] of a message of a type. -/
def sbBits (type : Nat) (m : SbMsg) : Nat := type + place m.sub.toNat 4 + place m.body.toNat 8
def sbCrc (type : Nat) (m : SbMsg) : Word16 := crc16 (bitsOf 48 (sbBits type m))

/-- One of the copies sent on the groups of a direction is good (R337). -/
def sbGood (s : Device) (l d type : Nat) (m : SbMsg) : Bool :=
  let x := linkAt s l
  x.mode ≠ .failed
    && ((!x.sbLost.contains (d * 2) && m.crc0 = sbCrc type m) || (!x.sbLost.contains (d * 2 + 1) && m.crc1 = sbCrc type m))

/-- Sends a sideband message in a direction. -/
def sbSend (d type sub : Nat) (body : Nat) (x : Link) : Link :=
  let m : SbMsg := { sub := BitVec.ofNat 4 sub, body := BitVec.ofNat 40 body, crc0 := 0, crc1 := 0 }
  let v := BitVec.ofNat 64 (sbBits type m + place (sbCrc type m).toNat 48)
  if d = 0 then { x with msg0 := v } else { x with msg1 := v }

/-- The ACK of a group of strands of direction `d` travels the other way. -/
def sendAck (d g : Nat) (x : Link) : Link :=
  let body := (List.range 4).foldl (fun a i => a + place (((x.strand d (4 * g + i)).expect - 1).toNat) (8 * i)) 0
  let x := sbSend (1 - d) 1 g body x
  (List.range 4).foldl (fun x i => x.setStrand d (4 * g + i) { x.strand d (4 * g + i) with unacked := 0 }) x

/-! ## Grafts and retirement (R345 to R349) -/

/-- GRAFT of R358. -/
def graftReg (t : Strand) : Nat :=
  t.wire0.toNat + bit t.src0 6 + bit t.bad0 7 + place t.wire1.toNat 8 + bit t.src1 14 + bit t.bad1 15 + bit (t.st = .retired) 16
    + place t.cause.toNat 17

def linkObj (l d n : Nat) : Nat := l + place d 4 + place n 5
def linkSrc (l : Nat) : Source := .link (Fin.ofNat 14 l)

/-- The bytes of units that wait on a strand, as the payloads that carry them; the last is filled with a pad unit (R344). -/
def unitLoads (n : Nat) : Nat → List Byte → List Load
  | 0, _ => []
  | f + 1, bs => if bs.isEmpty then [] else { stream := n, fab := false, bits := BitVec.ofNat 240 (ofLe (sliceBytes bs 0 30)) } :: unitLoads n f (bs.drop 30)

/-- Every payload that a strand has still to deliver, in order: unacknowledged frames, payloads taken over, and the units that wait. -/
def Strand.owed (n : Nat) (t : Strand) : List Load := t.buf.map (·.load) ++ t.todo ++ unitLoads n (t.txq.length / 30 + 1) t.txq

/-- What a quiesced strand has not had acknowledged goes to the next working strand of its kind, ahead of that strand's own traffic
(R347 step 2). The units that wait go with it, so that each packet stays on one strand. DEDUCED (log 128). -/
def moveFrames (l d n : Nat) (fab : Bool) (x : Link) : Link :=
  let t := x.strand d n
  let same := (workList l x d).filter fun k => k ≠ n && (isFabStrand l x d k) = fab
  let into := ((same.filter fun k => n < k) ++ same ++ (workList l x d).filter (· ≠ n)).head?
  match into with
  | none => x
  | some k =>
    let u := x.strand d k
    let x := x.setStrand d k { u with todo := t.owed n ++ u.todo }
    x.setStrand d n { t with buf := [], resend := [], todo := [], txq := [] }

/-- Takes a strand out of service and hands its frames on. -/
def quiesce (l d n : Nat) (st : StrandSt) (x : Link) : Link :=
  let fab := isFabStrand l x d n
  moveFrames l d n fab (x.setStrand d n { x.strand d n with st := st })

/-- Another strand of the direction is quiesced (R349). -/
def directionBusy (l : Nat) (x : Link) (d n : Nat) : Bool :=
  (List.range (strandCount l)).any fun k => k ≠ n && ((x.strand d k).st = .testing || (x.strand d k).st = .grafting)

/-- Records faulty wires: spares are marked, and the wires that need a spare are listed. -/
def noteWires (ws : List Nat) (t : Strand) : Strand × List Nat :=
  let t := { t with bad0 := t.bad0 || ws.contains 33, bad1 := t.bad1 || ws.contains 34 }
  let fresh := (ws.eraseDups).filter fun w => decide (w ≤ 32) && t.wire0.toNat ≠ w && t.wire1.toNat ≠ w
  let again := (if t.bad0 && t.wire0 ≠ 63 && t.wire1.toNat ≠ t.wire0.toNat then [t.wire0.toNat] else [])
    ++ (if t.bad1 && t.wire1 ≠ 63 && t.wire0.toNat ≠ t.wire1.toNat then [t.wire1.toNat] else [])
  (t, fresh ++ again)

/-- Gives spares to wires, SP0 first; `none` where the sound spares do not suffice. -/
def giveSpares (fuse : Bool) : List Nat → Strand → Option Strand
  | [], t => some t
  | w :: ws, t =>
    if t.wire0 = 63 && !t.bad0 then giveSpares fuse ws { t with wire0 := BitVec.ofNat 6 w, src0 := fuse }
    else if t.wire1 = 63 && !t.bad1 then giveSpares fuse ws { t with wire1 := BitVec.ofNat 6 w, src1 := fuse }
    else none

/-- The links whose traffic is rerouted around failed ones (R350). -/
def detours (s : Device) : List Nat :=
  (List.range 14).flatMap fun l =>
    if (linkAt s l).mode ≠ .failed then []
    else if isHubLink l then (hubPath s l).getD []
    else
      let a := if l - 8 < 3 then l - 8 else l - 7
      match hubPath s a, hubPath s (a + 1) with
      | some p, some q => p ++ q
      | _, _ => []

def markDetours (s : Device) : Device :=
  (detours s).foldl (fun s l => modLink l (fun x => { x with detour := true }) s) s

def linkStateReg (s : Device) (l : Nat) : Nat :=
  let x := linkAt s l
  linkStateNo l x + place (workCount l x 0) 2 + place (workCount l x 1) 7 + place (fabCount l x 0) 12 + place (fabCount l x 1) 16
    + bit (rpl64 s && x.mode ≠ .down) 20 + bit (!x.sbLost.isEmpty) 21 + bit x.detour 22

def routeBits (l : Nat) (up : Bool) (s : Device) : Device :=
  if isHubLink l then
    { s with trl := { s.trl with hlUp := if up then s.trl.hlUp ||| (1#8 <<< l) else s.trl.hlUp &&& ~~~(1#8 <<< l) } }
  else
    { s with trl := { s.trl with nlUp := if up then s.trl.nlUp ||| (1#6 <<< (l - 8)) else s.trl.nlUp &&& ~~~(1#6 <<< (l - 8)) } }

/-- Compute dies without a route to the hub. -/
def cutOff (s : Device) : List Nat := (List.range 8).filter fun d => (hubPath s d).isNone

/-! ## Slots of R126 -/

/-- Slot k of a frame payload: its channel byte and its word. -/
def slotAt (bits : BitVec 240) (k : Nat) : Nat × Word32 := ((bits.extractLsb' (40 * k + 32) 8).toNat, bits.extractLsb' (40 * k) 32)

/-- The payload of six slots. -/
def slotBits (xs : List (Nat × Word32)) : BitVec 240 :=
  BitVec.ofNat 240 ((List.range 6).foldl (fun a k =>
    let x := xs.getD k (0xFF, 0)
    a + place (x.2.toNat + place x.1 32) (40 * k)) 0)

/-- The strand-local index of a channel on a strand, and the channel of a strand-local index (R129). -/
def Strand.localOf (t : Strand) (w : Nat) : Option Nat := (t.smap.find? fun e => e.2 = w).map (·.1)
def Strand.wideOf (t : Strand) (i : Nat) : Option Nat := (t.smap.find? fun e => e.1 = i).map (·.2)

/-- A payload carries a slot of the channel. -/
def Link.carries (x : Link) (d w : Nat) (p : Load) : Bool :=
  p.fab && (List.range 6).any fun k => decide ((slotAt p.bits k).1 < 0xFE) && (x.strand d p.stream).wideOf (slotAt p.bits k).1 = some w

/-- Empties the slots of the channel in a payload. -/
def Link.void (x : Link) (d w : Nat) (p : Load) : Load :=
  if x.carries d w p then
    { p with bits := slotBits ((List.range 6).map fun k =>
        let e := slotAt p.bits k
        if e.1 < 0xFE ∧ (x.strand d p.stream).wideOf e.1 = some w then (0xFF, 0) else e) }
  else p

/-- Takes the slots of a channel out of one direction of a link. -/
def voidChannel (l d w : Nat) (s : Device) : Device :=
  modLink l (fun x =>
    let x := { x with stage := if d = 1 then x.stage.filter (·.1 ≠ w) else x.stage }
    (List.range (strandCount l)).foldl (fun x n =>
      let t := x.strand d n
      x.setStrand d n { t with buf := t.buf.map (fun f => { f with load := x.void d w f.load }), todo := t.todo.map (x.void d w) }) x) s

/-- The hops of what a channel end sends: link, direction and link-wide index (R129). -/
def hops (s : Device) (b side ch : Nat) : List (Nat × Nat × Nat) :=
  match linkOf b side ch with
  | none => []
  | some (l, d, w) =>
    if l < 8 then (l, d, w) :: (match hubPartner s (hubKey b ch) with | some k => [(k / 512, 1, k % 512)] | none => [])
    else [(l, d, w)]

/-- What is on its way on a channel goes back to its sender when a link of its path fails, so that it can take another route without
loss or duplication (R130). DEDUCED (log 130). -/
def recallChan (l : Nat) (s : Device) (e : Nat × Nat) : Device :=
  let c := chan (bedAt s e.1) e.2
  let hs := hops s e.1 (e.2 / 64) (e.2 % 64)
  if hs.any fun h => h.1 = l then
    let s := hs.foldl (fun s h => voidChannel h.1 h.2.1 h.2.2 s) s
    let held := match farEnd s e.1 (e.2 / 64) (e.2 % 64) with
      | some r => (chan (bedAt s r.bed.val) (endKey r)).fifo.length
      | none => 0
    let tx := c.flight ++ c.tx
    modBed e.1 (setChan e.2 { c with tx, credBack := 64 - c.credits - tx.length - held, flight := [], levels := c.lvlFly.filter (·.2.isSome) ++ c.levels, lvlFly := [] }) s
  else s

/-- The channel ends of every bed. -/
def chanEnds (s : Device) : List (Nat × Nat) := s.beds.cells.flatMap fun b => b.2.border.chans.cells.map fun c => (b.1, c.1)

/-- What a failed link carried: its packets are lost (R350), its channels' tokens are not. -/
def emptyLink (l : Nat) (s : Device) : Device :=
  let s := (chanEnds s).foldl (recallChan l) s
  modLink l (fun x => { x with strands := x.strands.mapCells Strand.reset fun _ t =>
                                 { t with buf := [], resend := [], todo := [], txq := [], rxq := [], rxHead := [], rxData := [] }
                               credits := List.replicate 4 256, freed := List.replicate 4 0, stage := [], hubCred := [] }) s

/-- A link fails (R348, R350); a die that has lost its last route applies C3 itself (R543). -/
def failLink (l : Nat) (s : Device) : Device :=
  let before := cutOff s
  let x := linkAt s l
  if x.mode = .failed then s else
  let s := emptyLink l (routeBits l false (putLink l { x with mode := .failed } s))
  let s := markDetours s
  let lost := (cutOff s).filter fun d => !before.contains d
  let s := selfRec 0x07 l 0x8008 0 0 0 s
  let s := raise (linkSrc l) (if (cutOff s).isEmpty then 2 else 3) 0x12 (linkStateReg s l) s
  lost.foldl (fun s d => raise (.die (Fin.ofNat 8 d)) 3 0x12 l s) s

/-- The link still has the strands and sideband that R348 asks for. -/
def linkSound (l : Nat) (x : Link) : Bool :=
  [0, 1].all fun d =>
    decide (minStrands l ≤ workCount l x d + ((List.range (strandCount l)).filter fun n => (x.strand d n).st = .grafting).length)
      && !(x.sbLost.contains (d * 2) && x.sbLost.contains (d * 2 + 1))

def checkLink (l : Nat) (s : Device) : Device :=
  if (linkAt s l).mode = .up ∧ !linkSound l (linkAt s l) then failLink l s else s

/-- A strand is retired (R348). -/
def retireStrand (l d n cause : Nat) (s : Device) : Device :=
  let x := linkAt s l
  if (x.strand d n).st = .retired then s else
  let x := quiesce l d n .retired (x.setStrand d n { x.strand d n with cause := BitVec.ofNat 2 cause, testDue := false, faults := [] })
  let x := sbSend (1 - d) 6 n cause x
  let s := putLink l x s
  let s := raise (linkSrc l) 2 0x11 (graftReg ((linkAt s l).strand d n)) s
  checkLink l (selfRec 0x07 (linkObj l d n) 0x8007 0 0 0 s)

/-- A strand with its spares given is quiesced and grafted (R347). -/
def beginGraft (l d n : Nat) (need : List Nat) (t : Strand) (s : Device) : Device :=
  let x := quiesce l d n .grafting ((linkAt s l).setStrand d n t)
  let x := need.foldl (fun x w => sbSend (1 - d) 5 n (w + bit (t.wire1.toNat = w) 6) x) x
  let s := putLink l x s
  let s := raise (linkSrc l) 1 0x10 (graftReg ((linkAt s l).strand d n)) s
  checkLink l (selfRec 0x07 (linkObj l d n) 0x8006 0 0 0 s)

/-- Faulty wires of one strand are grafted together, or the strand is retired (R346 to R349). -/
def graftWires (l d n : Nat) (ws : List Nat) (s : Device) : Device :=
  let x := linkAt s l
  let t := x.strand d n
  if t.st = .retired || x.mode ≠ .up then s
  else if directionBusy l x d n then
    putLink l (x.setStrand d n { t with faults := (t.faults ++ ws).eraseDups }) s
  else if ws.contains 35 then retireStrand l d n 2 s
  else
    let (t, need) := noteWires ws t
    match giveSpares false need t with
    | none => retireStrand l d n 1 (putLink l (x.setStrand d n t) s)
    | some t' =>
      if need.isEmpty then putLink l (x.setStrand d n t') s else beginGraft l d n need t' s

/-- An immediate wire test begins, or waits (R342, R346, R349). -/
def startTest (l d n : Nat) (s : Device) : Device :=
  let x := linkAt s l
  let t := x.strand d n
  if t.st ≠ .working || x.mode ≠ .up then s
  else if directionBusy l x d n then putLink l (x.setStrand d n { t with testDue := true }) s
  else
    let x := quiesce l d n .testing (x.setStrand d n { t with testDue := false })
    checkLink l (putLink l (sbSend d 4 n (place 256 8) { x with tests := satAdd 8 x.tests 1 }) s)

/-- What waited for the direction goes on, lowest strand first, until a strand is quiesced again (R349). -/
def waitingOnes (l d : Nat) : Nat → Device → Device
  | 0, s => s
  | k + 1, s =>
    let x := linkAt s l
    if x.mode ≠ .up || directionBusy l x d 16 then s
    else match (List.range (strandCount l)).find? fun n => (x.strand d n).testDue || !(x.strand d n).faults.isEmpty with
    | none => s
    | some n =>
      let t := x.strand d n
      waitingOnes l d k (if t.faults.isEmpty then startTest l d n s
        else graftWires l d n t.faults (setLink l (x.setStrand d n { t with faults := [] }) s))

def nextWaiting (l d : Nat) (s : Device) : Device := waitingOnes l d (2 * strandCount l) s

/-- A strand returns to service with SEQ 0. -/
def returnStrand (l d n : Nat) (s : Device) : Device :=
  let x := linkAt s l
  let t := { x.strand d n with st := .working, next := 0, expect := 0, unacked := 0, nak := false, buf := [], resend := [] }
  nextWaiting l d (putLink l (x.setStrand d n t) s)

/-- WIRE_TEST_COMPLETE: the wires that showed an error. The strand is grafted or retired, or returns to service (R346). -/
def wireTestDone (l d n : Nat) (ws : List Nat) (s : Device) : Device :=
  if (linkAt s l).mode ≠ .up || ((linkAt s l).strand d n).st ≠ .testing then s
  else
    let s := if ws.isEmpty then s else graftWires l d n ws s
    match ((linkAt s l).strand d n).st with
    | .testing => returnStrand l d n s
    | .retired => nextWaiting l d s
    | _ => s

/-- GRAFT_COMPLETE: both ends deskew, send TEST, and the strand returns. -/
def graftDone (l d n : Nat) (s : Device) : Device :=
  let x := linkAt s l
  if x.mode ≠ .up || (x.strand d n).st ≠ .grafting then s
  else returnStrand l d n (setLink l (sbSend d 4 n 0 (sbSend (1 - d) 4 n 0 x)) s)

/-! ## Frames (R339 to R342) -/

/-- The transmitter resends from a SEQ, before which every frame is acknowledged, or begins a wire test after the fourth replay of it
(R341, R342). -/
def resendFrom (l d n : Nat) (seq : Byte) (s : Device) : Device :=
  let x := linkAt s l
  let t := x.strand d n
  let buf := t.buf.dropWhile fun f => f.seq ≠ seq
  match buf with
  | [] => if seq = t.next then setLink l (x.setStrand d n { t with buf := [], resend := [] }) s else s
  | f :: _ =>
    if 4 ≤ f.replays then startTest l d n (putLink l (x.setStrand d n { t with buf := buf }) s)
    else
      let again := buf.map fun g => { g with sent := devNs s, replays := if g.seq = seq then g.replays + 1 else g.replays }
      putLink l { x.setStrand d n { t with buf := again, resend := again.map (·.seq) } with replays := satAdd 16 x.replays 1 } s

/-- ACK_DUE: 32 ns with a delivered frame unacknowledged. -/
def ackDue (l d n : Nat) (s : Device) : Device :=
  let x := linkAt s l
  let t := x.strand d n
  if x.mode = .up && decide (0 < t.unacked ∧ t.since + 32 ≤ devNs s) then setLink l (sendAck d (n / 4) x) s else s

/-- REPLAY_TIMEOUT: the oldest frame passes 256 ns. -/
def replayTimeout (l d n : Nat) (s : Device) : Device :=
  let x := linkAt s l
  match (x.strand d n).buf with
  | f :: _ => if x.mode = .up && decide (f.sent + 256 ≤ devNs s) then resendFrom l d n f.seq s else s
  | [] => s

/-- Frees the frames up to and including a SEQ. -/
def ackStrand (now : Nat) (d n : Nat) (seq : Byte) (x : Link) : Link :=
  let t := x.strand d n
  if t.buf.any fun f => f.seq = seq then
    let near : Bool := match t.buf with | f :: _ => decide (f.sent + 256 = now) | [] => false
    let left := (t.buf.dropWhile fun f => f.seq ≠ seq).drop 1
    let x := x.setStrand d n { t with buf := left, resend := t.resend.filter fun q => left.any fun f => f.seq = q }
    if near then { x with near := satAdd 8 x.near 1 } else x
  else x

/-! ## Sideband messages (R338). `d` is the direction in which the message travels -/

def idleMsg (l d : Nat) (m : SbMsg) (s : Device) : Device := if sbGood s l d 0 m then s else s

/-- ACK names the frames that arrived. DEDUCED (log 68). -/
def ackMsg (l d : Nat) (m : SbMsg) (s : Device) : Device :=
  if !sbGood s l d 1 m then s else
  let g := m.sub.toNat % 4
  setLink l ((List.range 4).foldl (fun x i =>
    if 4 * g + i < strandCount l then ackStrand (devNs s) (1 - d) (4 * g + i) (m.body.extractLsb' (8 * i) 8) x else x) (linkAt s l)) s

def nakMsg (l d : Nat) (m : SbMsg) (s : Device) : Device :=
  if !sbGood s l d 2 m || decide (strandCount l ≤ m.sub.toNat) then s
  else resendFrom l (1 - d) m.sub.toNat (m.body.extractLsb' 0 8) s

/-- The effective capability word (R354, R355). DEDUCED (log 70). -/
def effectiveCap (dies : List Word32) : Nat :=
  (dies.zipIdx.foldl (fun a x => a + place (((x.1.extractLsb' 4 8).toNat - 100) / 10 % 16) (4 * x.2)) 0)
    + bit (dies.all fun w => w.getLsbD 12) 32

def setDieCap (die : Nat) (w : Word32) (s : Device) : Device :=
  let caps := modAt s.d2d.dieCap die fun _ => w
  { s with d2d := { s.d2d with dieCap := caps, cap := BitVec.ofNat 64 (effectiveCap caps) } }

def capMsg (l d : Nat) (m : SbMsg) (s : Device) : Device :=
  if !sbGood s l d 3 m || decide (8 ≤ m.sub.toNat) then s
  else setDieCap m.sub.toNat (m.body.extractLsb' 8 32) s

/-- TEST announces a test of a strand of the message's own direction, or with length 0 its return. -/
def testMsg (l d : Nat) (m : SbMsg) (s : Device) : Device :=
  let n := m.sub.toNat
  if !sbGood s l d 4 m || decide (strandCount l ≤ n) then s
  else if m.body.extractLsb' 8 32 = 0 then graftDone l d n s
  else startTest l d n s

def graftMsg (l d : Nat) (m : SbMsg) (s : Device) : Device :=
  let n := m.sub.toNat
  let w := (m.body.extractLsb' 0 6).toNat
  let x := linkAt s l
  let t := x.strand (1 - d) n
  let second := m.body.getLsbD 6
  if !sbGood s l d 5 m || decide (strandCount l ≤ n) || decide (32 < w) then s
  else if (if second then t.wire1 else t.wire0).toNat = w then s
  else if t.st ≠ .retired && x.mode = .up && !directionBusy l x (1 - d) n && t.wire0.toNat ≠ w && t.wire1.toNat ≠ w
      && (if second then t.wire1 = 63 && !t.bad1 else t.wire0 = 63 && !t.bad0) then
    beginGraft l (1 - d) n [w] (if second then { t with wire1 := BitVec.ofNat 6 w, src1 := false } else { t with wire0 := BitVec.ofNat 6 w, src0 := false }) s
  else graftWires l (1 - d) n [w] s

def retireMsg (l d : Nat) (m : SbMsg) (s : Device) : Device :=
  let n := m.sub.toNat
  if !sbGood s l d 6 m || decide (strandCount l ≤ n) || (linkAt s l).mode ≠ .up then s
  else nextWaiting l (1 - d) (retireStrand l (1 - d) n (m.body.extractLsb' 0 2).toNat s)

/-! ## Maintenance windows (R337, R345) -/

/-- MAINTENANCE_WINDOW: wires and sideband groups that show an error. -/
def maintenance (l : Nat) (ws : List WireRef) (groups : List Nat) (s : Device) : Device :=
  let x := linkAt s l
  if x.mode ≠ .up then s else
  let s := setLink l { x with period := 0 } (occur 0x06 l (x.period : Nat) s)
  let x := linkAt s l
  let busy := [0, 1].any fun d => (List.range (strandCount l)).any fun n => (x.strand d n).st = .testing || (x.strand d n).st = .grafting
  if busy then s
  else
    let lostNow := (groups.filter fun g => x.sbSusp.contains g && !x.sbLost.contains g).eraseDups
    let s := setLink l { x with sbSusp := groups, sbLost := x.sbLost ++ lostNow } s
    let s := lostNow.foldl (fun s g => raise (linkSrc l) 1 0x13 (g % 2) s) s
    let s := [0, 1].foldl (fun s d => (List.range (strandCount l)).foldl (fun s n =>
      let bad := ((ws.filter fun w => w.dir.val = d && w.strand.val = n).map (·.wire.val)).filter (· < 35)
      let t := (linkAt s l).strand d n
      let faulty := bad.filter fun w => t.suspect.contains w
      let s := modLink l (fun x => x.setStrand d n { t with suspect := bad }) s
      if faulty.isEmpty then s else graftWires l d n faulty s) s) s
    checkLink l s

/-! ## Training (R352) -/

/-- Training of one link: fuse-record grafts, the strands that fail, and grafts of newly found wires. -/
def trainLink (fuses : List (Nat × WireRef)) (s : Device) (x : LinkTrain × Nat) : Device :=
  let l := x.2
  let fresh : Link := { Link.reset with mode := .up, sbLost := x.1.groups.map (·.val), fab0 := (linkAt s l).fab0, fab1 := (linkAt s l).fab1 }
  let fused := (fuses.filter fun f => f.1 = l).foldl (fun y f =>
    let d := f.2.dir.val
    let n := f.2.strand.val
    match giveSpares true [f.2.wire.val] (y.strand d n) with
    | some t => y.setStrand d n t
    | none => y) fresh
  let s := routeBits l true (putLink l fused s)
  let s := x.1.groups.foldl (fun s g => raise (linkSrc l) 1 0x13 (g.val % 2) s) s
  let s := x.1.failed.foldl (fun s f => if f.2.val < strandCount l then retireStrand l f.1.val f.2.val 3 s else s) s
  let s := [0, 1].foldl (fun s d => (List.range (strandCount l)).foldl (fun s n =>
    let bad := (x.1.wires.filter fun w => w.dir.val = d && w.strand.val = n).map (·.wire.val)
    if bad.isEmpty then s
    else
      let s := graftWires l d n bad s
      if ((linkAt s l).strand d n).st = .grafting then returnStrand l d n s else s) s) s
  checkLink l s

/-- The capability word that a die reports (R353). -/
def dieWord (d : Nat) : Word32 :=
  if Config.cdStep d then BitVec.ofNat 32 (2 + place 160 4 + 2 ^ 12) else BitVec.ofNat 32 (1 + place 140 4)

/-- LINK_TRAINING_COMPLETE: every link is trained and the capability words are exchanged. -/
def trainLinks (fuses : List (Nat × WireRef)) (xs : List LinkTrain) (s : Device) : Device :=
  let s := (List.range 8).foldl (fun s d => setDieCap d (dieWord d) s) s
  markDetours (xs.zipIdx.foldl (trainLink fuses) s)

/-! ## LINK_STATUS (R357) -/

def countSrc (l : Nat) (x : Link) (fuse : Bool) : Nat :=
  ([0, 1].flatMap fun d => (List.range (strandCount l)).flatMap fun n =>
    let t := x.strand d n
    (if t.wire0 ≠ 63 ∧ t.src0 = fuse then [0] else []) ++ (if t.wire1 ≠ 63 ∧ t.src1 = fuse then [0] else [])).length

def linkRecord (s : Device) (l : Nat) : List Byte :=
  let x := linkAt s l
  leBytes 1 l ++ leBytes 1 (linkStateNo l x) ++ leBytes 1 (workCount l x 0) ++ leBytes 1 (workCount l x 1) ++ leBytes 1 (fabCount l x 0)
    ++ leBytes 1 (fabCount l x 1) ++ leBytes 2 (bit (rpl64 s && x.mode ≠ .down) 0 + bit (!x.sbLost.isEmpty) 1 + bit x.detour 2)
    ++ leBytes 2 (notRetired l x 0) ++ leBytes 2 (notRetired l x 1) ++ leBytes 4 x.crcErr ++ leBytes 4 x.replays
    ++ leBytes 2 (countSrc l x false) ++ leBytes 2 (countSrc l x true) ++ leBytes 8 x.tChange

def opLinkStatus : OpSpec where
  code := 0x0504
  plenOk := (· = 4)
  session := true
  early := true
  late := never
  refusal := fun c _ =>
    let l := leAt c.pl 0 1
    if !zeroAt c.pl 1 3 ∨ (13 < l ∧ l ≠ 0xFF) then some stBadParam else none
  records := fun _ _ => 0
  run := fun c s =>
    let l := leAt c.pl 0 1
    { st := s, reply := some (stOk, if l = 0xFF then (List.range 14).flatMap (linkRecord s) else linkRecord s l) }

/-! ## D2D registers (R358) -/

def d2dWidth (off : Nat) : Option (Nat × Nat) :=
  if off < 8 then some (0, 64)
  else if 0x10 ≤ off ∧ off < 0x30 then some (off / 4 * 4, 32)
  else if 0x10000 ≤ off ∧ off < 0x1E000 then
    let r := off % 0x1000
    if r < 0xC then some (off / 4 * 4, 32)
    else if 0x10 ≤ r ∧ r < 0x18 then some (off / 8 * 8, 64)
    else if 0x100 ≤ r ∧ r < 0x180 ∧ (r - 0x100) % 0x40 / 4 < strandCount ((off - 0x10000) / 0x1000) then some (off / 4 * 4, 32)
    else none
  else none

def d2dRead (s : Device) (off : Nat) : Nat :=
  if off = 0 then s.d2d.cap.toNat
  else if off < 0x30 then (s.d2d.dieCap.getD ((off - 0x10) / 4) 0).toNat
  else
    let l := (off - 0x10000) / 0x1000
    let x := linkAt s l
    let r := off % 0x1000
    if r = 0 then linkStateReg s l
    else if r = 4 then x.fab0 + place x.fab1 4
    else if r = 8 then notRetired l x 0 + place (notRetired l x 1) 16
    else if r = 0x10 then x.crcErr + place x.replays 32 + place x.tests 48 + place x.near 56
    else graftReg (x.strand ((r - 0x100) / 0x40) ((r - 0x100) % 0x40 / 4))

end Sys2Proof.Machine
end

