-- ==== Sys2Proof/Machine/CfgImage.lean ====
section
/-! DEFINITION. The configuration image: header, sections, frames, their checks, and the configuration that they give a bed
(R445 to R452, R460, R461, R626). -/
namespace Sys2Proof.Machine
open Sys2Proof

def imgMax : Nat := 369098752
def imgTrailer : Nat := 4736

/-! ## The header (R446, R460) -/

def imgKind (b : List Byte) : Nat := leAt b 6 1
def imgPlot (b : List Byte) : Nat := leAt b 7 1 % 16
def imgTotal (b : List Byte) : Nat := leAt b 48 8
def imgFlags (b : List Byte) : Nat := leAt b 58 2
def imgEncrypted (b : List Byte) : Bool := bitAt (imgFlags b) 0
def imgDigest (b : List Byte) : List Byte := Config.sha384 (b.take (imgTotal b - imgTrailer))

/-- REQ_CAP is covered by the effective capability word (R354). -/
def capCovers (eff req : Nat) : Bool :=
  decide (req < 2 ^ 33) && (!bitAt req 32 || bitAt eff 32)
    && (List.range 8).all fun n => decide (bitsAt req (4 * n) 4 ≤ bitsAt eff (4 * n) 4)

/-- The checks made when the 64th byte has arrived. DEDUCED (log 95). -/
def headCheck (s : Device) (plot reserve : Nat) (b : List Byte) : Option Nat :=
  let p := imgPlot b
  if b.take 4 ≠ [0x4B, 0x56, 0x49, 0x4D] ∨ leAt b 4 2 ≠ 1 ∨ 1 < imgKind b ∨ 16 ≤ leAt b 7 1 ∨ 2 ≤ imgFlags b then some stBadParam
  else if (leAt b 8 16 ^^^ Config.deviceId % 2 ^ 128) &&& leAt b 24 16 ≠ 0 then some stWrongDevice
  else if (imgKind b = 0 ∧ p ≠ 0) ∨ (plot ≠ 0 ∧ p ≠ plot) ∨ !plotExists s p then some stNotAuth
  else if !capCovers s.d2d.cap.toNat (leAt b 40 8) then some stCapability
  else
    let t := imgTotal b
    if t % 64 ≠ 0 ∨ t < 5120 ∨ imgMax < t ∨ reserve < t then some stBadParam else none

/-- The check made when the 256th byte has arrived. -/
def headRest (b : List Byte) : Option Nat :=
  if !zeroAt b 116 140 || (!imgEncrypted b && !zeroAt b 76 40) then some stBadParam else none

/-! ## The section table (R447) -/

structure Section where
  index  : Nat
  entry  : List Byte
  type   : Nat
  sflags : Nat
  target : Nat
  offset : Nat
  length : Nat
  deriving DecidableEq, Repr

def imgSections (b : List Byte) : List Section :=
  (List.range (leAt b 56 2)).map fun i =>
    let e := sliceBytes b (256 + 32 * i) 32
    { index := i, entry := e, type := leAt e 0 1, sflags := leAt e 1 1, target := leAt e 2 2, offset := leAt e 8 8, length := leAt e 16 8 }

def Section.fieldsOk (full : Bool) (x : Section) : Bool :=
  zeroAt x.entry 4 4 && zeroAt x.entry 24 8 && (match x.type with
    | 1 => x.sflags < 2 && x.target < 384
    | 2 => (x.sflags = 0 || x.sflags = 2) && x.target < 128
    | 3 => x.sflags = 0 && x.target = 0 && full
    | 4 => x.sflags = 0
    | _ => false)

def placedOk (limit : Nat) : Nat → List Section → Bool
  | _, [] => true
  | from', x :: xs => x.offset % 64 = 0 && from' ≤ x.offset && x.offset + x.length ≤ limit && placedOk limit (x.offset + x.length) xs

def tableOk (b : List Byte) : Bool :=
  let xs := imgSections b
  let n := leAt b 56 2
  1 ≤ n && n ≤ 1024 && xs.all (·.fieldsOk (imgKind b = 0)) && placedOk (imgTotal b - imgTrailer) (256 + 32 * n) xs
    && decide (xs.map fun x => (x.type, x.target)).Nodup

/-! ## Bodies (R452) -/

def ivXor (iv : List Byte) (i : Nat) : List Byte :=
  iv.take 8 ++ leBytes 4 (leAt iv 8 4 ^^^ i)

/-- The body of a section, decrypted; `none` where its GCM tag fails. -/
def sectionBody (s : Device) (b : List Byte) (x : Section) : Option (List Byte) :=
  let raw := (b.drop x.offset).take x.length
  if imgEncrypted b then
    match (plotKey s (imgPlot b) "kv image").bind fun k => Config.keyUnwrap k (sliceBytes b 76 40) with
    | some key => Config.gcmOpen key (ivXor (sliceBytes b 64 12) x.index) x.entry raw
    | none => none
  else some raw

/-! ## Frames (R448) -/

structure FrameRec where
  type  : Nat
  index : Nat
  data  : List Byte
  deriving DecidableEq, Repr

def frameSize : Nat → Option (Nat × Nat)
  | 1 => some (64, 1) | 2 => some (2304, 256) | 3 => some (64, 256) | 4 => some (32, 1) | 5 => some (1024, 1)
  | 6 => some (64, 48) | 7 => some (4096, 48) | _ => none

/-- The frames of a bed section, back to back; `none` where one breaks its layout. -/
def framesOf : Nat → List Byte → Option (List FrameRec)
  | 0, b => if b.isEmpty then some [] else none
  | f + 1, b =>
    if b.isEmpty then some [] else
    match frameSize (leAt b 0 1) with
    | none => none
    | some (n, count) =>
      if b.length < 8 + n ∨ leAt b 1 1 ≠ 0 ∨ count ≤ leAt b 2 2 ∨ leAt b 4 4 ≠ n then none
      else (framesOf f (b.drop (8 + n))).map fun fs => { type := leAt b 0 1, index := leAt b 2 2, data := (b.drop 8).take n } :: fs

def within (v mask : Nat) : Bool := v &&& mask = v

/-- A micro-instruction whose reserved bits hold 0: bit 23, and CND outside CMP and MULS (R52, R626). DEDUCED (log 25). -/
def irOk (w : Nat) : Bool := !bitAt w 23 && (w % 32 = 6 || w % 32 = 7 || bitsAt w 18 3 = 0)

def cellOk (r : List Byte) : Bool :=
  leAt r 0 4 < 2 && zeroAt r 136 8 &&
    (if leAt r 0 1 = 0 then
      (List.range 4).all (fun i => irOk (leAt r (8 + 4 * i) 4) && decide (leAt r (56 + i) 1 < 64)) && zeroAt r 60 76
    else zeroAt r 15 1)

def FrameRec.ok (deployed : Bool) (f : FrameRec) : Bool :=
  let d := f.data
  match f.type with
  | 1 => leAt d 0 1 < 16 && leAt d 1 1 < 3 && within (leAt d 2 2) 0x7E && !(deployed && bitsAt (leAt d 2 2) 1 2 = 2)
      && leAt d 4 4 < 2 ^ 24 && 100000 ≤ leAt d 4 4 && within (leAt d 8 4) stretchMask && within (leAt d 12 4) lockMask
      && leAt d 20 4 < 8 && zeroAt d 24 40
  | 2 => (List.range 16).all fun i => cellOk (sliceBytes d (144 * i) 144)
  | 3 => ((List.range 32).all fun i => let v := leAt d i 1; !bitAt v 6 && v % 64 < 48)
      && ((List.range 8).all fun i => let v := leAt d (32 + 2 * i) 2; within v 0x0F3F && v % 64 < 48) && zeroAt d 48 16
  | 4 => (List.range 8).all fun i => let v := leAt d (4 * i) 4; within v 0x80003FFF && bitsAt v 8 6 < 56
  | 5 => (List.range 256).all fun i => let v := leAt d (4 * i) 4; v < 2 ^ 29 && v % 8 ≤ 4
  | 6 =>
    let v := leAt d 0 4
    within v 0x001FFF7F && v % 8 ≠ 7 && bitsAt v 3 3 ≠ 7 && bitsAt v 8 2 ≠ 3 && bitsAt v 10 2 ≠ 3
      && (!bitAt v 6 || (3 ≤ v % 8 && 3 ≤ bitsAt v 3 3))
      && ((List.range 12).all fun i => leAt d (4 + 2 * i) 2 < 256)
      && ((List.range 8).all fun i => let t := leAt d (28 + 2 * i) 2; within t 0x0F0F && t % 8 ≤ 4) && zeroAt d 44 20
  | _ => true

def bedFrames (body : List Byte) : Option (List FrameRec) := framesOf (body.length / 40 + 1) body

def bedBodyOk (deployed merge : Bool) (body : List Byte) : Bool :=
  decide (body.length ≤ 811896) && match bedFrames body with
    | none => false
    | some fs => fs.all (·.ok deployed) && decide (fs.map fun f => (f.type, f.index)).Nodup && (merge || fs.any (·.type = 1))

def bodyOk (s : Device) (x : Section) (body : List Byte) : Bool :=
  match x.type with
  | 1 => bedBodyOk (s.trust.lifecycle = .deployed) (x.sflags = 1) body
  | 2 => body.length = 196624 && within (leAt body 0 4) 0xF000FFF0 && leAt body 4 1 < 4 && zeroAt body 5 11
  | 3 => body.length = 16 && zeroAt body 14 2 && (List.range 14).all fun l =>
      let m := if l < 8 then 8 else 4
      leAt body l 1 % 16 ≤ m && leAt body l 1 / 16 ≤ m
  | _ =>
    let a := leAt body 0 8
    body.length = 16 && zeroAt body 8 8 && (a = 0 || (a % 4096 = 0 && a + 20480 ≤ 0x00C000000000))

/-! ## The verdict at TOTAL_LEN (R461) -/

/-- ECDSA and ML-DSA image-verification keys of a plot, as R451 and R485 select them. -/
def imageKeys (s : Device) (p : Nat) : List Byte × List Byte :=
  if p = 0 ∧ (s.trust.lifecycle = .blank ∨ s.trust.lifecycle = .rma) then (Config.provEcdsa, Config.provMldsa)
  else ((plotSt s p).ecdsaPub, (plotSt s p).mldsaPub)

/-- Both signatures of a trailer at `off`, over the digest of every byte before it (R451). -/
def signedBy (keys : List Byte × List Byte) (b : List Byte) (off : Nat) : Bool :=
  let d := Config.sha384 (b.take off)
  Config.ecdsaOk keys.1 d (sliceBytes b off 96) && Config.mldsaOk keys.2 d (sliceBytes b (off + 96) 4627)

/-- BEDCTL of a bed section. -/
def bedCtl (body : List Byte) : Option (List Byte) :=
  ((bedFrames body).getD []).findSome? fun f => if f.type = 1 then some f.data else none

/-- The micro-clock ceiling of a die in kHz (R355). -/
def ceilingKhz (s : Device) (d : Nat) : Nat := 1000000 + bitsAt s.d2d.cap.toNat (4 * d) 4 * 100000

def foreign (s : Device) (b : List Byte) (x : Section × List Byte) : Bool :=
  let p := imgPlot b
  match x.1.type with
  | 1 => bedOwner s x.1.target ≠ p || (bedCtl x.2).any fun c => leAt c 0 1 % 16 ≠ p
  | 2 => coreOwner s x.1.target ≠ p
  | 4 => x.1.target ≠ p
  | _ => false

def beyond (s : Device) (x : Section × List Byte) : Bool :=
  match x.1.type with
  | 1 => (bedAt s x.1.target).unusable || (bedCtl x.2).any fun c => ceilingKhz s (x.1.target / 48) < leAt c 4 4
  | 2 => (coreIoAt s x.1.target).unusable
  | _ => false

/-- Sections with their plain bodies. -/
def imgBodies (s : Device) (b : List Byte) : List (Section × List Byte) :=
  (imgSections b).filterMap fun x => (sectionBody s b x).map fun d => (x, d)

/-- The first failing row of R461. -/
def imageVerdict (s : Device) (b : List Byte) : Option Nat :=
  let off := imgTotal b - imgTrailer
  let xs := imgBodies s b
  if !signedBy (imageKeys s (imgPlot b)) b off then some stAuthFail
  else if imgEncrypted b ∧ xs.length < (imgSections b).length then some stAuthFail
  else if !tableOk b || !xs.all (fun x => bodyOk s x.1 x.2) || !zeroAt b (off + 4723) 13 then some stBadParam
  else if xs.any (foreign s b) then some stNotAuth
  else if xs.any (beyond s) then some stCapability
  else none

/-! ## What a bed's frames configure -/

def frameKey (type index : Nat) : Nat := type * 65536 + index
def frameAt (m : Sparse (List Byte)) (type index : Nat) : List Byte := m.get [] (frameKey type index)

/-- Frames laid over a configuration; an all-zero frame is not kept (R449). -/
def overlay (fs : List FrameRec) (m : Sparse (List Byte)) : Sparse (List Byte) :=
  fs.foldl (fun m f => m.set [] (frameKey f.type f.index) (if f.data.all (· == 0) then [] else f.data)) m

def wordsAt (d : List Byte) (off size n : Nat) : List Nat := (List.range n).map fun i => leAt d (off + size * i) size
def orEmpty [DecidableEq α] (z : α) (l : List α) : List α := if l.all (· = z) then [] else l

def parseCell (r : List Byte) : CellCfg :=
  let bit' := bitAt (leAt r 0 1) 0
  { bitMode := bit'
    ir := orEmpty 0 ((wordsAt r 8 4 4).map (BitVec.ofNat 32))
    xsel := orEmpty 0 (if bit' then (List.range 64).map fun j => bitsAt (leAt r 56 80) (10 * j) 10 else (wordsAt r 56 1 4).map (· % 64))
    tables := orEmpty 0 ((wordsAt r 24 2 16).map (BitVec.ofNat 16)) }

/-- Listed frames of one type: index and data. -/
def framesIn (m : Sparse (List Byte)) (type : Nat) : List (Nat × List Byte) :=
  (m.cells.filter fun c => c.1 / 65536 = type).map fun c => (c.1 % 65536, c.2)

def parseCells (m : Sparse (List Byte)) : Sparse CellCfg :=
  (framesIn m 2).foldl (fun t f => (List.range 16).foldl (fun t i =>
    t.set CellCfg.blank (f.1 * 16 + i) (parseCell (sliceBytes f.2 (144 * i) 144))) t) .empty

/-- Initial register values of the cells (R51). -/
def initialCells (m : Sparse (List Byte)) : Sparse CellSt :=
  (framesIn m 2).foldl (fun t f => (List.range 16).foldl (fun t i =>
    t.set CellSt.zero (f.1 * 16 + i) { q0 := BitVec.ofNat 16 (leAt f.2 (144 * i + 4) 2), q1 := BitVec.ofNat 16 (leAt f.2 (144 * i + 6) 2), cl := false }) t) .empty

def parseSels (m : Sparse (List Byte)) : Sparse Nat :=
  (framesIn m 3).foldl (fun t f => (List.range 32).foldl (fun t i =>
    let v := leAt f.2 i 1
    t.set 0 (f.1 * 32 + i) (if bitAt v 7 then v % 64 + 1 else 0)) t) .empty

def mkTap (sel pm : Nat) : Tap := if pm = 0 then Tap.off else { sel, pm := BitVec.ofNat 4 pm }

def parseTaps (m : Sparse (List Byte)) : Sparse Tap :=
  let t := (framesIn m 3).foldl (fun t f => (List.range 4).foldl (fun t l =>
    let h := leAt f.2 (32 + 2 * l) 2
    let v := leAt f.2 (40 + 2 * l) 2
    (t.set Tap.off (hTap (f.1 / 16) l (f.1 % 16)) (mkTap (h % 64) (bitsAt h 8 4))).set Tap.off
      (vTap (f.1 % 16) l (f.1 / 16)) (mkTap (v % 64) (bitsAt v 8 4))) t) .empty
  (framesIn m 6).foldl (fun t f => (List.range 8).foldl (fun t j =>
    let w := leAt f.2 (28 + 2 * j) 2
    t.set Tap.off (hTap (f.1 % 16) (j % 4) (16 + 2 * (f.1 / 16) + j / 4)) (mkTap (w % 8) (if bitAt w 3 then bitsAt w 8 4 else 0))) t) t

/-- Where the store keeps the phase mask of a tap: its frame, and the byte whose low four bits hold it (R448). -/
def tapPlace (vert : Bool) (x l i : Nat) : Nat × Nat :=
  if vert then (frameKey 3 (i * 16 + x), 41 + 2 * l)
  else if i < 16 then (frameKey 3 (x * 16 + i), 33 + 2 * l)
  else (frameKey 6 (x + (i - 16) / 2 * 16), 29 + 2 * (l + 4 * ((i - 16) % 2)))

/-- An upset flips bit `k` of a tap's phase mask in the bed's configuration store (R474). -/
def upsetTap (vert : Bool) (x l i k : Nat) (b : Bed) : Bed :=
  let (key, at') := tapPlace vert x l i
  let old := match b.frames.get [] key with
    | [] => List.replicate 64 0
    | d => d
  let new := modAt old at' fun v => v ^^^ BitVec.ofNat 8 (2 ^ k)
  let m := b.frames.set [] key (if new.all (· == 0) then [] else new)
  if b.kept then { b with frames := m, cfg := { b.cfg with taps := parseTaps m } } else b

def parseBm (d : List Byte) : BmCfg :=
  let v := leAt d 0 4
  { aspectA := BitVec.ofNat 3 v, aspectB := BitVec.ofNat 3 (v / 8), check := bitAt v 6, rdwA := BitVec.ofNat 2 (v / 2 ^ 8),
    rdwB := BitVec.ofNat 2 (v / 2 ^ 10), pamA := BitVec.ofNat 4 (v / 2 ^ 12), pamB := BitVec.ofNat 4 (v / 2 ^ 16), used := bitAt v 20,
    inSel := (wordsAt d 4 2 12).map fun w => if bitAt w 7 then 0 else w % 64 + (if bitAt w 6 then 65 else 1) }

def foldOf (code : Nat) : Nat := 2 ^ (code % 4)

def parseBed (m : Sparse (List Byte)) : BedCfg :=
  let lines := frameAt m 4 0
  { fold := foldOf (leAt (frameAt m 1 0) 1 1)
    cells := parseCells m
    outSel := parseSels m
    taps := parseTaps m
    blines := (wordsAt lines 0 4 8).map fun v => if bitAt v 31 then some (v % 256, bitsAt v 8 6) else none
    bms := (framesIn m 6).foldl (fun t f => t.set BmCfg.reset f.1 (parseBm f.2)) .empty }

/-- CH_CFG of channel `k` (side * 64 + index) in a configuration. -/
def chCfgIn (m : Sparse (List Byte)) (k : Nat) : Word32 := BitVec.ofNat 32 (leAt (frameAt m 5 0) (4 * k) 4)

/-- The frames as one byte string, over which the digests of a configuration are taken. -/
def frameBytes (m : Sparse (List Byte)) : List Byte := m.cells.flatMap fun c => leBytes 4 c.1 ++ c.2

end Sys2Proof.Machine
end

