-- ==== Sys2Proof/Machine/Packet.lean ====
section
/-! DEFINITION. Packets as flits (R241 to R243) and as units of a packet strand (R344). -/
namespace Sys2Proof
open Sys2Proof.Machine

/-! ## Codes (R243, R245) -/

def Opc.code : Opc → Nat
  | .read => 0 | .write => 1 | .pwrite => 2 | .atomic => 3
  | .reserved c => c.toNat

def opcOf (c : Nat) : Opc :=
  if c = 0 then .read else if c = 1 then .write else if c = 2 then .pwrite else if c = 3 then .atomic else .reserved (BitVec.ofNat 4 c)

def AtType.code : AtType → Nat
  | .xload => 0 | .xstore => 1 | .fetchAdd => 2 | .swap => 3 | .cas => 4
  | .reserved c => c.toNat

def atypeOf (c : Nat) : AtType :=
  if c = 0 then .xload else if c = 1 then .xstore else if c = 2 then .fetchAdd else if c = 3 then .swap else if c = 4 then .cas
  else .reserved (BitVec.ofNat 4 c)

/-- The opcode of the response to a request: RD_RSP, WR_RSP or AT_RSP; that to a reserved opcode is a WR_RSP. DEDUCED (log 127). -/
def rspCode : Opc → Nat
  | .read => 8
  | .atomic => 0xB
  | _ => 9

/-- The value is the opcode of a response. -/
def carriesRsp (c : Nat) : Bool := c = 8 || c = 9 || c = 0xB

def opcOfRsp (c : Nat) : Opc := if c = 8 then .read else if c = 0xB then .atomic else .write

/-! ## Flits (R241, R242) -/

def carriesData (o : Opc) : Bool := o = .write || o = .pwrite

/-- Data flits that follow the header (R243). -/
def Parcel.dataFlits : Parcel → Nat
  | .req p => if carriesData p.opc then p.len.toNat + 1 else 0
  | .rsp r => if r.req.opc = .read && r.rcode = rcOkay then r.req.len.toNat + 1 else 0

def Parcel.flits (x : Parcel) : Nat := 1 + x.dataFlits

def Parcel.pkt : Parcel → Pkt
  | .req p => p
  | .rsp r => r.req

def Parcel.isRsp : Parcel → Bool
  | .req _ => false
  | .rsp _ => true

/-- The header of R242. -/
def header (opc rcode : Nat) (p : Pkt) : Nat :=
  p.pri.toNat + place p.init.toNat 2 + place p.plot.val 14 + place opc 18 + place p.tag.toNat 22 + place p.gen.toNat 32
    + place p.len.toNat 34 + place p.addr.toNat 36 + place p.bcnt.toNat 84
    + place (if p.opc = .atomic then p.atype.code else 0) 92 + place rcode 96 + place p.stamp.toNat 104 + bit p.dbg 112

/-- Header-flit bits [255:0]: the header, and the operands or the result of an atomic. -/
def Parcel.head : Parcel → Nat
  | .req p => header p.opc.code 0 p + (if p.opc = .atomic then place p.opA.toNat 128 + place p.opB.toNat 192 else 0)
  | .rsp r => header (rspCode r.req.opc) r.rcode.toNat r.req
      + (if r.req.opc = .atomic then place (ofLe r.data % 2 ^ 64) 128 else 0)

/-- The lines of the data flits: the bytes of the range in their lanes, 0 in the others. -/
def Parcel.lines (x : Parcel) : List Byte :=
  let p := x.pkt
  let d := match x with
    | .req p => p.data
    | .rsp r => r.data
  sliceBytes (List.replicate (p.addr.toNat % 64) 0 ++ d) 0 (64 * x.dataFlits)

/-- Reads a packet back from header-flit bits and data-flit bytes. -/
def parcelOf (head : Nat) (lines : List Byte) : Parcel :=
  let f (lo w : Nat) : Nat := bitsAt head lo w
  let c := f 18 4
  let isRsp : Bool := carriesRsp c
  let opc := if isRsp then opcOfRsp c else opcOf c
  let bytes := sliceBytes lines (f 36 48 % 64) (f 84 8 + 1)
  let p : Pkt :=
    { opc, atype := atypeOf (f 92 4), init := BitVec.ofNat 12 (f 2 12), plot := Fin.ofNat 16 (f 14 4), pri := BitVec.ofNat 2 (f 0 2),
      tag := BitVec.ofNat 10 (f 22 10), gen := BitVec.ofNat 2 (f 32 2), addr := BitVec.ofNat 48 (f 36 48), len := BitVec.ofNat 2 (f 34 2),
      bcnt := BitVec.ofNat 8 (f 84 8), stamp := BitVec.ofNat 8 (f 104 8), dbg := bitAt head 112,
      data := if !isRsp && carriesData opc then bytes else [], opA := if isRsp then 0 else BitVec.ofNat 64 (f 128 64),
      opB := if isRsp then 0 else BitVec.ofNat 64 (f 192 64) }
  if isRsp then
    .rsp { req := p, rcode := BitVec.ofNat 8 (f 96 8),
           data := if f 96 8 ≠ 0 ∧ f 96 8 ≠ 1 then [] else if opc = .read then bytes
             else if opc = .atomic ∧ p.atype ≠ .xstore then leBytes (f 84 8 + 1) (f 128 64) else [] }
  else .req p

/-! ## Units (R344) -/

/-- A unit header. -/
def unitHead (kind cls last credit : Nat) : List Byte := leBytes 2 (kind + place cls 2 + place last 3 + place credit 4)

/-- The units of one packet, in order. -/
def Parcel.units (x : Parcel) : List Byte :=
  let cls := if x.isRsp then 1 else 0
  let n := x.dataFlits
  unitHead 1 cls (if n = 0 then 1 else 0) 0 ++ leBytes 32 x.head
    ++ (List.range n).flatMap fun i => unitHead 2 cls (if i + 1 = n then 1 else 0) 0 ++ sliceBytes x.lines (64 * i) 64

/-- What the bytes of a packet strand hold next. -/
inductive UnitRead where
  | wait
  | pad
  | head (flit : List Byte) (last : Bool) (rest : List Byte)
  | data (flit : List Byte) (last : Bool) (rest : List Byte)
  | credit (cls n : Nat) (rest : List Byte)

def readUnit (bs : List Byte) : UnitRead :=
  if bs.length < 2 then .wait else
  let h := leAt bs 0 2
  let rest := bs.drop 2
  match bitsAt h 0 2 with
  | 0 => .pad
  | 1 => if rest.length < 32 then .wait else .head (rest.take 32) (bitAt h 3) (rest.drop 32)
  | 2 => if rest.length < 64 then .wait else .data (rest.take 64) (bitAt h 3) (rest.drop 64)
  | _ => .credit (bitsAt h 2 1) (bitsAt h 4 12) rest

end Sys2Proof
end

