-- ==== Sys2Proof/Machine/Stops.lean ====
section
/-! DEFINITION. The stops of the rings, the ring, direction and hops of a packet, and its way over bridges (R230 to R237). -/
namespace Sys2Proof.Machine
open Sys2Proof

/-! ## Stops (R231, R232) -/

/-- A stop of a compute die: beds by row and column, cores and port engines by local index. -/
inductive DieStop where
  | hubBridge
  | bed (row col : Nat)
  | core (n : Nat)
  | westBridge
  | engine (n : Nat)
  | csr
  | eastBridge
  deriving DecidableEq, Repr

def bedStops (row : Nat) (cols : List Nat) : List DieStop := cols.map (.bed row)
def coreStops (ns : List Nat) : List DieStop := ns.map .core

/-- The 76 stops of a compute die, by position. -/
def dieStops : List DieStop :=
  [.hubBridge]
    ++ bedStops 0 [3, 2, 1, 0] ++ bedStops 1 [0, 1, 2, 3] ++ coreStops [3, 2, 1, 0] ++ bedStops 2 [0, 1, 2, 3] ++ bedStops 3 [3, 2, 1, 0]
    ++ coreStops [8, 9, 10, 11] ++ bedStops 4 [3, 2, 1, 0] ++ [.westBridge] ++ bedStops 5 [0, 1, 2, 3]
    ++ [.engine 0, .engine 1, .engine 2, .engine 3, .csr, .engine 4, .engine 5, .engine 6, .engine 7]
    ++ bedStops 5 [4, 5, 6, 7] ++ [.eastBridge] ++ bedStops 4 [7, 6, 5, 4] ++ coreStops [12, 13, 14, 15] ++ bedStops 3 [7, 6, 5, 4]
    ++ bedStops 2 [4, 5, 6, 7] ++ coreStops [7, 6, 5, 4] ++ bedStops 1 [4, 5, 6, 7] ++ bedStops 0 [7, 6, 5, 4]

/-- A stop of the spine. -/
inductive HubStop where
  | mw | dbg | cfg | hl (n : Nat) | cmd | hub | trl | cxl | me | tim | enc | flt | alm | d2d | sec
  deriving DecidableEq, Repr

/-- The 22 spine stops, by position. -/
def hubStops : List HubStop :=
  [.mw, .dbg, .cfg, .hl 0, .cmd, .hl 1, .hub, .hl 2, .trl, .hl 3, .cxl, .me, .tim, .hl 7, .enc, .hl 6, .flt, .alm, .d2d, .hl 5, .sec, .hl 4]

def diePos (x : DieStop) : Nat := dieStops.idxOf x
def hubPos (x : HubStop) : Nat := hubStops.idxOf x

/-- A site of the network as a number: compute die 0 to 7, or the spine 8. -/
def siteNo : Site → Nat
  | .die d => d.val
  | .hub => 8
def siteAt (n : Nat) : Site := if h : n < 8 then .die ⟨n, h⟩ else .hub

/-- Stops on each ring of a site. -/
def ringLen (site : Nat) : Nat := if site < 8 then 76 else 22

/-- The stop of an initiator (R231, R232). -/
def initStop (i : InitId) : Nat :=
  match initKind i with
  | .bed b => diePos (.bed (b % 48 / 8) (b % 8))
  | .ls c | .dma c _ => diePos (.core (c % 16))
  | .engine e => diePos (.engine (e % 8))
  | .command => hubPos .cmd
  | .warden => hubPos .sec
  | .loader => hubPos .cfg
  | .island => hubPos .dbg
  | .tiller _ => hubPos .enc
  | .cxl _ => hubPos .cxl
  | .none => hubPos .hub

/-- The stop at which LPDDR6 channel `ch` is served. -/
def chanStop (ch : Nat) : Nat := hubPos (if ch < 12 then .mw else .me)

/-- The stop at which an address is served. One that no resource answers is answered at MW in the LPDDR6 range, else at the stop of the
HUB CSRs. DESIGN CHOICE (log 131). -/
def targetStop (s : Device) (a : Nat) : Nat :=
  if a < 0x00C000000000 then
    match memWindow s a with
    | some w => chanStop (w.map (a / 64 * 64)).1
    | none => hubPos .mw
  else if 0x100000000000 ≤ a ∧ a < 0x200000000000 then hubPos .cxl
  else if 0xE00000000000 ≤ a ∧ a < 0xE00000000000 + 384 * 2 ^ 32 then
    let b := (a - 0xE00000000000) / 2 ^ 32
    diePos (.bed (b % 48 / 8) (b % 8))
  else if 0xF00000000000 ≤ a ∧ a < 0xF00000000000 + 128 * 2 ^ 24 then diePos (.core ((a - 0xF00000000000) / 2 ^ 24 % 16))
  else if 0xFFF001000000 ≤ a ∧ a < 0xFFF009000000 then diePos .csr
  else
    let o := a - 0xFFF000000000
    if a < 0xFFF000000000 then hubPos .hub
    else if o < 0x80000 then
      hubPos (match o / 0x10000 with
        | 1 => .cmd | 2 => .cfg | 3 => .sec | 4 => .alm | 5 => .flt | 6 => .tim | 7 => .dbg | _ => .hub)
    else if 0x100000 ≤ o ∧ o < 0x118000 then chanStop ((o - 0x100000) / 0x1000)
    else if 0x200000 ≤ o ∧ o < 0x300000 then hubPos .enc
    else if 0x300000 ≤ o ∧ o < 0x400000 then hubPos .trl
    else if 0x400000 ≤ o ∧ o < 0x500000 then hubPos .d2d
    else if 0x500000 ≤ o ∧ o < 0x600000 then hubPos .cxl
    else hubPos .hub

/-! ## Rings and hops (R233) -/

/-- Hops clockwise from one position to another. -/
def clockwise (site s t : Nat) : Nat := (t + ringLen site - s) % ringLen site

/-- The ring of a packet with this address: its pair * 2, and 1 more for the counter-clockwise ring. -/
def ringFor (site a s t : Nat) : Nat :=
  (if site < 8 then bitsAt a 6 1 else bitsAt a 6 2) * 2 + (if 2 * clockwise site s t ≤ ringLen site then 0 else 1)

/-- The hops that the packet travels. -/
def hopCount (site s t : Nat) : Nat := Nat.min (clockwise site s t) (ringLen site - clockwise site s t)

/-- The position that a ring moves a slot to. -/
def nextPos (site ring p : Nat) : Nat := if ring % 2 = 0 then (p + 1) % ringLen site else (p + ringLen site - 1) % ringLen site

/-! ## Bridges (R236) -/

/-- The stop of a site at which a packet for another site leaves it; none where no route exists. -/
def bridgeFor (s : Device) (site dst : Nat) : Option Nat :=
  let via (n : Nat) (stop : Nat) : Option Nat := if nlUp s site n && hlUp s n then some stop else none
  if site < 8 then
    if dst < 8 ∧ nlUp s site dst then some (diePos (if dst < site then .westBridge else .eastBridge))
    else if hlUp s site then some (diePos .hubBridge)
    else if 0 < site ∧ (via (site - 1) 0).isSome then via (site - 1) (diePos .westBridge)
    else via (site + 1) (diePos .eastBridge)
  else
    let down (n : Nat) : Bool := hlUp s n && nlUp s n dst
    if hlUp s dst then some (hubPos (.hl dst))
    else if 0 < dst ∧ down (dst - 1) then some (hubPos (.hl (dst - 1)))
    else if down (dst + 1) then some (hubPos (.hl (dst + 1)))
    else none

/-- The bridge that answers where no route exists: the hub bridge of a die, or the spine's end of the target's hub link.
DESIGN CHOICE (log 131). -/
def deadEnd (site dst : Nat) : Nat := if site < 8 then diePos .hubBridge else hubPos (.hl dst)

/-- The link and direction that a bridge sends over. -/
def bridgeLink (site stop : Nat) : Option (Nat × Nat) :=
  if site < 8 then
    if stop = diePos .hubBridge then some (site, 0)
    else if stop = diePos .westBridge then (if site = 0 then none else (nlLink (site - 1) site).map fun l => (l, 1))
    else if stop = diePos .eastBridge then (nlLink site (site + 1)).map fun l => (l, 0)
    else none
  else match hubStops.getD stop .hub with
    | .hl n => some (n, 1)
    | _ => none

/-- The site and stop of the bridge at which a direction of a link arrives. -/
def farBridge (l d : Nat) : Nat × Nat :=
  if l < 8 then (if d = 0 then (8, hubPos (.hl l)) else (l, diePos .hubBridge))
  else
    let w := westDie l
    if d = 0 then (w + 1, diePos .westBridge) else (w, diePos .eastBridge)

/-! ## Legs -/

/-- The site and stop that a packet is bound for. -/
def boundFor (s : Device) : Parcel → Nat × Nat
  | .req p => (siteNo (targetSite p.addr.toNat), targetStop s p.addr.toNat)
  | .rsp r => (siteNo (initSite r.req.init), initStop r.req.init)

/-- The site and stop at which a packet enters the network. -/
def boundFrom (s : Device) : Parcel → Nat × Nat
  | .req p => (siteNo (initSite p.init), initStop p.init)
  | .rsp r => (siteNo (targetSite r.req.addr.toNat), targetStop s r.req.addr.toNat)

/-- The leg of a packet that waits at a stop: towards its destination, or towards a bridge (R236). -/
def newLeg (s : Device) (cycle : Nat) (x : Parcel) (site stop : Nat) (src : Option Nat) : Leg :=
  let to' := boundFor s x
  let final := decide (to'.1 = site)
  let dst := if final then to'.2 else (bridgeFor s site to'.1).getD (deadEnd site to'.1)
  { id := s.trl.serial, body := x, site, stop, dst, ring := ringFor site x.pkt.addr.toNat stop dst, final, stage := .queue, since := cycle,
    head := none, sent := 0, got := 0, src }

def addLeg (g : Leg) (s : Device) : Device :=
  { s with trl := { s.trl with legs := s.trl.legs ++ [g], serial := s.trl.serial + 1 } }

/-- Ring cycles of 2.0 GHz that have passed since start (R230). -/
def ringCycles (ticks : Nat) : Nat := ticks * 5 / 2

/-- A packet comes to a stop's queue: it is in the network, and stands there. -/
def enterAt (x : Parcel) (site stop : Nat) (src : Option Nat) (s : Device) : Device :=
  let s := addLeg (newLeg s (ringCycles s.time.ticks) x site stop src) s
  match x with
  | .req p => { s with trl := { s.trl with net := s.trl.net ++ [p] } }
  | .rsp r => { s with trl := { s.trl with rsps := s.trl.rsps ++ [r] } }

/-- A packet leaves the network. -/
def leaveNet (x : Parcel) (s : Device) : Device :=
  match x with
  | .req p => { s with trl := { s.trl with net := s.trl.net.erase p } }
  | .rsp r => { s with trl := { s.trl with rsps := s.trl.rsps.erase r } }

def setLeg (g : Leg) (s : Device) : Device :=
  { s with trl := { s.trl with legs := s.trl.legs.map fun h => if h.id = g.id then g else h } }
def dropLeg (id : Nat) (s : Device) : Device := { s with trl := { s.trl with legs := s.trl.legs.filter fun h => h.id ≠ id } }

/-- No route exists at a bridge: a request is answered there with NO_ROUTE, a posted write is discarded with a C0 note (R236). -/
def noRouteAt (site stop : Nat) (p : Pkt) (s : Device) : Device :=
  if p.opc = .pwrite then failReq p rcNoRoute s
  else enterAt (.rsp { req := p, rcode := rcNoRoute, data := [] }) site stop none s

/-- Where on its way a request finds no route: at its own site, or on the spine. -/
def stuckAt (s : Device) (p : Pkt) : Nat × Nat :=
  let src := siteNo (initSite p.init)
  let dst := siteNo (targetSite p.addr.toNat)
  if src < 8 ∧ (bridgeFor s src dst).isNone then (src, deadEnd src dst) else (8, deadEnd 8 dst)

/-- The site at which a response stands: that of its leg, else its target's. -/
def rspSite (s : Device) (r : Rsp) : Site :=
  match s.trl.legs.find? fun g => g.body = .rsp r with
  | some g => siteAt g.site
  | none => targetSite r.req.addr.toNat

end Sys2Proof.Machine
end

