-- ==== Sys2Proof/Machine/Wire.lean ====
section
/-! DEFINITION. What crosses the die links: slots of border channels on fabric strands (R126 to R130), units of packets on packet
strands (R237, R344), and the frames that carry them (R339, R340). -/
namespace Sys2Proof.Machine
open Sys2Proof

/-! ## Strands for channels (R128, R129) -/

def fabStrands (l : Nat) (x : Link) (d : Nat) : List Nat := (workList l x d).take (fabCount l x d)
def pktStrands (l : Nat) (x : Link) (d : Nat) : List Nat := (workList l x d).drop (fabCount l x d)

/-- The fabric strand that a channel is assigned to in a direction. -/
def homeOf (l : Nat) (x : Link) (d w : Nat) : Option Nat := (fabStrands l x d).find? fun n => ((x.strand d n).localOf w).isSome

/-- The lowest strand-local index that a strand has free. -/
def freeLocal (t : Strand) : Option Nat := (List.range 0xFE).find? fun i => !t.smap.any fun e => e.1 = i

/-- Assigns a channel to the fabric strand of a direction that has the fewest channels, the lowest on a tie. DESIGN CHOICE (log 132). -/
def assignChan (l d w : Nat) (x : Link) : Link :=
  if (homeOf l x d w).isSome then x else
  let best := (fabStrands l x d).foldl (fun (m : Option Nat) n => match m with
    | none => some n
    | some k => if (x.strand d n).smap.length < (x.strand d k).smap.length then some n else some k) none
  match best with
  | none => x
  | some n =>
    let t := x.strand d n
    match freeLocal t with
    | none => x
    | some i => x.setStrand d n { t with smap := t.smap ++ [(i, w)] }

/-- A payload that a strand still owes carries a slot of the channel. -/
def owes (x : Link) (d w n : Nat) : Bool := ((x.strand d n).buf.map (·.load) ++ (x.strand d n).todo).any (x.carries d w)

/-- A channel whose configuration no longer stands leaves the records of a direction, once no slot of it is on its way. -/
def unassignChan (l d w : Nat) (x : Link) : Link :=
  (List.range (strandCount l)).foldl (fun x n =>
    if (List.range (strandCount l)).any (owes x d w) then x
    else x.setStrand d n { x.strand d n with smap := (x.strand d n).smap.filter (·.2 ≠ w) }) x

/-- At the commit of a bed its channels across dies take their strands, and the hub learns its pairings (R128, R129). -/
def commitStrands (n : Nat) (s : Device) (k : Nat) : Device :=
  let cfg := (chan (bedAt s n) k).cfg
  match linkOf n (k / 64) (k % 64) with
  | none => s
  | some (l, d, w) =>
    let s := if l < 8 then
        let p := chPDie cfg * 512 + chPCol cfg * 64 + chPCh cfg
        { s with d2d := { s.d2d with pairs := s.d2d.pairs.set 0 (hubKey n (k % 64)) (if chKind cfg = 0 then 0 else p + 1) } }
      else s
    if chKind cfg = 1 ∨ chKind cfg = 3 then
      (hops s n (k / 64) (k % 64)).foldl (fun s h => modLink h.1 (assignChan h.1 h.2.1 h.2.2) s) s
    else modLink l (unassignChan l d w) s

/-! ## Slots (R126, R127) -/

/-- Every link of the path carries frames and has a fabric strand in the direction of the channel. -/
def pathUp (s : Device) (hs : List (Nat × Nat × Nat)) : Bool :=
  !hs.isEmpty && hs.all fun h => (linkAt s h.1).mode = .up && decide (0 < fabCount h.1 (linkAt s h.1) h.2.1)

/-- A channel end has a token or a level update that may leave for its partner. A token toward a partner in service to which the
channel is not joined waits (R117, R120). -/
def slotReady (s : Device) (b k : Nat) : Bool :=
  let c := chan (bedAt s b) k
  let apart := !joined s b (k / 64) (k % 64) &&
    (match partner s b (k / 64) (k % 64) with | some e => endInService s e | none => true)
  pathUp s (hops s b (k / 64) (k % 64)) &&
    (if chKind c.cfg = 1 then !c.tx.isEmpty && !apart else chKind c.cfg = 3 && !c.levels.isEmpty)

/-- Link-wide indices of the channels with a slot to send over a direction of a link. -/
def slotsWaiting (s : Device) (l d : Nat) : List Nat :=
  if l < 8 ∧ d = 1 then ((linkAt s l).stage.map (·.1)).eraseDups
  else (chanEnds s).filterMap fun e =>
    match linkOf e.1 (e.2 / 64) (e.2 % 64) with
    | some (l', d', w) => if l' = l ∧ d' = d ∧ slotReady s e.1 e.2 then some w else none
    | none => none

/-- Takes the next value of a channel for a slot. -/
def takeSlot (l d w : Nat) (s : Device) : Option (Word32 × Device) :=
  match sourceEnd l d w with
  | none =>
    match (linkAt s l).stage.find? fun e => e.1 = w with
    | none => none
    | some e => some (e.2, modLink l (fun x => { x with stage := x.stage.erase e }) s)
  | some e =>
    let c := chan (bedAt s e.bed.val) (endKey e)
    if chKind c.cfg = 1 then
      match c.tx with
      | [] => none
      | t :: rest =>
        some (t.val.setWidth 32, tryComplete e.bed.val (modBed e.bed.val (setChan (endKey e) { c with tx := rest, flight := c.flight ++ [t] }) s))
    else
      match c.levels with
      | [] => none
      | v :: rest => some (v.1, modBed e.bed.val (setChan (endKey e) { c with levels := rest, lvlFly := c.lvlFly ++ [v] }) s)

/-- Credit returns that wait to leave over a direction of a link: link-wide index, count, and the sender whose credits they are where
the direction starts at a receiving bed. -/
def creditsWaiting (s : Device) (l d : Nat) : List (Nat × Nat × Option (Nat × Nat)) :=
  if l < 8 ∧ d = 1 then (linkAt s l).hubCred.map fun e => (e.1, Nat.min e.2 127, none)
  else (chanEnds s).filterMap fun e =>
    let c := chan (bedAt s e.1) e.2
    if c.credBack = 0 then none else
    match farEnd s e.1 (e.2 / 64) (e.2 % 64) with
    | none => none
    | some r => match linkOf r.bed.val r.side.val r.ch.val with
      | some (l', d', w) => if l' = l ∧ d' = d then some (w, Nat.min c.credBack 127, some e) else none
      | none => none

/-- A credit return is placed in a slot. -/
def takeCredit (l : Nat) (s : Device) (x : Nat × Nat × Option (Nat × Nat)) : Device :=
  match x.2.2 with
  | some e => modBed e.1 (modChan e.2 fun c => { c with credBack := c.credBack - x.2.1 }) s
  | none => modLink l (fun y => { y with hubCred := (y.hubCred.map fun e => if e.1 = x.1 then (e.1, e.2 - x.2.1) else e).filter (·.2 ≠ 0) }) s

/-- The channel of a strand that takes the next slot: round robin among those with something waiting, none of whose earlier slots is
still owed on another strand (R128, R130). -/
def nextSlot (l d n : Nat) (s : Device) : Option Nat :=
  let x := linkAt s l
  let ws := (slotsWaiting s l d).filter fun w =>
    homeOf l x d w = some n && !(List.range (strandCount l)).any fun k => k ≠ n && owes x d w k
  let least (ys : List Nat) : Option Nat := ys.foldl (fun m y => match m with | none => some y | some z => some (Nat.min y z)) none
  match least (ws.filter fun w => (x.strand d n).served < w) with
  | some w => some w
  | none => least ws

def fillSlots (l d n : Nat) : Nat → List (Nat × Word32) → Device → List (Nat × Word32) × Device
  | 0, xs, s => (xs, s)
  | f + 1, xs, s =>
    match nextSlot l d n s with
    | none => (xs, s)
    | some w =>
      match takeSlot l d w s, ((linkAt s l).strand d n).localOf w with
      | some (v, s), some i =>
        fillSlots l d n f (xs ++ [(i, v)]) (modLink l (fun x => x.setStrand d n { x.strand d n with served := w }) s)
      | _, _ => (xs, s)

/-- The payload of a fabric strand's next frame: at most one credit slot, then token and level slots, then empty ones (R126, R343). -/
def fabLoad (l d n : Nat) (s : Device) : Load × Device :=
  let s := modLink l (fun x => (slotsWaiting s l d).foldl (fun x w => assignChan l d w x) x) s
  let cs := (creditsWaiting s l d).take 2
  let word (i : Nat) : Nat := match cs[i]? with | some c => c.1 + place c.2.1 9 | none => 0
  let first : List (Nat × Word32) := if cs.isEmpty then [] else [(0xFE, BitVec.ofNat 32 (word 0 + place (word 1) 16))]
  let s := cs.foldl (takeCredit l) s
  let (xs, s) := fillSlots l d n (6 - first.length) first s
  ({ stream := n, fab := true, bits := slotBits xs }, s)

/-- A token's slot reaches its receiver: the oldest token on its way. One that its receiver no longer admits enters the FIFO of the end it
was captured for, which holds an entry for each credit. -/
def landToken (e : BedEnd) (v : Word32) (s : Device) : Device :=
  let n := e.bed.val
  let k := endKey e
  match (chan (bedAt s n) k).flight with
  | [] => s
  | t :: rest =>
    let t := { t with val := v.setWidth 128 }
    let s := modBed n (modChan k fun c => { c with flight := rest }) s
    match deliverTo s n k t with
    | some s => s
    | none =>
      match t.dest with
      | some (.bed r) => tryComplete r.bed.val (modBed r.bed.val (modChan (endKey r) fun c => { c with fifo := c.fifo ++ [t.val] }) s)
      | _ => s

/-- A level's slot reaches its receiver. A void one is ignored, and one that meets an end no longer joined waits with its sender. -/
def landLevel (e : BedEnd) (v : Word32) (s : Device) : Device :=
  let n := e.bed.val
  let k := endKey e
  match (chan (bedAt s n) k).lvlFly with
  | [] => s
  | x :: rest =>
    let s := modBed n (modChan k fun c => { c with lvlFly := rest }) s
    match levelTaken s e x.2 with
    | some d => receiveLevel e d v s
    | none => if x.2.isSome then modBed n (modChan k fun c => { c with levels := if c.levels.isEmpty then [x] else c.levels }) s else s

def landCredit (l d : Nat) (s : Device) (x : Nat × Nat) : Device :=
  if x.2 = 0 then s
  else if l < 8 ∧ d = 0 then
    match hubPartner s (l * 512 + x.1) with
    | none => s
    | some k => modLink (k / 512) (fun y =>
        { y with hubCred := if y.hubCred.any (·.1 = k % 512) then y.hubCred.map (fun e => if e.1 = k % 512 then (e.1, e.2 + x.2) else e)
                            else y.hubCred ++ [(k % 512, x.2)] }) s
  else match destEnd l d x.1 with
    | some e => tryComplete e.bed.val (modBed e.bed.val (modChan (endKey e) fun c => { c with credits := Nat.min 64 (c.credits + x.2) }) s)
    | none => s

/-- One slot of a payload arrives at the end of a direction (R126, R129). -/
def landSlot (l d stream : Nat) (s : Device) (x : Nat × Word32) : Device :=
  if x.1 = 0xFF then s
  else if x.1 = 0xFE then
    let w := x.2.toNat
    landCredit l d (landCredit l d s (bitsAt w 0 9, bitsAt w 9 7)) (bitsAt w 16 9, bitsAt w 25 7)
  else match ((linkAt s l).strand d stream).wideOf x.1 with
    | none => s
    | some w =>
      if l < 8 ∧ d = 0 then
        match hubPartner s (l * 512 + w) with
        | none => s
        | some k => modLink (k / 512) (fun y => { y with stage := y.stage ++ [(k % 512, x.2)] }) s
      else match destEnd l d w with
        | none => s
        | some e => match farEnd s e.bed.val e.side.val e.ch.val with
          | none => s
          | some src => if chKind (chan (bedAt s src.bed.val) (endKey src)).cfg = 3 then landLevel src x.2 s else landToken src x.2 s

/-! ## Packets (R237, R344) -/

def credKey (d cls : Nat) : Nat := d * 2 + cls
def flitCredits (x : Link) (d cls : Nat) : Nat := x.credits.getD (credKey d cls) 0
def parcelCls (x : Parcel) : Nat := if x.isRsp then 1 else 0

/-- The packet strand with the fewest bytes queued, the lowest on a tie. -/
def emptiestStrand (l d : Nat) (x : Link) : Option Nat :=
  (pktStrands l x d).foldl (fun (m : Option Nat) n => match m with
    | none => some n
    | some k => if (x.strand d n).txq.length < (x.strand d k).txq.length then some n else some k) none

/-- The oldest packet of a class that waits at a bridge takes a strand, if the flit credits cover it. -/
def sendFirst (l d cls : Nat) (s : Device) : Option Device :=
  let x := linkAt s l
  match s.trl.legs.find? (fun g => g.stage = .bridge l d && parcelCls g.body = cls), emptiestStrand l d x with
  | some g, some n =>
    if x.mode = .up ∧ g.body.flits ≤ flitCredits x d cls then
      let t := x.strand d n
      let x := { x.setStrand d n { t with txq := t.txq ++ g.body.units } with
                 credits := x.credits.modify (credKey d cls) (· - g.body.flits) }
      some (setLink l x (dropLeg g.id (leaveNet g.body s)))
    else none
  | _, _ => none

def sendAll (l d cls : Nat) : Nat → Device → Device
  | 0, s => s
  | f + 1, s => match sendFirst l d cls s with
    | some s => sendAll l d cls f s
    | none => s

/-- The packets that wait at a bridge cross as far as credits allow; responses are not held behind requests (R237). -/
def fillStrands (l d : Nat) (s : Device) : Device := sendAll l d 0 s.trl.legs.length (sendAll l d 1 s.trl.legs.length s)

/-- Flit buffers that a packet held at the bridge it came over are free again. -/
def freeFlits (src : Option Nat) (cls n : Nat) (s : Device) : Device :=
  match src with
  | none => s
  | some k => modLink (k / 2) (fun x => { x with freed := x.freed.modify (credKey (k % 2) cls) (· + n) }) s

/-- The payload of a packet strand's next frame: the returns that are due, the units that wait, and a pad. -/
def pktLoad (l d n : Nat) (s : Device) : Load × Device :=
  let x := linkAt s l
  let t := x.strand d n
  let ret (cls : Nat) : List Byte :=
    let k := Nat.min (x.freed.getD (credKey (1 - d) cls) 0) 0xFFF
    if k = 0 then [] else unitHead 3 cls 0 k
  let q := t.txq ++ ret 0 ++ ret 1
  let x := x.setStrand d n { t with txq := q.drop 30 }
  let x := { x with freed := [0, 1].foldl (fun f cls => f.modify (credKey (1 - d) cls) (· - 0xFFF)) x.freed }
  ({ stream := n, fab := false, bits := BitVec.ofNat 240 (ofLe (sliceBytes q 0 30)) }, setLink l x s)

/-- A whole packet has come over a link and waits at the bridge it reaches; a dead one is discarded (R248). -/
def landParcel (l d : Nat) (x : Parcel) (s : Device) : Device :=
  if tooOld s x.pkt then freeFlits (some (l * 2 + d)) (parcelCls x) x.flits s
  else
    let at' := farBridge l d
    enterAt x at'.1 at'.2 (some (l * 2 + d)) s

/-- The units that have come whole on a packet strand. -/
def landUnits (l d stream : Nat) : Nat → Device → Device
  | 0, s => s
  | f + 1, s =>
    let x := linkAt s l
    let t := x.strand d stream
    let put (u : Strand) : Device := setLink l (x.setStrand d stream u) s
    match readUnit t.rxq with
    | .wait => s
    | .pad => put { t with rxq := [] }
    | .head flit last rest =>
      if last then landUnits l d stream f (landParcel l d (parcelOf (ofLe flit) []) (put { t with rxq := rest, rxHead := [], rxData := [] }))
      else landUnits l d stream f (put { t with rxq := rest, rxHead := flit, rxData := [] })
    | .data flit last rest =>
      if last then
        landUnits l d stream f (landParcel l d (parcelOf (ofLe t.rxHead) (t.rxData ++ flit)) (put { t with rxq := rest, rxHead := [], rxData := [] }))
      else landUnits l d stream f (put { t with rxq := rest, rxData := t.rxData ++ flit })
    | .credit cls n rest =>
      let y := x.setStrand d stream { t with rxq := rest }
      let y := { y with credits := y.credits.modify (credKey (1 - d) cls) fun v => Nat.min 256 (v + n) }
      landUnits l d stream f (fillStrands l (1 - d) (setLink l y s))

/-- The payload of a good frame is delivered. -/
def landLoad (l d : Nat) (p : Load) (s : Device) : Device :=
  if p.fab then (List.range 6).foldl (fun s k => landSlot l d p.stream s (slotAt p.bits k)) s
  else
    let s := modLink l (fun x => let t := x.strand d p.stream; x.setStrand d p.stream { t with rxq := t.rxq ++ leBytes 30 p.bits.toNat }) s
    landUnits l d p.stream 16 s

/-! ## Frames (R339, R340) -/

/-- The frame that a strand sends next: one that it resends, or a new one unless its replay buffer is full. A packet strand back in
service sends nothing while another strand still owes part of its byte stream (R347 step 2). -/
def nextFrame (l d n : Nat) (s : Device) : Option (Frame × Device) :=
  let x := linkAt s l
  let t := x.strand d n
  match t.resend with
  | q :: rest => (t.buf.find? fun f => f.seq = q).map fun f => (f, setLink l (x.setStrand d n { t with resend := rest }) s)
  | [] =>
    let ahead : Bool := (List.range (strandCount l)).any fun k => k ≠ n && ((x.strand d k).owed k).any fun p => !p.fab && p.stream = n
    if bufDepth s ≤ t.buf.length || (ahead && t.todo.isEmpty && !isFabStrand l x d n) then none else
    let (load, s) := match t.todo with
      | p :: rest => (p, setLink l (x.setStrand d n { t with todo := rest }) s)
      | [] => if isFabStrand l x d n then (if t.txq.isEmpty then fabLoad l d n s else pktLoad l d n s) else pktLoad l d n s
    let x := linkAt s l
    let t := x.strand d n
    let f : Frame := { seq := t.next, load, sent := devNs s, replays := 0 }
    some (f, setLink l (x.setStrand d n { t with next := t.next + 1, buf := t.buf ++ [f] }) s)

/-- Frame bits [255:0]: the payload and the CRC over it and SEQ (R336). -/
def frameBits (f : Frame) : BitVec 256 :=
  (crc16 (bitsOf 240 f.load.bits.toNat ++ bitsOf 8 f.seq.toNat)).setWidth 256 <<< 240 ||| f.load.bits.setWidth 256

/-- The receiver's side: a good frame in sequence is delivered, any other discarded with one NAK (R340). -/
def takeFrame (l d n : Nat) (frame : BitVec 256) (seq : Byte) (load : Load) (s : Device) : Device :=
  let x := linkAt s l
  let t := x.strand d n
  let ok := frameOk frame seq
  let x := if ok then x else { x with crcErr := satAdd 32 x.crcErr 1, period := x.period + 1 }
  if ok && decide (seq = t.expect) then
    let t := { t with expect := t.expect + 1, nak := false, unacked := t.unacked + 1, since := if t.unacked = 0 then devNs s else t.since }
    let x := x.setStrand d n t
    landLoad l d { load with bits := frame.extractLsb' 0 240 } (putLink l (if 8 ≤ t.unacked then sendAck d (n / 4) x else x) s)
  else if t.nak && decide (seq ≠ t.expect) then putLink l x s
  else putLink l (sbSend (1 - d) 2 n t.expect.toNat (x.setStrand d n { t with nak := true })) s

/-- FRAME_RECEIVED: the next frame of a strand crosses it, with the bits that its wires get wrong. DEDUCED (log 67). -/
def frameReceived (l d n : Nat) (flip : BitVec 256) (seqFlip : Byte) (s : Device) : Device :=
  let x := linkAt s l
  if x.mode ≠ .up || (x.strand d n).st ≠ .working then s else
  match nextFrame l d n s with
  | none => s
  | some (f, s) => takeFrame l d n (frameBits f ^^^ flip) (f.seq ^^^ seqFlip) f.load s

/-! ## Tokens, levels and credits as events (R124, R127, R130) -/

/-- A channel across dies can deliver: its own links are up with a fabric strand each way, or a route around a failed one exists. -/
def canCross (s : Device) (b side ch : Nat) : Bool :=
  let hs := hops s b side ch
  pathUp s hs ||
    (hs.any (fun h => (linkAt s h.1).mode = .failed) &&
      (match partner s b side ch with
        | some (.bed e) => (hubPath s (bedDie b)).isSome && (hubPath s (bedDie e.bed.val)).isSome
        | _ => false))

/-- The oldest captured token of a sending end reaches its receiver (R124). Across dies this is a token that no slot of a frame
carries. DEDUCED (log 31), DESIGN CHOICE (log 153). -/
def tokenArrival (src : ChanEnd) (s : Device) : Device :=
  match src with
  | .bed e =>
    let n := e.bed.val
    let k := endKey e
    let c := chan (bedAt s n) k
    if crossDie s n e.side.val e.ch.val && (!c.flight.isEmpty || !canCross s n e.side.val e.ch.val) then s
    else match c.tx with
      | [] => s
      | t :: rest => match deliverTo s n k t with
        | some s' => tryComplete n (modBed n (modChan k fun c => { c with tx := rest }) s')
        | none => s
  | .core c st =>
    let io := coreIoAt s c.val
    let (b, side, ch) := streamBed c.val st
    let q := match st with | .lOut => io.lOut | .uOut => io.uOut | _ => []
    match q with
    | [] => s
    | v :: rest =>
      let rb := bedAt s b
      let rc := chan rb (side * 64 + ch)
      if rc.fifo.length < 8 && (!rb.st.holdsConfig || joined s b side ch) then
        let io := match st with | .lOut => { io with lOut := rest } | _ => { io with uOut := rest }
        tryComplete b (setCoreIo c.val io (setBed b (setChan (side * 64 + ch) { rc with fifo := rc.fifo ++ [v] } rb) s))
      else s

/-- The oldest level update of a sending end is received in full (R113, R127). -/
def levelArrival (e : BedEnd) (s : Device) : Device :=
  let n := e.bed.val
  let c := chan (bedAt s n) (endKey e)
  if crossDie s n e.side.val e.ch.val && (!c.lvlFly.isEmpty || !canCross s n e.side.val e.ch.val) then s
  else match c.levels with
    | [] => s
    | (v, dest) :: rest =>
      match levelTaken s e dest with
      | some d => receiveLevel e d v (modBed n (setChan (endKey e) { c with levels := rest }) s)
      | none => if dest.isNone then modBed n (setChan (endKey e) { c with levels := rest }) s else s

/-- Credits that no slot carries reach the sender of a channel across dies (R127). -/
def creditReturn (e : BedEnd) (s : Device) : Device :=
  if canCross s e.bed.val e.side.val e.ch.val then
    tryComplete e.bed.val (modBed e.bed.val (modChan (endKey e) fun c =>
      { c with credits := c.credits + c.credBack, credBack := 0 }) s)
  else s

end Sys2Proof.Machine
end

