-- ==== Sys2Proof/Machine/CfgBeds.lean ====
section
/-! DEFINITION. Beds and cores under the configuration loader: fallow, commit, start, release and readback
(R89, R118, R121, R463, R464, R468, R473 to R478). -/
namespace Sys2Proof.Machine
open Sys2Proof


/-! ## Stopping and starting beds -/

/-- The loader writes EN of a bed's generator, MSPEC as it stands (R102). -/
def genEnable (en : Bool) (n : Nat) (s : Device) : Device :=
  let x := genShell s n
  let y := x.ctlWrite en x.mspec
  let y := { y with deferral := if en && (x.st = .stopping || (x.st = .starting && x.pendStop)) then some (bedOwner s n, loaderInit.toNat) else none }
  genSample n x (setShell (genId n) y s)

/-- A bed is made fallow, by command or by a policy action, and the loader clears its generator's EN
(R102, R473). DEDUCED (log 30). -/
def makeFallow (byPolicy : Bool) (n : Nat) (s : Device) : Device :=
  let mark (s : Device) : Device := modBed n (fun b => { b with byPolicy := b.byPolicy || byPolicy, rbHold := false }) s
  match (bedAt s n).st with
  | .running => mark (modBed n (fun b => { b with fallowDue := some byPolicy }) (genEnable false n s))
  | .waiting | .paused | .stopped | .committed => toFallow n (mark (genEnable false n s))
  | .cut => mark (modBed n (fun b => { b with st := .fallow }) (genEnable false n s))
  | .unconfigured | .fallow => s

/-- A bed out of service: it can be named by a commit (R462). -/
def outOfService (s : Device) (n : Nat) : Bool := (bedAt s n).st = .fallow || (bedAt s n).st = .unconfigured

/-- The retained configuration is discarded (R474). -/
def discardConfig (n : Nat) (s : Device) : Device :=
  modBed n (fun b => { b with frames := .empty, kept := false, digest := [] }) s

/-- The generators of committed beds are enabled (R464). -/
def startBeds (ns : List Nat) (s : Device) : Device :=
  ns.foldl (fun s n => if (bedAt s n).st = .committed then genEnable true n s else s) s

/-- EN of a core is set by the start of a commit (R450, R464). -/
def enableCore (s : Device) (c : Nat) : Device :=
  let x := coreAt s c
  setCore c { x.ctlWrite true with deferral := if x.defers then some (coreOwner s c, loaderInit.toNat) else x.deferral } s

/-! ## Checks onto the state that a commit would leave (R89, R118) -/

/-- The configuration that a section gives a bed: its frames, laid over the retained ones under MERGE (R449). -/
def newFrames (s : Device) (n : Nat) (merge : Bool) (fs : List FrameRec) : Sparse (List Byte) :=
  overlay fs (if merge && (bedAt s n).kept then (bedAt s n).frames else .empty)

def loadChans (m : Sparse (List Byte)) (b : Bed) : Bed :=
  { b with border := { b.border with chans := (List.range 256).foldl (fun t k =>
      t.modify ChanSt.reset k fun c => { c with cfg := chCfgIn m k }) b.border.chans } }

/-- The state with these configurations committed, as far as joins and line drivers depend on it. -/
def asCommitted (ts : List (Nat × Sparse (List Byte))) (s : Device) : Device :=
  ts.foldl (fun s t => modBed t.1 (fun b => { loadChans t.2 { b with cfg := parseBed t.2, tapsOff := [] } with st := .committed }) s) s

/-- Two taps of one line share a phase (R89). -/
def driverClash (s : Device) (n : Nat) : Bool :=
  let b := bedAt s n
  (List.range b.cfg.fold).any fun k => !(contended b k).isEmpty

def samePlot (s : Device) (a b : Nat) (ca cb : Word32) : Bool := bedOwner s a = bedOwner s b || (chShared ca && chShared cb)
def outgoing (k : Nat) : Bool := k = 1 || k = 3
def isToken (k : Nat) : Bool := k = 1 || k = 2

def hubEnd (n side : Nat) : Bool := bedRow n = 0 && side = hubSide (bedDie n)

/-- The partner end of a channel that is configured and for which the plot condition holds. -/
def checkedEnd (s : Device) (n k : Nat) : Option (BedEnd × Word32) :=
  match partner s n (k / 64) (k % 64) with
  | some (.bed e) =>
    let o := (chan (bedAt s e.bed.val) (endKey e)).cfg
    if (bedAt s e.bed.val).st.holdsConfig && samePlot s n e.bed.val (chan (bedAt s n) k).cfg o then some (e, o) else none
  | _ => none

/-- Both ends of a channel are outgoing (R118). -/
def bothOut (s : Device) (n k : Nat) : Bool :=
  match checkedEnd s n k with
  | some (_, o) => outgoing (chKind (chan (bedAt s n) k).cfg) && outgoing (chKind o)
  | none => false

/-- One end token and the other level; a hub-facing end that names its own die, or a partner that names another channel. -/
def misNamed (s : Device) (n k : Nat) : Bool :=
  let c := (chan (bedAt s n) k).cfg
  let hub := hubEnd n (k / 64)
  (hub && chKind c ≠ 0 && decide (chPDie c = bedDie n)) || (match checkedEnd s n k with
    | some (e, o) =>
      (chKind c ≠ 0 && chKind o ≠ 0 && isToken (chKind c) ≠ isToken (chKind o))
        || (hub && chKind c ≠ 0 && chKind o ≠ 0
              && decide (partner s e.bed.val e.side.val e.ch.val ≠ some (.bed (mkEnd n (k / 64) (k % 64)))))
    | none => false)

/-- Members 56 to 59, or 60 to 63, of a stream that are neither all of their kind nor all UNUSED (R118). -/
def badStream (s : Device) (n k : Nat) : Bool :=
  (streamOf n (k / 64) (k % 64)).isSome && k % 4 = 0 &&
    (let kinds := (List.range 4).map fun i => chKind (chan (bedAt s n) (k + i)).cfg
     let want := if k % 64 < 60 then 1 else 2
     !(kinds.all (· = want) || kinds.all (· = 0)))

/-- The status that R89 or R118 gives the beds `ns` of a state as it would stand after the commit. -/
def borderCheck (s : Device) (ns : List Nat) : Option Nat :=
  let ks := List.range 256
  if ns.any (driverClash s) || ns.any (fun n => ks.any (bothOut s n)) then some stDriver
  else if ns.any (fun n => ks.any fun k => misNamed s n k || badStream s n k) then some stBadParam
  else none

/-! ## The commit point of a bed (R51, R121, R142, R463) -/

/-- The channels that the new configuration leaves a kept FIFO: TOKEN_IN with FLUSH = 0. -/
def keepsFifo (c : Word32) : Bool := chKind c = 2 && !chFlush c

def countDiscards (n k : Nat) (s : Device) : Device :=
  modBed n (fun b => { b with border := { b.border with discards := BitVec.ofNat 32 (satAdd 32 b.border.discards.toNat k) } }) s

/-- Tokens and level updates of one channel at a commit (R121, R127); a token discarded from the transmit buffer gives its credit
back. -/
def commitTokens (m : Sparse (List Byte)) (n : Nat) (s : Device) (k : Nat) : Device :=
  let c := chan (bedAt s n) k
  let back := if crossDie s n (k / 64) (k % 64) then Nat.min 64 (c.credits + c.tx.length) else c.credits
  let s := countDiscards n c.tx.length (modBed n (setChan k (voidLevels { c with tx := [], credits := back })) s)
  if keepsFifo (chCfgIn m k) then s
  else
    let s := countDiscards n c.fifo.length (modBed n (modChan k fun c => { c with fifo := [] }) s)
    if c.fifo.isEmpty then s else returnCredit s n k c.fifo.length

/-- One channel after its new CH_CFG is in force: credits toward a new partner, and the level that a receiver sees. -/
def commitChan (old : Word32) (n : Nat) (s : Device) (k : Nat) : Device :=
  let c := chan (bedAt s n) k
  let moved := old.extractLsb' 17 12 ≠ c.cfg.extractLsb' 17 12
  let s := modBed n (setChan k { c with arrive := 0, level := 0, rxLevel := none, rxLive := false }) s
  match partner s n (k / 64) (k % 64) with
  | some (.bed e) =>
    let o := chan (bedAt s e.bed.val) (endKey e)
    let s := if crossDie s n (k / 64) (k % 64) && moved then
        modBed n (modChan k fun c => { c with credits := 64 - o.fifo.length - c.flight.length, credBack := 0 }) s
      else s
    if chKind c.cfg = 3 then modBed e.bed.val (modChan (endKey e) fun r => { r with rxLive := false }) s
    else if chKind c.cfg = 4 ∧ joined s n (k / 64) (k % 64) ∧ (bedAt s e.bed.val).st.holdsConfig ∧ 0 < (bedAt s e.bed.val).cycle then
      modBed n (modChan k fun r => { r with rxLevel := some o.level, rxLive := true }) s
    else s
  | _ => s

/-- Every byte of a memory is written, with valid check bits (R142). -/
def fillMem (data : List Byte) (c : Coded) : Coded :=
  if c.dec.isEmpty then { Coded.filled with data := Sparse.writeBytes .empty 0 0 data }
  else c.writeBytes 0 (sliceBytes data 0 4096)

def commitMems (m : Sparse (List Byte)) (n : Nat) (s : Device) : Device :=
  (List.range 48).foldl (fun s i => setArray 0 (n * 48 + i) (fillMem (frameAt m 7 i) (arrayAt s 0 (n * 48 + i))) s) s

/-- Registers, cells and settings of a bed as its new configuration gives them. -/
def configured (m : Sparse (List Byte)) (b : Bed) : Bed :=
  let d := frameAt m 1 0
  let b := loadChans m b
  { b with
    st := .committed, cutFlag := false, cfg := parseBed m, cells := initialCells m, phase := 0, cycle := 0,
    rowCe := BitVec.ofNat 32 (leAt d 16 4), rowCeSrc := BitVec.ofNat 3 (leAt d 20 4), blines := List.replicate 8 0,
    tapsOff := [], contention := .reset, ports := .empty, bmStat := .empty, fallowDue := none, byPolicy := false, rbHold := false,
    frames := m, kept := true, digest := Config.sha384 (frameBytes m),
    clock := { b.clock with
      signedFreq := BitVec.ofNat 24 (leAt d 4 4), stretchCfg := BitVec.ofNat 32 (leAt d 8 4),
      lockCfg := BitVec.ofNat 32 (leAt d 12 4), stretchCount := 0, droopEvents := 0, throttle := 0, thrEff := 0,
      s := 0, sEdge := 0, flagged := false, run := false, clean := 0, atMax := 0, acc := 0, stopDue := false, pauseDue := false },
    border := { b.border with
      bound := none, alarmed := false, alarm := false, blk := none, waitCount := 0, sunk := [0, 0, 0, 0] } }

/-- A plot's mark of PLOT_FALLOW goes once none of its beds is still fallow by policy action (R505). -/
def relaxFallow (p : Nat) (s : Device) : Device :=
  if (plotSt s p).fallow && !(List.range 384).any (fun n => bedOwner s n = p && (bedAt s n).byPolicy) then
    setPlot p (fun x => { x with fallow := false }) s
  else s

/-- A bed takes its configuration; the loader sets CAL.CONT (R105, R463). -/
def commitBed (n : Nat) (m : Sparse (List Byte)) (s : Device) : Device :=
  let old := (bedAt s n).border.chans
  let s := (List.range 256).foldl (commitTokens m n) s
  let s := commitMems m n (modBed n (configured m) s)
  let x := genShell s n
  let s := setShell (genId n) { x.ctlWrite false (BitVec.ofNat 15 (leAt (frameAt m 1 0) 2 2 / 2)) with cont := true } s
  let s := (List.range 256).foldl (commitStrands n) s
  relaxFallow (bedOwner s n) (wakePartners n ((List.range 256).foldl (fun s k => commitChan (old.get ChanSt.reset k).cfg n s k) s))

/-! ## BED_FALLOW and BED_RELEASE -/

def rangeOf (pl : List Byte) : List Nat := (List.range (leAt pl 2 2)).map (· + leAt pl 0 2)
def badRange (pl : List Byte) : Bool := leAt pl 2 2 = 0 || decide (384 < leAt pl 0 2 + leAt pl 2 2)
def notOwner (c : Ctx) (s : Device) (ns : List Nat) : Bool := c.plot ≠ 0 && ns.any fun n => bedOwner s n ≠ c.plot

def opBedFallow : OpSpec where
  code := 0x0205
  plenOk := (· = 4)
  session := true
  early := false
  late := never
  refusal := fun c s =>
    let ns := rangeOf c.pl
    if badRange c.pl then some stBadParam
    else if notOwner c s ns then some stNotAuth
    else if heldByOther c (ns.map Obj.bed) s || ns.any (fun n => (bedAt s n).st = .committed) then some stBusy else none
  records := fun _ _ => 1
  run := fun c s =>
    let ns := rangeOf c.pl
    let s := cmdRecObj c 0x03 (leAt c.pl 0 2) s
    let s := ns.foldl (fun s n => makeFallow false n s) s
    if ns.all (outOfService s) then { st := s, reply := some (stOk, []) }
    else { st := defer c (ns.map Obj.bed) s, reply := none }

/-- Answers a BED_FALLOW whose beds are all out of service. -/
def settleFallow (s : Device) : Device :=
  (s.mgmt.progress.filter fun p => p.opcode = 0x0205).foldl (fun s p =>
    if (rangeOf p.pkt.payload).all (outOfService s) then finish p stOk [] s else s) s

def stillStopping (s : Device) (n : Nat) : Bool := (genShell s n).st = .stopping

/-- BED_RELEASE. DEDUCED (log 101). -/
def opBedRelease : OpSpec where
  code := 0x0206
  plenOk := (· = 4)
  session := true
  early := false
  late := never
  refusal := fun c s =>
    let ns := rangeOf c.pl
    if badRange c.pl then some stBadParam
    else if notOwner c s ns then some stNotAuth
    else if s.mgmt.dev ≠ .user then some stBusy
    else if ns.any (fun n => (bedAt s n).st ≠ .fallow || !(bedAt s n).kept) then some stBadParam
    else if c.plot ≠ 0 && ns.any (fun n => (bedAt s n).byPolicy) then some stNotAuth
    else if heldByOther c (ns.map Obj.bed) s then some stBusy
    else if ns.any (stillStopping s) then none
    else if ns.any (fun n => Config.sha384 (frameBytes (bedAt s n).frames) ≠ (bedAt s n).digest) then some stAuthFail
    else borderCheck (asCommitted (ns.map fun n => (n, (bedAt s n).frames)) s) ns
  records := fun _ _ => 1
  run := fun c s =>
    let ns := rangeOf c.pl
    let late := ns.any (stillStopping s)
    let (b, s) := freshDigest s
    let (a, s) := freshDigest s
    let s := cmdRecS c 0x03 (leAt c.pl 0 2) (if late then stDeferred else stOk) b a s
    let s := ns.foldl (fun s n => commitBed n (bedAt s n).frames s) s
    { st := startBeds ns s, reply := some (if late then stDeferred else stOk, []) }

/-! ## READBACK -/

def rbBed (pl : List Byte) : Nat := leAt pl 0 2
def rbFlags (pl : List Byte) : Nat := leAt pl 2 1
def rbDest (pl : List Byte) : Nat := leAt pl 4 8

/-- One memory's block of a dump: data, output registers, and the map of unreadable bytes (R478). DEDUCED (log 27). -/
def memDump (s : Device) (n m : Nat) : List Byte :=
  let b := bedAt s n
  let c := arrayAt s 0 (n * 48 + m)
  let rs := (List.range 4096).map fun a => bmByte (b.cfg.bms.get BmCfg.reset m).check c a
  let out (p : Nat) : List Byte :=
    let o := b.ports.get PortOut.zero (m * 2 + p)
    leBytes 8 o.rd.toNat ++ leBytes 2 o.rstat.toNat
  dataOf rs ++ out 0 ++ out 1 ++ List.replicate 12 0 ++ leBytes 512 (maskOf (rs.map (·.cls.bad)))

def anyFlagged (s : Device) (n : Nat) : Bool :=
  (List.range 48).any fun m => (List.range 4096).any fun a =>
    (bmByte ((bedAt s n).cfg.bms.get BmCfg.reset m).check (arrayAt s 0 (n * 48 + m)) a).cls.bad

/-- The plaintext of a dump; the user-visible state of a CUT bed is undefined (R103). DEDUCED (log 103). -/
def dumpPlain (mems : Bool) (n : Nat) (s : Device) : List Byte × Device :=
  if (bedAt s n).cutFlag then freeBytes (if mems then 239104 else 16384) s
  else
    let cells := (List.range 4096).flatMap fun i =>
      let q := (bedAt s n).cells.get CellSt.zero i
      leBytes 2 q.q0.toNat ++ leBytes 2 q.q1.toNat
    (cells ++ (if mems then (List.range 48).flatMap (memDump s n) else []), s)

/-- Debug freeze of the bed (R595). -/
def bedFrozen (s : Device) (n : Nat) : Bool := plotFrozen s (bedOwner s n) && (freezeCfg s (bedOwner s n)).getLsbD 0

/-- A PAUSED bed goes on once neither READBACK nor a debug freeze holds it (R102). -/
def releaseHold (n : Nat) (s : Device) : Device :=
  if (bedAt s n).rbHold || bedFrozen s n then s else releasePause n s

/-- The capture, the dump and the end of a READBACK (R476 to R478): status and reply. -/
def capture (c : Ctx) (fail : Option Byte) (s : Device) : Device × Nat × List Byte :=
  let n := rbBed c.pl
  let mems := bitAt (rbFlags c.pl) 1
  let b := bedAt s n
  let flags := bit b.cutFlag 0 + bit (decide (b.st = .fallow)) 1 + bit (mems && anyFlagged s n) 2
  let time := devNs s
  let (plain, s) := dumpPlain mems n s
  let s := releaseHold n (modBed n (fun b => { b with rbHold := bitAt (rbFlags c.pl) 0 && decide (b.st = .paused) }) s)
  match plotKey s (bedOwner s n) "kv readback" with
  | none => (s, stAuthFail, [])
  | some key =>
    let iv := Config.random s.trust.draws 12
    let s := { s with trust := { s.trust with draws := s.trust.draws + 1 } }
    let hdr := [0x4B, 0x56, 0x52, 0x42] ++ leBytes 2 n ++ leBytes 2 flags ++ leBytes 8 time ++ sliceBytes iv 0 12
      ++ leBytes 4 plain.length ++ List.replicate 32 0
    let dump := hdr ++ Config.gcmSeal key (sliceBytes iv 0 12) hdr plain
    let (s, rc) := busWriteWith { NetIn.calm with fail := fail } loaderInit c.plot (rbDest c.pl) dump s
    if rc = rcTimeout then (s, stTimeout, [])
    else if isErr rc then (s, stBadParam, [])
    else (s, stOk, leBytes 4 dump.length ++ leBytes 4 flags ++ leBytes 8 time)

/-- The bed's state can be captured (R477). -/
def capturable (s : Device) (n : Nat) : Bool := (bedAt s n).st ≠ .running && (bedAt s n).st ≠ .waiting

/-- READBACK; `fail` is an error response that the network gives to the dump's first write. DEDUCED (log 102). -/
def opReadback (fail : Option Byte) : OpSpec where
  code := 0x0207
  plenOk := (· = 12)
  session := true
  early := false
  late := never
  refusal := fun c s =>
    let n := rbBed c.pl
    if 384 ≤ n ∨ 4 ≤ rbFlags c.pl ∨ leAt c.pl 3 1 ≠ 0 ∨ rbDest c.pl % 64 ≠ 0 ∨ 2 ^ 48 ≤ rbDest c.pl
        ∨ (bedAt s n).st = .unconfigured then some stBadParam
    else if c.plot ≠ 0 ∧ bedOwner s n ≠ c.plot then some stNotAuth
    else if heldByOther c [.bed n] s then some stBusy else none
  records := fun _ _ => 0
  run := fun c s =>
    let n := rbBed c.pl
    let due (s : Device) : Device := modBed n (fun b => { b with rbHold := true, clock := { b.clock with pauseDue := true } }) s
    let s := match (bedAt s n).st with
      | .waiting => takePause n (due s)
      | .running => due s
      | _ => s
    if capturable s n then
      let (s, st, pl) := capture c fail s
      { st := s, reply := some (st, pl) }
    else { st := defer c [.bed n] s, reply := none }

/-- Ends a READBACK whose bed has reached its boundary. -/
def settleReadback (fail : Option Byte) (s : Device) : Device :=
  (s.mgmt.progress.filter fun p => p.opcode = 0x0207).foldl (fun s p =>
    if capturable s (rbBed p.pkt.payload) then
      let (s, st, pl) := capture p.ctx fail s
      finish p st pl s
    else s) s

/-- BED_PAUSE_TAKEN: the hold on the bed's clock takes effect, and a READBACK captures the bed. -/
def bedPauseTaken (n : Nat) (fail : Option Byte) (s : Device) : Device := settleReadback fail (takePause n s)

end Sys2Proof.Machine
end

