-- ==== Sys2Proof/Machine/Time.lean ====
section
/-! DEFINITION. Device time, time bases, servos, replicas and the time commands
(chapter "Time bases and time-stamps"). -/
namespace Sys2Proof.Machine
open Sys2Proof

/-- One second, and the whole range of a base (48 bits of SEC), in units of 2^−48 ns. -/
def secUnits : Nat := 10 ^ 9 * 2 ^ 48
def tbRange : Nat := 2 ^ 48 * secUnits

/-- Units of one tick at the nominal rate: 1.25 ns. -/
def tickUnits : Int := 5 * 2 ^ 46

def wrapTb (v : Int) : Nat := (v % (tbRange : Int)).toNat

/-- The value of R385 as units: SEC, NS and FRAC of a 96-bit number. -/
def unitsOf96 (v : Nat) : Nat :=
  (v / 2 ^ 48) * secUnits + (v / 2 ^ 16 % 2 ^ 32) * 2 ^ 48 + (v % 2 ^ 16) * 2 ^ 32

def TimeBase.radj (t : TimeBase) : Int := t.fadjEff + t.contrib

def tb (s : Device) (n : Nat) : TimeBase := s.time.bases.getD n TimeBase.reset
def setTb (n : Nat) (f : TimeBase → TimeBase) (s : Device) : Device :=
  { s with time := { s.time with bases := s.time.bases.modify n f } }

/-- One tick of a base: scheduled loads and steps take effect at its start, then it advances by
1.25 ns × (1 + RADJ / 2^40) (R383, R386, R396). -/
def TimeBase.tick (t : TimeBase) : TimeBase :=
  let v : Int := (t.load.getD t.val : Nat)
  { t with val := wrapTb (v + t.step + tickUnits + 320 * t.radj), load := none, step := 0 }

/-- Changes of RADJ announced for microseconds up to `u` take effect (R396). -/
def Replica.take (u : Nat) (r : Replica) : Replica :=
  { r with radj := (r.due.filter fun c => decide (c.1 ≤ u)).foldl (fun _ c => c.2) r.radj, due := r.due.filter fun c => decide (u < c.1) }

/-- One tick of a replica beyond the nominal rate: its RADJ, and the residual error that it slews out (R395, R396). -/
def Replica.tick (r : Replica) : Replica :=
  let d := if r.slewTicks = 0 then 0 else r.slew / (r.slewTicks : Int)
  { r with off := r.off + 320 * r.radj - d, slew := r.slew - d, slewTicks := r.slewTicks - 1 }

/-- What a load or step adds to a base at the next tick, beside its rate. -/
def TimeBase.jump (t : TimeBase) : Int := ((t.load.getD t.val : Nat) : Int) - (t.val : Int) + t.step

/-- The hub's base moves by `d` beyond the nominal rate; the replicas keep their own values until TIME messages bring the new one
(R389, R394). -/
def shiftReplicas (n : Nat) (d : Int) (m : Sparse Replica) : Sparse Replica :=
  if d = 0 then m else
  (List.range 8).foldl (fun m die =>
    m.modify Replica.reset (die * 9 + n) fun r => { r with off := r.off - d }) m

/-- The base has a change of RADJ that is due. -/
def TimeBase.lags (t : TimeBase) (u : Nat) : Bool := t.pend.any fun c => decide (c.atUs ≤ u)

/-- One tick of the 800 MHz clock (R383). -/
def Time.tick (t : Time) : Time :=
  let u := (t.ticks + 1) * 5 / 4000
  let reps := t.replicas.mapCells Replica.reset fun k r =>
    (if (t.bases.getD (k % 9) TimeBase.reset).lags u then r else r.take u).tick
  let reps := t.bases.zipIdx.foldl (fun m x => shiftReplicas x.2 (x.1.jump + 320 * x.1.radj) m) reps
  { t with ticks := t.ticks + 1, bases := t.bases.map TimeBase.tick, replicas := reps }

/-! ## Rate changes (R396) -/

def curUs (s : Device) : Nat := devNs s / 1000

/-- The contribution of a slew at ±500 ppm. -/
def slewRate (d : Int) : Int := if 0 ≤ d then 549755814 else -549755814

/-- The rate that completes a rest of `r` units of 2^−16 ns in one microsecond. -/
def lastRate (r : Int) : Int := (r * 2 ^ 24 + 500) / 1000

/-- What is left of a running slew at the start of microsecond `u` (R390). -/
def slewLeft (t : TimeBase) (u : Nat) : Int :=
  let done := (u - t.slewFrom) * 32768
  if t.slew.natAbs ≤ done then 0
  else if 0 ≤ t.slew then t.slew - done else t.slew + done

/-- Starts, or adds to, a slew: its rates are scheduled from microsecond m + 2 on, and the rates of the running slew before
that microsecond stand (R390, R396). -/
def startSlew (m : Nat) (d : Int) (t : TimeBase) : TimeBase :=
  let u0 := m + 2
  let total := (if t.slew = 0 then 0 else slewLeft t u0) + d
  let k := total.natAbs / 32768
  let whole : Int := (k * 32768 : Nat)
  let rest := total - (if 0 ≤ total then whole else -whole)
  let keep := (t.pend.filter fun c => c.fadj.isSome || decide (c.atUs < u0)).map fun (c : RadjChange) => { c with ends := false }
  let slews : List RadjChange :=
    [{ atUs := u0, fadj := none, contrib := some (slewRate total), ends := false },
     { atUs := u0 + k, fadj := none, contrib := some (lastRate rest), ends := false },
     { atUs := u0 + k + 1, fadj := none, contrib := some 0, ends := true }]
  { t with slew := total, slewFrom := u0, pend := keep ++ slews }

/-- A new FADJ is scheduled for the start of microsecond m + 2. -/
def scheduleFadj (m : Nat) (f : Int) (t : TimeBase) : TimeBase :=
  let rest := t.pend.filter fun c => c.fadj.isNone || decide (c.atUs < m + 2)
  { t with fadj := f, pend := rest ++ [{ atUs := m + 2, fadj := some f, contrib := none, ends := false }] }

/-- A TB_SET cancels a running slew, whose rate ends as any change of RADJ takes effect (R389, R396). -/
def cancelSlew (m : Nat) (t : TimeBase) : TimeBase :=
  let ending : List RadjChange := if t.contrib = 0 then [] else [{ atUs := m + 2, fadj := none, contrib := some 0, ends := true }]
  { t with slew := 0, pend := (t.pend.filter fun c => c.contrib.isNone) ++ ending }

/-- Changes due at or before microsecond `u`, of the kind that does or does not end a slew. -/
def applyChanges (u : Nat) (ending : Bool) (t : TimeBase) : TimeBase :=
  let due := t.pend.filter fun c => decide (c.atUs ≤ u) && c.ends = ending
  let rest := t.pend.filter fun c => !(decide (c.atUs ≤ u) && c.ends = ending)
  let t := due.foldl (fun t c => { t with
    fadjEff := c.fadj.getD t.fadjEff, contrib := c.contrib.getD t.contrib,
    slew := if c.ends then 0 else t.slew }) t
  { t with pend := rest }

/-- A RADJ change takes effect, or ends, on the hub and on every replica that heard of it. DEDUCED (log 77). -/
def radjApply (n : Nat) (ending : Bool) (s : Device) : Device :=
  let s := setTb n (applyChanges (curUs s) ending) s
  { s with time := { s.time with replicas := s.time.replicas.mapCells Replica.reset fun k r => if k % 9 = n then r.take (curUs s) else r } }

/-! ## TIME messages (R394, R395) -/

/-- DATA and header fields of the TIME message of one source word: bits [47:8] of the sideband message; word 3 carries `radj`. -/
def timeWord (radj : Int) (s : Device) (src word : Nat) : Nat :=
  let data :=
    if src = 8 then (if word = 0 then devNs s % 2 ^ 34 else devNs s / 2 ^ 34 % 2 ^ 30)
    else
      let t := tb s src
      match word with
      | 0 => t.ns + (t.sec % 16) * 2 ^ 30
      | 1 => t.sec / 16 % 2 ^ 34
      | 2 => t.sec / 2 ^ 38 % 2 ^ 10
      | _ => ofSigned 34 radj
  src + word * 16 + data * 64

/-- The RADJ of a base on the hub; device time has none. -/
def hubRadj (s : Device) (src : Nat) : Int := if src = 8 then 0 else (tb s src).radj

def timeMsg (s : Device) (src word : Nat) : Nat := timeWord (hubRadj s src) s src word

/-- What changes of RADJ for microsecond `u` make of it. -/
def TimeBase.radjAt (t : TimeBase) (u : Nat) : Int := (applyChanges u true (applyChanges u false t)).radj

/-- The word 3 that announces the RADJ of the microsecond after the next one, if it changes then (R396). -/
def radjNews (s : Device) (b : Nat) : List Nat :=
  let u := curUs s + 2
  if (tb s b).pend.any fun c => c.atUs = u then [timeWord ((tb s b).radjAt u) s b 3] else []

/-- The messages of the 1 µs or 1 ms timer for the eight dies: the second sends words 1 and 2 of every base and word 3, the first word 0
of every source, words 1 and 2 of a base that was set or stepped, and word 3 of one whose RADJ is to change (R394, R396). -/
def broadcast (ms : Bool) (s : Device) : Device :=
  let msgs := if ms then
      ((List.range 8).flatMap fun b => [timeMsg s b 1, timeMsg s b 2, timeMsg s b 3]) ++ [timeMsg s 8 1]
    else ((List.range 9).map fun b => timeMsg s b 0)
      ++ (List.range 8).flatMap fun b => (if (tb s b).moved then [timeMsg s b 1, timeMsg s b 2] else []) ++ radjNews s b
  { s with time := { s.time with
      sent := (List.range 8).flatMap fun d => msgs.map fun m => (d, m)
      bases := s.time.bases.map fun (t : TimeBase) => { t with moved := false } } }

def repKey (d src : Nat) : Nat := d * 9 + src
def replica (s : Device) (d src : Nat) : Replica := s.time.replicas.get Replica.reset (repKey d src)
def setReplica (d src : Nat) (r : Replica) (s : Device) : Device :=
  { s with time := { s.time with replicas := s.time.replicas.set Replica.reset (repKey d src) r } }

/-- The value of a source on the hub in its own units: 2^−48 ns for a base, 2^−48 ns of device time. -/
def hubUnits (s : Device) (src : Nat) : Nat := if src = 8 then devNs s * 2 ^ 48 else (tb s src).val

/-- A difference reduced into (−m/2, m/2]. -/
def centred (d m : Int) : Int := let r := d % m; if m < 2 * r then r - m else r

/-- A compute die receives a TIME message (R394, R395). A residual error of at most 2 ns is slewed out over
1 µs, a larger one is stepped out with a C0 note against TIM. A RADJ takes effect two microseconds after that of its message (R396). -/
def timeMessage (d : Nat) (msg : Nat) (s : Device) : Device :=
  let src := msg % 16
  let word := msg / 16 % 4
  let data := msg / 64
  if 8 < src then s else
  if src = 8 ∧ 2 ≤ word then s else
  let r := { replica s d src with holdover := false }
  let lat : Int := ((s.time.latency.getD d 0 : Nat) : Int)
  let own : Int := (hubUnits s src : Int) + r.off
  match word with
  | 0 =>
    let ownAtSend := own - lat * (tickUnits + 320 * r.radj)
    let m : Int := if src = 8 then 2 ^ 34 * 2 ^ 48 else (16 * secUnits : Nat)
    let v : Int := if src = 8 then (data : Int) * 2 ^ 48
      else ((data % 2 ^ 30 * 2 ^ 48 + data / 2 ^ 30 % 16 * secUnits : Nat) : Int)
    let e := centred (ownAtSend - v) m
    let r := { r with lastRx := devNs s }
    if e.natAbs ≤ 2 * 2 ^ 48 then setReplica d src { r with slew := e, slewTicks := 800 } s
    else raise (.hub 6) 0 0x17 d (setReplica d src { r with off := r.off - e, slew := 0, slewTicks := 0 } s)
  | 3 =>
    let sentUs := (s.time.ticks - s.time.latency.getD d 0) * 5 / 4000
    setReplica d src { r with due := r.due ++ [(sentUs + 2, toSigned 34 data)] } s
  | _ =>
    let ownN : Nat := own.toNat
    let newN : Nat :=
      if src = 8 then ownN % (2 ^ 34 * 2 ^ 48) + data % 2 ^ 30 * (2 ^ 34 * 2 ^ 48)
      else
        let sec := ownN / secUnits
        let sec := if word = 1 then sec % 16 + data % 2 ^ 34 * 16 + sec / 2 ^ 38 * 2 ^ 38
          else sec % 2 ^ 38 + data % 2 ^ 10 * 2 ^ 38
        sec * secUnits + ownN % secUnits
    setReplica d src { r with off := r.off + ((newN : Int) - (ownN : Int)) } s

/-- A replica without a WORD 0 for 16 µs enters HOLDOVER with a C1 fault against TIM (R395). -/
def holdover (d src : Nat) (s : Device) : Device :=
  let r := replica s d src
  if !r.holdover && decide (Nat.max r.lastRx s.time.began + 16000 ≤ devNs s) then
    raise (.hub 6) 1 0x17 d (setReplica d src { r with holdover := true } s)
  else s

/-- REPLICA_STATUS.HOLDOVER: bit d where die d has a base in HOLDOVER. -/
def holdoverBits (s : Device) : Nat :=
  maskOf ((List.range 8).map fun d => (List.range 8).any fun b => (replica s d b).holdover)

/-! ## Servos and pins (R388, R400) -/

/-- The signed distance of a value from the nearest whole second. -/
def secError (v : Nat) : Int :=
  let r := v % secUnits
  if 2 * r < secUnits then (r : Int) else (r : Int) - (secUnits : Int)

/-- One PPS edge on a disciplined base (R388). -/
def ppsEdge (now : Nat) (m cnt : Nat) (t : TimeBase) : TimeBase :=
  let e := secError t.val
  if !t.gotEdge || decide (1000 * 2 ^ 48 < e.natAbs) then
    { t with step := t.step - e, moved := true, locked := false, gotEdge := true, good := 0, lastEdge := now }
  else
    let good := if e.natAbs ≤ 100 * 2 ^ 48 then t.good + 1 else 0
    let f := (Config.ppsServo t.fadj e t.tc.toNat cnt).toInt
    scheduleFadj m f { t with good, locked := t.locked || decide (4 ≤ good), lastEdge := now }

/-- A rising edge on TIME_PPS_IN[k]: every base is captured, and the servos on that pin act (R388, R400). -/
def ppsIn (k : Nat) (s : Device) : Device :=
  let cap := (List.range 8).foldl (fun c n => c.set 0 (k * 8 + n) (tb s n).value96) s.time.ppsCap
  let f := fun (t : TimeBase) => if t.mode = .pps && t.pin = decide (k = 1) then ppsEdge (devNs s) (curUs s) s.free t else t
  { s with time := { s.time with ppsCap := cap, bases := s.time.bases.map f }, free := s.free + 1 }

def ppsTimeout (n : Nat) (s : Device) : Device :=
  setTb n (fun t => if t.mode = .pps && decide (t.lastEdge + 2500000000 ≤ devNs s) then { t with locked := false, good := 0 } else t) s

/-- The 1 ms classification of TIME_FREQ_IN: 0 absent, 1 10 MHz, 2 25 MHz (R388, R400). -/
def freqIn (cls : Nat) (s : Device) : Device :=
  let f := fun (t : TimeBase) =>
    if t.mode = .freq then
      if cls = 0 then { t with locked := false }
      else scheduleFadj (curUs s) (Config.freqServo s.free).toInt { t with locked := true }
    else t
  { s with time := { s.time with freqClass := BitVec.ofNat 2 cls, bases := s.time.bases.map f }, free := s.free + 1 }

/-- A base crosses a whole second: its output rises for the routed width (R400). -/
def ppsOut (k : Nat) (s : Device) : Device :=
  let f := fun (o : PpsOut) => if o.width = 0 then o else { o with high := some (devNs s + o.width.toNat * 1000000) }
  { s with time := { s.time with ppsOut := s.time.ppsOut.modify k f } }

def ppsEnd (k : Nat) (s : Device) : Device :=
  let f := fun (o : PpsOut) => match o.high with
    | some t => if t ≤ devNs s then { o with high := none } else o
    | none => o
  { s with time := { s.time with ppsOut := s.time.ppsOut.modify k f } }

/-! ## Commands (R389 to R393, R402) -/

def tbClass : Nat := 0x0F

/-- R389. A backward or forward set re-arms an armed START_AT, whose target is compared anew (R402). -/
def opTbSet : OpSpec where
  code := 0x0601
  plenOk := (· = 16)
  session := true
  early := false
  late := never
  refusal := fun c _ =>
    let v := leAt c.pl 4 12
    if 7 < leAt c.pl 0 1 ∨ !zeroAt c.pl 1 3 ∨ 10 ^ 9 ≤ v / 2 ^ 16 % 2 ^ 32 then some stBadParam
    else if c.plot ≠ 0 then some stNotAuth else none
  records := fun _ _ => 1
  run := fun c s =>
    let n := leAt c.pl 0 1
    let v := unitsOf96 (leAt c.pl 4 12)
    let s := setTb n (fun t => { cancelSlew (curUs s) t with
      load := some v, step := 0, moved := true, isSet := true, gotEdge := false, good := 0,
      locked := if t.mode = .pps then false else t.locked }) s
    { st := cmdRecObj c tbClass n s, reply := some (stOk, []) }

def adjustBody (c : Ctx) (after : Nat) : RecBody :=
  { origin := instOrigin c.inst, principal := principalOf c, objClass := tbClass, objId := leAt c.pl 0 1,
    action := c.op, status := 0, before := 0, after }

/-- R390; its records coalesce under R516 (R392). -/
def opTbAdjust : OpSpec where
  code := 0x0602
  plenOk := (· = 16)
  session := true
  early := false
  late := never
  refusal := fun c s =>
    let f := leAt c.pl 1 1
    let off := toSigned 64 (leAt c.pl 8 8)
    if 7 < leAt c.pl 0 1 ∨ 8 ≤ f ∨ !zeroAt c.pl 2 2
        ∨ (bitAt f 0 ∧ !bitAt f 2 ∧ 1000000 * 2 ^ 16 < off.natAbs) then some stBadParam
    else if c.plot ≠ 0 then some stNotAuth
    else if bitAt f 1 ∧ (tb s (leAt c.pl 0 1)).mode ≠ .software then some stBusy else none
  records := fun c s => if almCoalesces (adjustBody c 0) s then 0 else 1
  run := fun c s =>
    let n := leAt c.pl 0 1
    let f := leAt c.pl 1 1
    let off := toSigned 64 (leAt c.pl 8 8)
    let m := curUs s
    let s := if bitAt f 1 then setTb n (scheduleFadj m (toSigned 32 (leAt c.pl 4 4))) s else s
    let s := if bitAt f 0 then
        setTb n (fun t => if bitAt f 2 then { t with step := t.step + off * 2 ^ 32, moved := true } else startSlew m off t) s
      else s
    let (a, s) := freshDigest s
    { st := almCoalesce (adjustBody c a) none s, reply := some (stOk, []) }

/-- R393. -/
def opTbRoute : OpSpec where
  code := 0x0603
  plenOk := (· = 4)
  session := true
  early := false
  late := never
  refusal := fun c s =>
    let k := leAt c.pl 0 1
    let i := leAt c.pl 2 2
    if 7 < leAt c.pl 1 1 ∨ 2 < k ∨ (k = 0 ∧ 511 < i) ∨ (k = 1 ∧ 1 < i % 256)
        ∨ (k = 2 ∧ (3 < i % 256 ∨ i / 256 = 0)) then some stBadParam
    else if c.plot ≠ 0 ∧ !(k = 0 ∧ engineOwner s (i / 8) = c.plot) then some stNotAuth else none
  records := fun _ _ => 1
  run := fun c s =>
    let k := leAt c.pl 0 1
    let n := leAt c.pl 1 1
    let i := leAt c.pl 2 2
    let s :=
      if k = 0 then { s with time := { s.time with rxBase := s.time.rxBase.set 0 i n } }
      else if k = 1 then
        { s with time := { s.time with ppsOut := s.time.ppsOut.modify (i % 256) fun o =>
            { o with tb := Fin.ofNat 8 n, width := BitVec.ofNat 8 (i / 256), high := if i / 256 = 0 then none else o.high } } }
      else setTb n (fun t => { t with
          mode := if i % 256 = 0 then .software else if i % 256 = 3 then .freq else .pps,
          pin := decide (i % 256 = 2), tc := BitVec.ofNat 8 (i / 256), locked := false, gotEdge := false, good := 0,
          lastEdge := devNs s }) s
    { st := cmdRecObj c tbClass n s, reply := some (stOk, []) }

/-- R402. -/
def opStartAt : OpSpec where
  code := 0x0604
  plenOk := (· = 16)
  session := true
  early := false
  late := never
  refusal := fun c s =>
    let v := leAt c.pl 4 12
    let n := leAt c.pl 0 1
    if 7 < n ∨ !zeroAt c.pl 1 3 ∨ 10 ^ 9 ≤ v / 2 ^ 16 % 2 ^ 32
        ∨ unitsOf96 v < (tb s n).val + 1000000 * 2 ^ 48 then some stBadParam
    else if c.plot ≠ 0 then some stNotAuth
    else if s.time.startAt.isSome then some stBusy else none
  records := fun _ _ => 1
  run := fun c s =>
    let n := leAt c.pl 0 1
    let s := { s with time := { s.time with startAt := some { tb := Fin.ofNat 8 n, target := unitsOf96 (leAt c.pl 4 12), fired := false } } }
    { st := cmdRecObj c tbClass n s, reply := some (stOk, []) }

/-- The armed target is reached by the hub's copy of its base (R402). -/
def startDue (s : Device) : Bool :=
  match s.time.startAt with
  | some a => decide (a.target ≤ (tb s a.tb.val).val)
  | none => false

/-! ## TIM registers (R403) -/

def tbCtl (t : TimeBase) : Nat :=
  (match t.mode with | .software => 0 | .pps => 1 | .freq => 2) + bit t.pin 2 + place t.tc.toNat 8
    + bit t.locked 16 + bit (t.slew ≠ 0) 17

def timWidth (off : Nat) : Option (Nat × Nat) :=
  if off < 8 then some (0, 64)
  else if off = 0x10 ∨ off = 0x14 ∨ off = 0x18 then some (off, 32)
  else if 0x100 ≤ off ∧ off < 0x300 then
    let r := off % 0x40
    if r = 0 ∨ r = 4 then some (off, 32)
    else if 8 ≤ r ∧ r < 0x18 then some (off / 8 * 8, 64) else none
  else if 0x400 ≤ off ∧ off < 0x600 ∧ off % 0x100 < 0x80 then some (off / 8 * 8, 64)
  else if 0x1000 ≤ off ∧ off < 0x1100 then some (off / 4 * 4, 32)
  else none

def timRead (s : Device) (off : Nat) : Nat :=
  if off = 0 then devNs s
  else if off = 0x10 then s.time.freqClass.toNat
  else if off = 0x14 then holdoverBits s + place s.time.failed.toNat 8
  else if off = 0x18 then s.time.onestep.toNat
  else if off < 0x300 then
    let t := tb s ((off - 0x100) / 0x40)
    let r := off % 0x40
    if r = 0 then tbCtl t
    else if r = 4 then ofSigned 32 t.fadj
    else if r = 8 then t.frac + t.ns * 2 ^ 16
    else t.secLatch
  else if off < 0x600 then
    let k := (off - 0x400) / 0x100
    let n := off % 0x100 / 0x10
    let v := s.time.ppsCap.get 0 (k * 8 + n)
    if off % 0x10 = 0 then v % 2 ^ 64 else v / 2 ^ 64
  else
    let w := (off - 0x1000) / 4
    (List.range 8).foldl (fun a k => a + s.time.rxBase.get 0 (8 * w + k) * 2 ^ (4 * k)) 0

/-- A read of TB_NOW latches the matching SEC (R403). DEDUCED (log 22). -/
def tbNowLatch (n : Nat) (s : Device) : Device := setTb n (fun t => { t with secLatch := t.sec }) s

end Sys2Proof.Machine
end

