-- ==== Sys2Proof/Machine/CfgSession.lean ====
section
/-! DEFINITION. Configuration sessions, commits, user mode and the golden image (R453 to R472, R628). -/
namespace Sys2Proof.Machine
open Sys2Proof

/-! ## Entries and identities (R457) -/

def cfgSrc : Source := .hub 2

def sesAt (s : Device) (k : Nat) : Option CfgSes := s.cfg.ses.getD k none
def setSes (k : Nat) (x : Option CfgSes) (s : Device) : Device := { s with cfg := { s.cfg with ses := modAt s.cfg.ses k fun _ => x } }
def modSes (k : Nat) (f : CfgSes → CfgSes) (s : Device) : Device := setSes k ((sesAt s k).map f) s
def genOf (s : Device) (k : Nat) : Nat := s.cfg.gens.getD k 0
def csidOf (s : Device) (k : Nat) : Nat := k + place (genOf s k) 8
def entries (s : Device) : List (Nat × CfgSes) := s.cfg.ses.zipIdx.filterMap fun x => x.1.map fun e => (x.2, e)

/-- The entry that a CSID names, if it is the entry's present generation. -/
def sesOf (s : Device) (csid : Nat) : Option (Nat × CfgSes) :=
  let k := csid % 4
  if bitsAt csid 2 6 = 0 ∧ csid / 256 = genOf s k then (sesAt s k).map fun e => (k, e) else none

def cfgRec (c : Ctx) (k plot before after : Nat) (s : Device) : Device :=
  almMake { origin := instOrigin c.inst, principal := principalOf c, objClass := 0x10, objId := csidOf s k, action := c.op, status := 0, before, after }
    (some plot) s

def cfgSelf (objId action status before after : Nat) (plot : Option Nat) (s : Device) : Device :=
  almMake { origin := 0, principal := 0, objClass := 0x10, objId, action, status, before, after } plot s

/-- The slave port that CFG_MODE enables (R453): 0 none, 1 serial, 2 parallel. -/
def slavePort (m : BitVec 3) : Nat := if m.toNat % 4 = 1 then 1 else if m.toNat % 4 = 2 then 2 else 0
def portEnabled (s : Device) : Inst → Bool
  | .serial => slavePort s.cfg.mode = 1
  | .parallel => slavePort s.cfg.mode = 2
  | _ => false
/-- Golden image loaded on entry to READY, and after a failed initial load (R453). -/
def goldenAtReady (m : BitVec 3) : Bool := m = 4
def goldenAfter (m : BitVec 3) : Bool := m = 0 || m = 1 || m = 2 || m = 4

/-! ## Staging space (R456) -/

def stagingUnits : Nat := 192
def unitsFor (bytes : Nat) : Nat := (bytes + 2 ^ 21 - 1) / 2 ^ 21
def stagingReady (s : Device) : Bool := (regionAt s 1016).st = .active
def unitTaken (es : List (Nat × CfgSes)) (u : Nat) : Bool := es.any fun e => e.2.base ≤ u && u < e.2.base + e.2.units
def runFree (es : List (Nat × CfgSes)) (a n : Nat) : Bool := decide (a + n ≤ stagingUnits) && (List.range n).all fun i => !unitTaken es (a + i)
def firstFit (es : List (Nat × CfgSes)) (n : Nat) : Option Nat := (List.range stagingUnits).find? fun a => runFree es a n
/-- The largest free run: its length in units. -/
def largestFree (es : List (Nat × CfgSes)) : Nat :=
  ((List.range (stagingUnits + 1)).filter fun n => (firstFit es n).isSome).foldl Nat.max 0

/-! ## Ending sessions -/

def endSes (k : Nat) (s : Device) : Device := setSes k none s

/-- Statuses with which the failure of a session leads to the golden image (R470). -/
def failingStatus (st : Nat) : Bool :=
  st = stStreamShort || st = stWrongDevice || st = stAuthFail || st = stCapability || st = stDriver || st = stBadParam

/-- The beds of a session that waits for its start go back to FALLOW, their configuration retained (R467). -/
def unwait (ns : List Nat) (s : Device) : Device :=
  ns.foldl (fun s n => if (bedAt s n).st = .committed then toFallow n s else s) s

/-- WAITING_START after DONE has been released in READY (R467). -/
def abortBarred (s : Device) (e : CfgSes) : Bool :=
  e.st = .applying || (e.st = .waitingStart && s.mgmt.dev ≠ .user && !s.cfg.doneHeld)

/-- What CFG_ABORT does to a session that it may end (R467). -/
def abortSes (k : Nat) (s : Device) : Device :=
  match sesAt s k with
  | none => s
  | some e => if abortBarred s e then s else endSes k (unwait e.beds s)

/-! ## The golden image (R470 to R472) -/

/-- The pointer block of the recovery flash (R471). -/
def pointerOk (b : List Byte) : Bool := b.take 4 = [0x4B, 0x56, 0x47, 0x50] && zeroAt b 4 4 && zeroAt b 24 40

/-- Bytes arrive in a session that is RECEIVING, up to the first check that fails (R458, R460). -/
def receive (s : Device) (e : CfgSes) (d : List Byte) : CfgSes :=
  let old := e.bytes.length
  let all := e.bytes ++ d
  let rejected (n st : Nat) : CfgSes := { e with st := .rejected, status := st, bytes := all.take n }
  let head := if old < 64 ∧ 64 ≤ all.length then headCheck s e.plot e.reserve all else none
  let rest := if old < 256 ∧ 256 ≤ all.length then headRest all else none
  match head, rest with
  | some st, _ => rejected 64 st
  | none, some st => rejected 256 st
  | none, none =>
    if 64 ≤ all.length ∧ imgTotal all < all.length then rejected (imgTotal all) stBadParam
    else if 64 ≤ all.length ∧ imgTotal all = all.length then { e with bytes := all, st := .verifying }
    else { e with bytes := all }

/-- The golden load ends without a copy that commits (R471, R472). -/
def goldenFailed (g : Golden) (status : Nat) (s : Device) : Device :=
  let id := (g.entry.map (csidOf s)).getD 0
  let plot := g.entry.map fun _ => 0
  let s := { s with cfg := { s.cfg with golden := 3, load := none } }
  let s := cfgSelf id 0x8010 status 0 0 plot (raise cfgSrc 2 0x1C 0 s)
  match g.cmd.bind fun i => inProgress i s with
  | some p => finish p status [] (cfgSelf id 0x0208 status 0 0 plot s)
  | none => s

/-- Stages a copy that the flash has delivered as a session of plot 0: the session that then waits for its verification, or the
copy's outcome. -/
def stageCopy (g : Golden) (image : List Byte) (s : Device) : Device × Option Nat × Option Nat :=
  let free := largestFree (entries s)
  let slot := (List.range 4).find? fun k => (sesAt s k).isNone
  match slot, decide (0 < free) && stagingReady s with
  | some k, true =>
    let s := { s with cfg := { s.cfg with gens := modAt s.cfg.gens k fun n => (n + 1) % 256 } }
    let new : CfgSes := { st := .receiving, plot := 0, path := 3, inst := g.cmd.getD .jtag, base := 0, units := 0,
                          reserve := Nat.min imgMax (free * 2 ^ 21), bytes := [], status := 0, start := 0, touched := devNs s, beds := [], cores := [] }
    let e := receive s new (sliceBytes image 0 256)
    let e := if e.st = .receiving ∧ imgKind e.bytes ≠ 0 then { e with st := .rejected, status := stBadParam } else e
    let e := if e.st = .receiving then receive s e (sliceBytes image 256 (imgTotal e.bytes - 256)) else e
    if e.st = .rejected then (s, some k, some e.status)
    else
      let units := unitsFor (imgTotal e.bytes)
      (setSes k (some { e with units, base := (firstFit (entries s) units).getD 0 }) s, some k, none)
  | _, _ => (s, none, some stNoStaging)

/-- The next copy is read from the flash; with none left the load has failed with the latest outcome. -/
def nextCopy (g : Golden) (st : Nat) (s : Device) : Device :=
  match g.rest with
  | [] => goldenFailed g st s
  | _ => { s with cfg := { s.cfg with load := some { g with reading := true, holds := [] } } }

/-- A load begins; without a staging region it fails at once (R306). DEDUCED (log 96). -/
def startLoad (copies : List Nat) (cmd : Option Inst) (s : Device) : Device :=
  let g : Golden := { reading := true, copy := 0, rest := copies, entry := none, cmd, holds := [] }
  if stagingReady s then nextCopy g stBadParam s else goldenFailed g stNoStaging s

/-- RECOVERY_FLASH_READ_COMPLETE: the flash delivers its pointer block and the next copy that it names, or fails to deliver the
copy. A copy that the block does not name fails with BAD_PARAM, as every copy does where the block is invalid. DESIGN CHOICE (log 97). -/
def flashDone (ptr : List Byte) (image : Option (List Byte)) (s : Device) : Device :=
  match s.cfg.load with
  | none => s
  | some g =>
    if !g.reading then s
    else
      let named (c : Nat) : Bool := pointerOk ptr && leAt ptr (8 + 8 * c) 8 ≠ 0
      match g.rest.dropWhile fun c => !named c with
      | [] => goldenFailed { g with reading := false, rest := [] } stBadParam s
      | copy :: rest =>
        let g := { g with reading := false, copy, rest }
        match image with
        | none => nextCopy g stTimeout s
        | some b =>
          match stageCopy g b s with
          | (s, k, none) => { s with cfg := { s.cfg with load := some { g with entry := k } } }
          | (s, k, some st) => nextCopy { g with entry := k.or g.entry } st s

/-- The automatic load of the golden image (R470): not in USER; a commit in progress is awaited. -/
def goldenAuto (s : Device) : Device :=
  if s.mgmt.dev ≠ .ready ∨ s.cfg.load.isSome then s
  else if (entries s).any (fun e => e.2.st = .applying) then { s with cfg := { s.cfg with loadDue := true } }
  else startLoad [0, 1] none ((List.range 4).foldl (fun s k => abortSes k s) { s with cfg := { s.cfg with loadDue := false } })

/-- The copy on trial has failed: the next one, or the end of the load. -/
def copyFailed (st : Nat) (s : Device) : Device :=
  match s.cfg.load with
  | some g => nextCopy g st (dropObjs g.holds s)
  | none => s

/-- A session has failed with a status, and has been ended or holds it REJECTED (R470). -/
def sesFailed (plot path st : Nat) (s : Device) : Device :=
  if path = 3 then copyFailed st s
  else if plot = 0 ∧ s.mgmt.dev = .ready ∧ failingStatus st ∧ goldenAfter s.cfg.mode then goldenAuto s else s

/-! ## Stream bytes (R458) -/

/-- Bytes reach the session of entry `k`. -/
def sesBytes (k : Nat) (d : List Byte) (s : Device) : Device :=
  match sesAt s k with
  | none => s
  | some e =>
    if d.isEmpty then s else
    match e.st with
    | .receiving =>
      let e' := { receive s e d with touched := devNs s }
      let s := setSes k (some e') s
      if e'.st = .rejected then sesFailed e.plot e.path e'.status s else s
    | .verifying | .verified =>
      sesFailed e.plot e.path stBadParam (setSes k (some { e with st := .rejected, status := stBadParam, touched := devNs s }) s)
    | .rejected => setSes k (some { e with touched := devNs s }) s
    | .applying | .waitingStart => s

def rejectSes (k st : Nat) (s : Device) : Device :=
  match sesAt s k with
  | some e => sesFailed e.plot e.path st (setSes k (some { e with st := .rejected, status := st, touched := devNs s }) s)
  | none => s

/-! ## CFG_BEGIN (R457) -/

def samePath (c : Ctx) (path : Nat) (e : CfgSes) : Bool := e.path = path && e.inst = c.inst

def opCfgBegin : OpSpec where
  code := 0x0201
  plenOk := (· = 8)
  session := true
  early := false
  late := never
  refusal := fun c s =>
    let path := leAt c.pl 0 1
    let size := leAt c.pl 4 4
    let others := (entries s).filter fun e => !samePath c path e.2
    let mailbox : Bool := match c.inst with | .mailbox _ => true | _ => false
    if 2 < path ∨ !zeroAt c.pl 1 3 ∨ size = 0 ∨ imgMax < size ∨ (path = 0 ∧ !mailbox) ∨ (path = 2 ∧ !portEnabled s c.inst) then some stBadParam
    else if (entries s).length = 4 ∨ (entries s).any (fun e => samePath c path e.2 && e.2.st ≠ .rejected) ∨ s.cfg.load.isSome then some stBusy
    else if !stagingReady s ∨ (firstFit others (unitsFor size)).isNone then some stNoStaging else none
  records := fun _ _ => 1
  run := fun c s =>
    let path := leAt c.pl 0 1
    let size := leAt c.pl 4 4
    let s := (entries s).foldl (fun s e => if samePath c path e.2 then endSes e.1 s else s) s
    match (List.range 4).find? fun k => (sesAt s k).isNone with
    | none => { st := s, reply := some (stBusy, []) }
    | some k =>
      let units := unitsFor size
      let base := (firstFit (entries s) units).getD 0
      let s := { s with cfg := { s.cfg with gens := modAt s.cfg.gens k fun n => (n + 1) % 256 } }
      let (b, s) := freshDigest s
      let s := setSes k (some { st := .receiving, plot := c.plot, path, inst := c.inst, base, units, reserve := size, bytes := [], status := 0,
                                start := 0, touched := devNs s, beds := [], cores := [] }) s
      let (a, s) := freshDigest s
      { st := cfgRec c k c.plot b a s, reply := some (stOk, leBytes 4 (csidOf s k)) }

/-! ## CFG_DATA, STREAM and the staging window -/

/-- The session is found and the command's plot may name it (R457). -/
def sesRefusal (c : Ctx) (s : Device) (csid : Nat) : Option Nat :=
  match sesOf s csid with
  | none => some stBadParam
  | some (_, e) => if c.plot ≠ 0 ∧ c.plot ≠ e.plot then some stNotAuth else none

/-- CFG_DATA. DEDUCED (log 98). -/
def opCfgData : OpSpec where
  code := 0x0202
  plenOk := fun n => 5 ≤ n && n ≤ 4096
  session := true
  early := false
  late := never
  refusal := fun c s =>
    if !zeroAt c.pl 2 2 then some stBadParam
    else (sesRefusal c s (leAt c.pl 0 2)).or
      (match sesOf s (leAt c.pl 0 2) with
        | some (_, e) =>
          if e.path ≠ 1 then some stBadParam
          else if e.st = .applying ∨ e.st = .waitingStart then some stBusy
          else if e.st = .rejected then some e.status else none
        | none => none)
  records := fun _ _ => 0
  run := fun c s =>
    let k := leAt c.pl 0 2 % 4
    let after := (sesAt s k).map fun e => match e.st with
      | .receiving => let e' := receive s e (c.pl.drop 4); if e'.st = .rejected then e'.status else stOk
      | _ => stBadParam
    { st := sesBytes k (c.pl.drop 4) s, reply := some (after.getD stOk, []) }

/-- A STREAM transaction: whole words of data for the session of PATH 2 on this port; discarded without one (R455). -/
def streamData (i : Inst) (words : List Word32) (s : Device) : Device :=
  if !portEnabled s i then s
  else match (entries s).find? fun e => e.2.path = 2 && e.2.inst = i with
    | some (k, _) => sesBytes k (words.flatMap fun w => leBytes 4 w.toNat) s
    | none => s


def stageDrop (s : Device) : Device :=
  raise cxlSrc 0 0x0B 0 { s with cxl := { s.cxl with stageDrop := BitVec.ofNat 32 (satAdd 32 s.cxl.stageDrop.toNat 1) } }

/-- The write keeps the form of R628: whole aligned lines, or the last bytes of the stream. -/
def stageFormOk (e : CfgSes) (off : Nat) (d : List Byte) : Bool :=
  (off % 64 = 0 && d.length % 64 = 0)
    || (64 ≤ e.bytes.length && off % 64 = 0 && e.bytes.length + d.length = imgTotal e.bytes)

/-- A write to the staging window by a logical device (R409, R458, R628). -/
def stagingWrite (ld : PlotId) (off : Nat) (d : List Byte) (s : Device) : Device :=
  match (entries s).find? fun e => e.2.path = 0 && e.2.inst = .mailbox ld with
  | none => stageDrop s
  | some (k, e) =>
    match e.st with
    | .applying | .waitingStart => stageDrop s
    | .receiving => if stageFormOk e off d then sesBytes k d s else rejectSes k stBadParam s
    | _ => sesBytes k d s

/-! ## Commit (R462 to R466) -/

structure Target where
  bed    : Nat
  merge  : Bool
  frames : List FrameRec

def bedTargets (s : Device) (b : List Byte) : List Target :=
  (imgBodies s b).filterMap fun x => if x.1.type = 1 then
    some { bed := x.1.target, merge := x.1.sflags = 1, frames := (bedFrames x.2).getD [] } else none

def coreTargets (s : Device) (b : List Byte) : List (Nat × Bool × List Byte) :=
  (imgBodies s b).filterMap fun x => if x.1.type = 2 then some (x.1.target, decide (x.1.sflags = 2), x.2) else none

def ownBeds (s : Device) (p : Nat) : List Nat := (List.range 384).filter fun n => bedOwner s n = p

/-- The state that the commit of an image would leave, for R89 and R118. -/
def asLeft (b : List Byte) (ts : List (Nat × Sparse (List Byte))) (s : Device) : Device :=
  let s := if imgKind b = 0 then (ownBeds s 0).foldl (fun s n => modBed n (fun x => { x with st := .fallow }) s) s else s
  asCommitted ts s

inductive Verdict' where
  /-- Refused; the flag says whether the session stays. -/
  | no (st : Nat) (stays : Bool)
  | wait
  | go
  deriving DecidableEq, Repr

/-- The table of R462. -/
def commitVerdict (held : List Obj → Bool) (start k : Nat) (s : Device) : Verdict' :=
  match sesAt s k with
  | none => .no stBadParam true
  | some e =>
    if 2 < start ∨ (start = 1 ∧ s.mgmt.dev = .user) ∨ (start = 2 ∧ s.time.startAt.isNone) then .no stBadParam false
    else match e.st with
    | .receiving => .no stStreamShort false
    | .rejected => .no e.status false
    | .verifying => .wait
    | .applying | .waitingStart => .no stBusy true
    | .verified =>
      let b := e.bytes
      let beds := bedTargets s b
      let cores := coreTargets s b
      let frames := beds.map fun t => (t.bed, newFrames s t.bed t.merge t.frames)
      let partial' := imgKind b = 1
      let objs := beds.map (fun t => Obj.bed t.bed) ++ cores.map (fun c => Obj.core c.1)
      if (partial' ∧ (beds.any (fun t => !outOfService s t.bed) ∨ cores.any (fun c => (coreAt s c.1).st ≠ .idle)))
          ∨ beds.any (fun t => bedOwner s t.bed ≠ imgPlot b) ∨ cores.any (fun c => coreOwner s c.1 ≠ imgPlot b) ∨ held objs then .no stBusy true
      else if beds.any (fun t => t.merge && !(bedAt s t.bed).kept && !t.frames.any (·.type = 1)) then .no stBadParam false
      else match borderCheck (asLeft b frames s) (beds.map (·.bed)) with
        | some st => .no st false
        | none => .go

/-- START as it applies: in READY, NOW is treated as DONE (R464). -/
def effStart (s : Device) (start : Nat) : Nat := if start = 0 ∧ s.mgmt.dev ≠ .user then 1 else start

/-- Step 1 of R463, and the session is APPLYING. -/
def beginCommit (start k : Nat) (s : Device) : Device :=
  match sesAt s k with
  | none => s
  | some e =>
    let s := opPlot 2 e.plot (modSes k (fun e => { e with st := .applying, start := effStart s start, touched := devNs s }) s)
    if imgKind e.bytes = 0 then
      let s := (ownBeds s 0).foldl (fun s n => makeFallow false n s) s
      (coreTargets s e.bytes).foldl (fun s c => if (coreAt s c.1).st = .idle then setCore c.1 { coreAt s c.1 with en := false } s else stopCore 1 c.1 true s) s
    else s

def commitHolds (s : Device) (e : CfgSes) : List Obj :=
  (bedTargets s e.bytes).map (fun t => Obj.bed t.bed) ++ (coreTargets s e.bytes).map (fun c => Obj.core c.1)
    ++ (if imgKind e.bytes = 0 then (ownBeds s 0).map Obj.bed else [])

/-- A refused commit: unless it is BUSY the session ends (R462). -/
def refuseCommit (k st : Nat) (stays : Bool) (s : Device) : Device :=
  if stays then s
  else match sesAt s k with
    | some e => sesFailed e.plot e.path st (endSes k s)
    | none => s

def opCfgCommit : OpSpec where
  code := 0x0203
  plenOk := (· = 4)
  session := true
  early := false
  late := never
  refusal := fun c s => if leAt c.pl 3 1 ≠ 0 then some stBadParam else sesRefusal c s (leAt c.pl 0 2)
  records := fun c s =>
    if commitVerdict (fun o => heldByOther c o s) (leAt c.pl 2 1) (leAt c.pl 0 2 % 4) s = .go then 1 else 0
  run := fun c s =>
    let k := leAt c.pl 0 2 % 4
    let start := leAt c.pl 2 1
    match commitVerdict (fun o => heldByOther c o s) start k s, sesAt s k with
    | .no st stays, _ => { st := refuseCommit k st stays s, reply := some (st, []) }
    | .wait, _ => { st := defer c [] s, reply := none }
    | .go, some e =>
      let (b, s) := freshDigest s
      let s := cfgRec c k e.plot b (first8 (imgDigest e.bytes)) s
      { st := defer c (commitHolds s e) (beginCommit start k s), reply := none }
    | .go, none => { st := s, reply := some (stBadParam, []) }

/-- The CFG_COMMIT in progress that names an entry. -/
def commitCmd (s : Device) (k : Nat) : Option Progress :=
  s.mgmt.progress.find? fun p => p.opcode = 0x0203 && leAt p.pkt.payload 0 2 = csidOf s k

/-- A commit that waited for its session's verification is judged again (R462). -/
def rejudge (k : Nat) (s : Device) : Device :=
  match commitCmd s k, sesAt s k with
  | some p, some e =>
    let c := p.ctx
    let start := leAt c.pl 2 1
    match commitVerdict (fun o => heldByOther c o s) start k s with
    | .no st stays => finish p st [] (refuseCommit k st stays s)
    | .wait => s
    | .go =>
      if !almRoom 1 s then finish p stAlmFull [] s
      else
        let (b, s) := freshDigest s
        let s := cfgRec c k e.plot b (first8 (imgDigest e.bytes)) s
        let s := beginCommit start k s
        { s with mgmt := { s.mgmt with progress := s.mgmt.progress.map fun q =>
            if q.inst = p.inst then { q with holds := commitHolds s e } else q } }
  | _, _ => s

/-- SIGNATURE_VERIFY_COMPLETE (R461): the outcome of the checks; a verified golden image is committed (R470). -/
def verifyComplete (k : Nat) (s : Device) : Device :=
  match sesAt s k with
  | none => s
  | some e =>
    if e.st ≠ .verifying then s else
    match imageVerdict s e.bytes with
    | some st =>
      if e.path = 3 then copyFailed st (endSes k s)
      else
        let s := setSes k (some { e with st := .rejected, status := st }) s
        let waits := (commitCmd s k).isSome
        let s := rejudge k s
        if waits then s else sesFailed e.plot e.path st s
    | none =>
      let s := setSes k (some { e with st := .verified }) s
      if e.path = 3 then
        match commitVerdict (fun _ => false) 0 k s with
        | .go => (fun (s : Device) => { holdObjs (commitHolds s e) s with cfg := { s.cfg with load := s.cfg.load.map fun g => { g with holds := commitHolds s e } } })
            (beginCommit 0 k s)
        | .no st _ => copyFailed st (endSes k s)
        | .wait => s
      else rejudge k s

/-! ## The commit point -/

/-- Beds and cores that step 1 of R463 stops have stopped. -/
def targetsQuiet (s : Device) (e : CfgSes) : Bool :=
  imgKind e.bytes = 1 || ((ownBeds s 0).all (outOfService s) && (coreTargets s e.bytes).all fun c => (coreAt s c.1).st = .idle)

/-- A core takes its memories and settings; the loader's writes end reservations on its data memory (R245). -/
def commitCore (s : Device) (c : Nat × Bool × List Byte) : Device :=
  let b := c.2.2
  let boot := leAt b 0 4
  let io := leAt b 4 1
  let put (cls size : Nat) (d : List Byte) (s : Device) : Device :=
    let a := arrayAt s cls c.1
    setArray cls c.1 (if a.dec.isEmpty then { Coded.filled with data := Sparse.writeBytes .empty 0 0 d } else a.writeBytes 0 (sliceBytes d 0 size)) s
  let s : Device := { s with trl := { s.trl with resvs := s.trl.resvs.filter fun r => r.stop ≠ 2 + c.1 } }
  let s := put 2 131072 ((b.drop 65552).take 131072) (put 1 65536 ((b.drop 16).take 65536) s)
  setCore c.1 { coreAt s c.1 with
    bootPc := BitVec.ofNat 16 boot, bootVbase := BitVec.ofNat 16 (boot / 2 ^ 16), enL := bitAt io 0, enU := bitAt io 1 } s

def applySection (s : Device) (x : Section × List Byte) : Device :=
  match x.1.type with
  | 3 => (List.range 14).foldl (fun s l =>
      modLink l (fun k => { k with fab0 := leAt x.2 l 1 % 16, fab1 := leAt x.2 l 1 / 16 }) s) s
  | 4 => setPlot x.1.target (fun p => { p with portAddr := leAt x.2 0 8 }) s
  | _ => s

/-- Block 5 of a plot takes the stream digest (R469, R495). -/
def measure5 (p : Nat) (digest : List Byte) (s : Device) : Device :=
  setPlot p (fun x => { x with meas5 := Config.sha384 ((if x.meas5.isEmpty then List.replicate 48 0 else x.meas5) ++ digest) }) s

/-- The device enters USER (R465): commits that wait on DONE start. -/
def startSes (k : Nat) (s : Device) : Device :=
  match sesAt s k with
  | some e => endSes k (e.cores.foldl enableCore (startBeds e.beds s))
  | none => s

def enterUser (s : Device) : Device :=
  let s := { s with mgmt := { s.mgmt with dev := .user }, cfg := { s.cfg with since := none, ready := none }, flt := { s.flt with histRun := false } }
  let s := selfRec 0x01 0 0x800C 0 0 0 s
  (entries s).foldl (fun s e => if e.2.st = .waitingStart ∧ e.2.start = 1 then startSes e.1 s else s) s

/-- DONE reads high: no device pulls it (R465). -/
def doneHigh (s : Device) : Bool := !s.cfg.doneHeld && !s.cfg.others

/-- The 1 µs filter follows the line. -/
def doneFilter (s : Device) : Device :=
  { s with cfg := { s.cfg with since := if doneHigh s then s.cfg.since.or (some (devNs s)) else none } }

/-- A full image passes its commit point (R463, R465): settings of every section, and DONE. -/
def fullCommitted (e : CfgSes) (named : List Nat) (s : Device) : Device :=
  let omitted := (ownBeds s 0).filter fun n => !named.contains n
  let s := omitted.foldl (fun s n => discardConfig n s) s
  let s := { s with cfg := { s.cfg with initDone := true, ready := none, loadDue := false
                                        golden := if e.path = 3 then BitVec.ofNat 2 ((s.cfg.load.map (·.copy)).getD 0 + 1) else s.cfg.golden } }
  if s.mgmt.dev = .ready then
    doneFilter { s with cfg := { s.cfg with doneHeld := false, ignored := s.cfg.ignored || e.start = 2 } }
  else s

/-- The golden load is over: its command is answered (R472). -/
def goldenEnd (k : Nat) (s : Device) : Device :=
  match s.cfg.load with
  | none => s
  | some g =>
    let s := dropObjs g.holds { s with cfg := { s.cfg with load := none } }
    match g.cmd.bind fun i => inProgress i s with
    | some p => finish p stOk [] (cfgSelf (csidOf s k) 0x0208 0 0 0 (some 0) s)
    | none => s

/-- A golden load that awaited the end of a commit (R470). -/
def afterCommit (s : Device) : Device :=
  if s.cfg.loadDue ∧ !(entries s).any (fun e => e.2.st = .applying) then goldenAuto s else s

/-- COMMIT_POINT of an entry (R463). DEDUCED (log 100). -/
def commitPoint (k : Nat) (s : Device) : Device :=
  match sesAt s k with
  | none => s
  | some e =>
    if e.st ≠ .applying ∨ !targetsQuiet s e then s else
    let b := e.bytes
    let beds := bedTargets s b
    let cores := coreTargets s b
    let full := imgKind b = 0
    let xs := imgBodies s b
    let frames := beds.map fun t => (t.bed, newFrames s t.bed t.merge t.frames)
    let s := frames.foldl (fun s t => commitBed t.1 t.2 s) s
    let s := cores.foldl commitCore s
    let s := xs.foldl applySection s
    let s := measure5 (imgPlot b) (imgDigest b) s
    let s := if full then fullCommitted e (beds.map (·.bed)) s else s
    let s := modSes k (fun e => { e with st := .waitingStart, beds := beds.map (·.bed)
                                         cores := (cores.filter (·.2.1)).map (·.1) }) s
    let s := match commitCmd s k with
      | some p => finish p stOk [] s
      | none => s
    let s := if e.path = 3 then goldenEnd k s else s
    let s := if e.start = 0 then startSes k s else s
    afterCommit s

/-- R468: a commit ends with BUSY; rewritten beds keep no configuration and the session returns to VERIFIED. -/
def disturbCommit (k : Nat) (s : Device) : Device :=
  match sesAt s k with
  | none => s
  | some e =>
    if e.st ≠ .applying then s else
    let s := (bedTargets s e.bytes).foldl (fun s t => discardConfig t.bed s) s
    let s := modSes k (fun e => { e with st := .verified }) s
    let s := match commitCmd s k with
      | some p => finish p stBusy [] s
      | none => s
    afterCommit (if e.path = 3 then copyFailed stBusy (endSes k s) else s)

/-- A policy action or an ownership change concerns these objects (R468). -/
def disturb (objs : List Obj) (s : Device) : Device :=
  (entries s).foldl (fun s e =>
    if e.2.st = .applying ∧ (commitHolds s e.2).any objs.contains then disturbCommit e.1 s else s) s

/-! ## User mode and starts -/

/-- DONE has read high for 1 µs (R465). -/
def doneHighRow (s : Device) : Device :=
  match s.cfg.since with
  | some t => if s.mgmt.dev = .ready ∧ !s.cfg.ignored ∧ doneHigh s ∧ t + 1000 ≤ devNs s then enterUser s else s
  | none => s

/-- Another device pulls or releases DONE; in USER the line is not sampled (R465). -/
def doneLine (others : Bool) (s : Device) : Device :=
  let s := { s with cfg := { s.cfg with others } }
  if s.mgmt.dev = .user then s else doneFilter s

/-- The armed start fires (R402, R466). -/
def startFire (s : Device) : Device :=
  if !startDue s then s
  else
    let s := { s with time := { s.time with startAt := none } }
    let ks := ((entries s).filter fun e => e.2.st = .waitingStart && e.2.start = 2).map (·.1)
    if ks.isEmpty then raise cfgSrc 0 0x1C 0 { s with cfg := { s.cfg with missed := true } }
    else
      let s := ks.foldl (fun s k => startSes k s) s
      if s.mgmt.dev = .ready ∧ s.cfg.ignored then enterUser s else s

/-! ## CFG_ABORT (R467) -/

/-- CFG_ABORT. DEDUCED (log 99). -/
def opCfgAbort : OpSpec where
  code := 0x0204
  plenOk := (· = 4)
  session := true
  early := false
  late := never
  refusal := fun c s =>
    let id := leAt c.pl 0 2
    if !zeroAt c.pl 2 2 then some stBadParam
    else if id = 0xFFFF then none
    else (sesRefusal c s id).or (match sesOf s id with
      | some (_, e) => if abortBarred s e then some stBusy else none
      | none => none)
  records := fun c s => if leAt c.pl 0 2 = 0xFFFF ∧ s.time.startAt.isNone then 0 else 1
  run := fun c s =>
    let id := leAt c.pl 0 2
    if id = 0xFFFF then
      if s.time.startAt.isNone then { st := s, reply := some (stOk, []) }
      else
        let (b, s) := freshDigest s
        let (a, s) := freshDigest s
        let s := { s with time := { s.time with startAt := none } }
        { st := almMake { origin := instOrigin c.inst, principal := principalOf c, objClass := 0x10, objId := 0xFFFF, action := c.op, status := 0, before := b, after := a } none s
          reply := some (stOk, []) }
    else match sesOf s id with
      | some (k, e) =>
        let (b, s) := freshDigest s
        let (a, s) := freshDigest s
        let s := cfgRec c k e.plot b a s
        let s := match commitCmd s k with
          | some p => finish p stBusy [] s
          | none => s
        let s := abortSes k s
        { st := if e.path = 3 then { s with cfg := { s.cfg with load := none } } else s, reply := some (stOk, []) }
      | none => { st := s, reply := some (stBadParam, []) }

/-! ## GOLDEN_LOAD (R472) -/

def opGoldenLoad : OpSpec where
  code := 0x0208
  plenOk := (· = 4)
  session := true
  early := false
  late := never
  refusal := fun c s =>
    if 2 < leAt c.pl 0 1 ∨ !zeroAt c.pl 1 3 then some stBadParam
    else if c.plot ≠ 0 then some stNotAuth
    else if (entries s).any (fun e => e.2.st = .applying || e.2.st = .waitingStart) ∨ s.cfg.load.isSome then some stBusy
    else if s.mgmt.dev = .user ∧ (entries s).length = 4 then some stBusy
    else if !stagingReady s ∨ (s.mgmt.dev = .user ∧ largestFree (entries s) = 0) then some stNoStaging else none
  records := fun _ _ => 1
  run := fun c s =>
    let copies := match leAt c.pl 0 1 with | 0 => [0] | 1 => [1] | _ => [0, 1]
    let (b, s) := freshDigest s
    let (a, s) := freshDigest s
    let id := ((List.range 4).find? fun k => (sesAt s k).isNone || s.mgmt.dev ≠ .user).getD 0
    let id := id + place ((genOf s id + 1) % 256) 8
    let s := almMake { origin := instOrigin c.inst, principal := principalOf c, objClass := 0x10, objId := id, action := c.op, status := 0, before := b, after := a } (some 0) s
    let s := if s.mgmt.dev = .user then s else (List.range 4).foldl (fun s k => abortSes k s) s
    { st := startLoad copies (some c.inst) (defer c [.loader] s), reply := none }

/-! ## Idle sessions and INIT_WAIT -/

def idleNs (s : Device) : Nat := (let n := (s.cfg.ctl.extractLsb' 16 16).toNat; if n = 0 then 1 else n) * 10 ^ 9

/-- SESSION_IDLE_TIMEOUT: a session has spent IDLE_TMO without a byte or a command (R459, R470). -/
def sesIdle (k : Nat) (s : Device) : Device :=
  match sesAt s k with
  | none => s
  | some e =>
    if (e.st = .receiving ∨ e.st = .rejected ∨ e.st = .verified) ∧ e.path ≠ 3 ∧ e.touched + idleNs s ≤ devNs s then
      let (b, s) := freshDigest s
      let (a, s) := freshDigest s
      let s := cfgSelf (csidOf s k) 0x800E 0 b a (some e.plot) (endSes k s)
      if e.plot = 0 ∧ s.mgmt.dev = .ready ∧ goldenAfter s.cfg.mode then goldenAuto s else s
    else s

/-- INIT_WAIT_EXPIRY: INIT_WAIT seconds have passed in READY (R470). -/
def initWait (s : Device) : Device :=
  let w := (s.cfg.ctl.extractLsb' 0 16).toNat
  match s.cfg.ready with
  | some t =>
    if s.mgmt.dev = .ready ∧ w ≠ 0 ∧ goldenAfter s.cfg.mode ∧ !s.cfg.initDone ∧ t + w * 10 ^ 9 ≤ devNs s then
      goldenAuto { s with cfg := { s.cfg with ready := none } }
    else s
  | none => s

/-! ## CFG registers (R479) -/

def cfgWidth (off : Nat) : Option (Nat × Nat) :=
  if off < 8 then some (off / 4 * 4, 32)
  else if 0x100 ≤ off ∧ off < 0x180 ∧ off % 0x20 < 0x18 then some (off / 8 * 8, 64)
  else none

def sesStNo : SesState → Nat
  | .receiving => 1 | .rejected => 2 | .verifying => 3 | .verified => 4 | .applying => 5 | .waitingStart => 6

def cfgStatus (s : Device) : Nat :=
  s.cfg.mode.toNat + bit s.cfg.doneHeld 3 + bit (doneHigh s) 4 + bit s.cfg.initDone 5 + place s.cfg.golden.toNat 6
    + bit s.time.startAt.isSome 8 + bit s.cfg.missed 9 + place (entries s).length 10

def sesState (s : Device) (k : Nat) : Nat :=
  place (genOf s k) 48 + (match sesAt s k with
    | none => 0
    | some e => sesStNo e.st + bit (decide (64 ≤ e.bytes.length) && decide (imgKind e.bytes = 0)) 3 + place e.plot 4 + place (e.path % 4) 8
        + place (e.start % 4) 10 + (match e.inst with | .mailbox ld => if e.path = 0 then place ld.val 12 else 0 | _ => 0)
        + (if e.st = .rejected then place e.status 32 else 0))

def cfgRead (s : Device) (off : Nat) : Nat :=
  if off = 0 then cfgStatus s
  else if off = 4 then s.cfg.ctl.toNat
  else
    let k := (off - 0x100) / 0x20
    match off % 0x20 with
    | 0 => sesState s k
    | 8 => ((sesAt s k).map fun e => e.bytes.length).getD 0
    | _ => ((sesAt s k).map fun e => if 64 ≤ e.bytes.length then imgTotal e.bytes else 0).getD 0

/-- CFG_STATUS and CFG_CTL; a shorter INIT_WAIT is compared with the time already spent (R470). -/
def cfgWrite (i : InitId) (blk off v : Nat) (s : Device) : Device :=
  if off = 0 then (if bitAt v 9 then { s with cfg := { s.cfg with missed := false } } else s)
  else if off = 4 then initWait (csrRecord i (blk + 4) s.cfg.ctl.toNat v { s with cfg := { s.cfg with ctl := BitVec.ofNat 32 v } })
  else s

end Sys2Proof.Machine
end

