-- ==== Sys2Proof/Machine/DebugBase.lean ====
section
/-! DEFINITION. The end of a debug session, and the freezes that lift with it (R585, R595, R597). -/
namespace Sys2Proof.Machine
open Sys2Proof

/-- Beds that a freeze pauses, or no longer pauses, follow FREEZE_CFG and the session (R595). -/
def freezeBeds (s : Device) : Device :=
  (s.beds.cells.map (·.1)).foldl (fun s n =>
    let b := bedAt s n
    if bedFrozen s n then
      if (b.st = .running ∨ b.st = .waiting) ∧ !b.clock.pauseDue then
        let s := modBed n (fun b => { b with clock := { b.clock with pauseDue := true } }) s
        if b.st = .waiting then takePause n s else s
      else s
    else if b.clock.pauseDue then releaseHold n s
    else s) s

/-- A record of a debug session (R597): origin 5, or SELF where a reset ends it. -/
def debugRec (reset : Bool) (plot action before after : Nat) (s : Device) : Device :=
  if s.dbg.vccaux && s.mgmt.up then
    almMake { origin := if reset then 0 else 5, principal := if reset then 0 else plot, objClass := 0x16, objId := plot, action,
              status := 0, before, after } (some plot) s
  else s

/-- The debug session ends (R585): cores that it halted resume, the management pairs too; monitor requests and breakpoints go, freezes
lift. DEDUCED (log 117). -/
def endDebug (reset : Bool) (s : Device) : Device :=
  match s.dbg.session with
  | none => s
  | some x =>
    let (b, s) := freshDigest s
    let (a, s) := freshDigest s
    let s := debugRec reset x.plot.val 0x0302 b a s
    let s := { s with dbg := { s.dbg with session := none, request := none, mgmtCtl := s.dbg.mgmtCtl &&& 4 } }
    let s := (s.cores.cells.map (·.1)).foldl (fun s c =>
      let s := if (coreAt s c).dbg.haltReq || (coreAt s c).dbg.halted || (coreAt s c).dbg.halting then coreResume c s else s
      let s := if (coreAt s c).dbg.monReq then monReq c false s else s
      modCore c (fun x => { x with dbg := { x.dbg with bp0En := false, bp1En := false } }) s) s
    freezeBeds s

/-- The session of plot p ends. -/
def endDebugOf (p : Nat) (s : Device) : Device :=
  if s.dbg.session.any fun x => x.plot.val = p then endDebug false s else s

end Sys2Proof.Machine
end

