-- ==== Sys2Proof/Machine/RakeOps.lean ====
section
/-! DEFINITION. The RAKE command and the events of a pass (R152 to R157). -/
namespace Sys2Proof.Machine
open Sys2Proof

/-- The arbiter of an array other than a block memory grants the rake a slot (R154). -/
def rakeSlot (cls idx : Nat) (s : Device) : Device := if cls = 0 then s else rakeSlots 1 cls idx s

/-- A word of a block memory has found no slot within 1 ms of device time: skipped and counted (R154). -/
def rakeSkip (cls idx : Nat) (s : Device) : Device :=
  match findRake s cls idx with
  | some r =>
    if cls = 0 ∧ r.done < r.len ∧ (bedAt s (idx / 48)).st = .running ∧ !noCheck s cls idx ∧ r.slotAt + 1000000 ≤ devNs s then
      putRake { r with done := r.done + arrayWord 0, skipped := satAdd 32 r.skipped 1, slotAt := devNs s } s
    else s
  | none => s

/-- RAKE_PASS_END (R156). Where nothing but the rake's priority decides its slots, what is left of the range is examined; a pass over a
memory of a running bed goes on until its micro-cycles have given it its slots. -/
def rakePassEnd (cls idx : Nat) (s : Device) : Device :=
  match findRake s cls idx with
  | none => s
  | some r =>
    let s := if cls = 0 ∧ (bedAt s (idx / 48)).st = .running then s else rakeSlots ((r.len - r.done) / arrayWord cls) cls idx s
    settleRakes s

/-- What time brings to the passes: a slot at the highest priority after 10 µs without one, the skip of a word after 1 ms (R154). -/
def rakesTick (s : Device) : Device :=
  s.rakes.foldl (fun s r =>
    if r.cls = 0 then rakeSkip 0 r.index s
    else if r.slotAt + 10000 ≤ devNs s then rakeSlots 1 r.cls r.index s
    else s) s

def opRake : OpSpec where
  code := opRakeCode
  plenOk := (· = 16)
  session := true
  early := false
  late := never
  refusal := fun c s =>
    let cls := leAt c.pl 0 1
    let idx := leAt c.pl 4 4
    let st := leAt c.pl 8 4
    let ln := leAt c.pl 12 4
    if 6 < cls ∨ 1 < leAt c.pl 1 1 ∨ !zeroAt c.pl 2 2 ∨ arrayCount cls ≤ idx ∨ st % arrayWord cls ≠ 0
        ∨ ln = 0 ∨ ln % arrayWord cls ≠ 0 ∨ arraySize cls < st + ln ∨ !rakeable s cls idx then some stBadParam
    else if c.plot ≠ 0 ∧ (3 ≤ cls ∨ arrayOwner s cls idx ≠ c.plot) then some stNotAuth
    else if (findRake s cls idx).isSome ∨ 8 ≤ s.rakes.length then some stBusy
    else none
  records := fun c _ => leAt c.pl 1 1
  run := fun c s =>
    let cls := leAt c.pl 0 1
    let idx := leAt c.pl 4 4
    let repairing := leAt c.pl 1 1 = 1
    let objc := if cls = 0 then 0x03 else if cls ≤ 2 then 0x04 else 0x01
    let obji := if cls = 0 then idx / 48 else if cls ≤ 2 then idx else 0
    let s := if repairing then cmdRecObj c objc obji s else s
    let r : Rake :=
      { cls, repairMode := repairing, index := idx, start := leAt c.pl 8 4, len := leAt c.pl 12 4, done := 0, words := 0,
        corr := 0, unc := 0, addr := 0, repaired := 0, firstCorr := none, firstBad := none, skipped := 0, tStart := devNs s,
        aborted := false, inst := c.inst, slotAt := devNs s }
    { st := defer c [.array cls 0 idx] { s with rakes := s.rakes ++ [r] }, reply := none }

end Sys2Proof.Machine
end

