-- ==== Sys2Proof/Machine/Regions.lean ====
section
/-! DEFINITION. Region and key commands, the tiller engines, and the ENC registers (R322 to R333). -/
namespace Sys2Proof.Machine
open Sys2Proof

def tillerAt (s : Device) (e : Nat) : Tiller := s.mem.tillers.getD e Tiller.reset
def setTiller (e : Nat) (t : Tiller) (s : Device) : Device :=
  { s with mem := { s.mem with tillers := modAt s.mem.tillers e fun _ => t } }
def freeTiller (s : Device) : Option Nat := (List.range 4).find? fun e => (tillerAt s e).op = .idle

/-- Wholly inside valid windows (R308). Two windows that meet end to end hold a range together. -/
def insideWindows (s : Device) (base size : Nat) : Bool :=
  let g := 2 ^ 12
  (go s base (base + size) 9) && base % g = 0
where
  go (s : Device) (a e : Nat) : Nat → Bool
    | 0 => false
    | f + 1 => decide (e ≤ a) || (match memWindow s a with
      | none => false
      | some w => go s (w.base + w.size) e f)

/-! ## REGION_INIT (R322 to R324) -/

structure InitReq where
  index : Nat
  level : Nat
  owner : Nat
  keyId : Nat
  base  : Nat
  size  : Nat
  mbase : Nat
  rmask : Nat
  wmask : Nat
  rate  : Nat
  deriving DecidableEq, Repr

def initReq (b : List Byte) : InitReq :=
  { index := leAt b 0 2, level := leAt b 2 1, owner := leAt b 3 1, keyId := leAt b 4 1, base := leAt b 8 8, size := leAt b 16 8,
    mbase := leAt b 24 8, rmask := leAt b 32 2, wmask := leAt b 34 2, rate := leAt b 36 4 }

/-- The areas of a new entry: data, and metadata for P2. -/
def InitReq.areas (r : InitReq) : List (Nat × Nat) :=
  [(r.base, r.size)] ++ (if r.level = 2 then [(r.mbase, metaSizeOf r.size)] else [])

/-- R308 for a new entry. -/
def InitReq.placed (s : Device) (r : InitReq) : Bool :=
  r.base % 2 ^ 21 = 0 && r.size % 2 ^ 21 = 0 && r.size ≠ 0 && r.mbase % 4096 = 0
    && r.areas.all (fun x => insideWindows s x.1 x.2)
    && pairsOk (fun x y => !overlaps x.1 x.2 y.1 y.2) (r.areas ++ ownedRanges s)

def rateOk (r : Nat) : Bool := decide (64 ≤ r) && decide (r ≤ 16000)

/-- A P2 region has no root until its fill has built the tree; the generation of its key is that of every counter block. -/
def beginRoot (i : Nat) (s : Device) : Device :=
  { s with mem := { s.mem with roots := s.mem.roots.set none i (if (regionAt s i).level = 2 then some { gen := (regionAt s i).keyGen, mac := none } else none) } }

def opRegionInit : OpSpec where
  code := 0x0401
  plenOk := (· = 48)
  session := true
  early := false
  late := never
  refusal := fun c s =>
    let r := initReq c.pl
    let k := keySlot s r.keyId
    if 1015 < r.index ∨ 2 < r.level ∨ 15 < r.owner ∨ !zeroAt c.pl 5 3 ∨ !zeroAt c.pl 40 8 ∨ (r.level ≠ 2 ∧ r.mbase ≠ 0)
        ∨ (r.wmask &&& (r.rmask ||| 2 ^ r.owner)) ≠ r.wmask ∨ !rateOk r.rate ∨ (regionAt s r.index).st ≠ .free
        ∨ !r.placed s ∨ (if r.level = 0 then r.keyId ≠ 0 else r.keyId = 0 ∨ r.keyId = 255)
        ∨ (r.level ≠ 0 ∧ (k.st = .empty ∨ k.owner ≠ r.owner)) then some stBadParam
    else if (c.plot ≠ r.owner ∧ c.plot ≠ 0) ∨ (r.level = 0 ∧ s.trust.lifecycle = .deployed) then some stNotAuth
    else if (freeTiller s).isNone ∨ heldByOther c [.region r.index] s then some stBusy
    else if r.level ≠ 0 ∧ k.st = .retiring then some stKeyBusy
    else none
  records := fun _ _ => 1
  run := fun c s =>
    let r := initReq c.pl
    let e := (freeTiller s).getD 0
    let s := cmdRecPayload c 0x0A r.index (putRegion r.index
      { Region.reset with
        st := .initialising, level := r.level, owner := r.owner, keyId := r.keyId,
        keyGen := if r.level = 0 then 0 else (keySlot s r.keyId).gen, base := r.base, size := r.size,
        metaBase := r.mbase, metaSize := if r.level = 2 then metaSizeOf r.size else 0,
        rmask := BitVec.ofNat 16 r.rmask, wmask := BitVec.ofNat 16 r.wmask, rate := r.rate } s)
    { st := setTiller e { op := .fill, region := r.index, rate := r.rate, pages := r.size / 4096, page := none, last := none } (opPlot (8 + e) c.plot (beginRoot r.index s)),
      reply := some (stOk, []) }

/-- Lines of a range become what a fill writes, and queued writes to it are superseded; reservations there end (R245). -/
def clearLines (base size : Nat) (s : Device) : Device :=
  let inside (ch line : Nat) : Bool :=
    match deviceAddr s ch (line * 64) with
    | some a => decide (base ≤ a ∧ a < base + size)
    | none => false
  { s with
    mem := { s.mem with
      lines := s.mem.lines.filterCells fun k _ => !inside (k / 2 ^ 29) (k % 2 ^ 29)
      chans := s.mem.chans.mapCells Chan.reset fun ch (c : Chan) =>
        { c with wr := c.wr.filter fun e => !inside ch e.line, held := c.held.filter fun e => !inside ch e.line }
      cache := s.mem.cache.filter fun c => !decide (base ≤ c.line * 64 ∧ c.line * 64 < base + size)
      unread := s.mem.unread.filter fun d => !decide (base ≤ d * 64 ∧ d * 64 < base + size) }
    trl := { s.trl with resvs := s.trl.resvs.filter fun r => !(decide (r.stop < 2) && decide (base ≤ r.line * 64 ∧ r.line * 64 < base + size)) } }

/-- What remains of freed ranges outside a range that a fill writes. -/
def trimRemnant (base size : Nat) (r : Nat × Nat) : List (Nat × Nat) :=
  if overlaps r.1 r.2 base size then
    (if r.1 < base then [(r.1, base - r.1)] else []) ++ (if base + size < r.1 + r.2 then [(base + size, r.1 + r.2 - (base + size))] else [])
  else [r]

def clearArea (base size : Nat) (s : Device) : Device :=
  let s := clearLines base size s
  { s with mem := { s.mem with remnants := s.mem.remnants.flatMap (trimRemnant base size) } }

/-- Fill renewals of n pages from a page on: zero data with MAJOR 0, the MAC lines and the counter blocks (R319). DESIGN CHOICE (log 144). -/
def fillPages (r : Region) (page n : Nat) (s : Device) : Device :=
  let s := clearArea (r.base + page * 4096) (n * 4096) s
  if r.level = 2 then clearArea (r.nodeAddr 0 page) (n * 64) (clearArea (r.metaBase + page * 512) (n * 512) s) else s

/-- The tree over the counter blocks is built, and its root placed (R324). -/
def buildTree (r : Region) (s : Device) : Device :=
  if r.level = 2 then clearArea (r.levelBase 1) (r.metaBase + r.metaSize - r.levelBase 1) s else s

/-- A fill ends: the pages that are left are written, the tree is built, and the region becomes ACTIVE (R324). -/
def fillDone (e : Nat) (s : Device) : Device :=
  let t := tillerAt s e
  let r := regionAt s t.region
  if t.op ≠ .fill ∨ r.st ≠ .initialising then s else
  let s := buildTree r (fillPages r r.till (r.pages - r.till) s)
  let s := { s with mem := { s.mem with renews := s.mem.renews.filter fun x => x.tiller ≠ some e } }
  let s := putRegion t.region { r with st := .active, till := 0, rate := 0 } s
  doneRec 0x0401 0x0A t.region 0 0 (setTiller e Tiller.reset s)

/-! ## KEY_ROTATE (R325 to R328) -/

def opKeyRotate : OpSpec where
  code := 0x0307
  plenOk := (· = 12)
  session := true
  early := false
  late := never
  refusal := fun c s =>
    let i := leAt c.pl 0 2
    let k := leAt c.pl 4 1
    let r := regionAt s i
    let slot := keySlot s k
    if 1015 < i ∨ !zeroAt c.pl 2 2 ∨ !zeroAt c.pl 5 3 ∨ k = 0 ∨ k = 255 ∨ !rateOk (leAt c.pl 8 4) ∨ r.st = .free ∨ r.level = 0
        ∨ slot.st = .empty ∨ k = r.keyId ∨ slot.owner ≠ r.owner then some stBadParam
    else if c.plot ≠ r.owner ∧ c.plot ≠ 0 then some stNotAuth
    else if 2 ^ 34 < r.size then some stTooLarge
    else if r.st = .poisoned then some stPoisoned
    else if r.st ≠ .active ∨ (freeTiller s).isNone ∨ heldByOther c [.region i] s then some stBusy
    else if slot.st = .retiring then some stKeyBusy
    else none
  records := fun _ _ => 1
  run := fun c s =>
    let i := leAt c.pl 0 2
    let k := leAt c.pl 4 1
    let rate := leAt c.pl 8 4
    let e := (freeTiller s).getD 0
    let s := cmdRecPayload c 0x0A i s
    let s := putRegion i { regionAt s i with st := .rotating, newKeyId := k, newGen := (keySlot s k).gen, till := 0, rate } s
    { st := setTiller e { op := .rotation, region := i, rate, pages := (regionAt s i).size / 4096, page := none, last := none } (opPlot (8 + e) c.plot s),
      reply := some (stOk, []) }

/-! ## The tiller engines (R319, R324, R327) -/

/-- Requests of an engine over a range, 256 bytes each (R239, R327). DESIGN CHOICE (log 145). -/
def tillerReqs (base size : Nat) : List (BitVec 48) := (List.range (size / 256)).map fun k => BitVec.ofNat 48 (base + k * 256)

/-- The parts of a page that a renewal reads and writes: its data, and for P2 its MAC lines. -/
def pageParts (r : Region) (page : Nat) : List (BitVec 48) :=
  tillerReqs (r.base + page * 4096) 4096 ++ (if r.level = 2 then tillerReqs (r.metaBase + page * 512) 512 else [])

/-- The engine issues its requests; `none` where it is stalled or has no FREE tag (R254, R256). -/
def tillerIssue (e : Nat) (opc : Opc) : List (BitVec 48) → Device → Option (Device × List Pkt)
  | [], s => some (s, [])
  | a :: as, s =>
    match issue false opc .xload { init := tillerInit e, tag := none, enters := false, odd := none, addr := a, len := 3, bcnt := 255, data := [],
                                   opA := 0, opB := 0 } s with
    | none => none
    | some (s, p) => (tillerIssue e opc as s).map fun x => (x.1, p :: x.2)

/-- The engine's requests are answered. -/
def tillerAnswered (ps : List Pkt) (s : Device) : Device :=
  ps.foldl (fun s p => (arrive false { req := p, rcode := rcOkay, data := [] } s).1) s

/-- The writes of a renewal: issued and answered as it ends. -/
def tillerWrites (e : Nat) (r : Region) (page : Nat) (s : Device) : Device :=
  match tillerIssue e .write (pageParts r page) s with
  | some (s, ps) => tillerAnswered ps s
  | none => s

/-- The region is one that the engine works on. -/
def tilling (t : Tiller) (r : Region) : Bool :=
  match t.op with
  | .idle => false
  | .fill => r.st = .initialising
  | .rotation => r.st = .rotating

/-- The lines that step 2 of a renewal reads. -/
def renewalLines (s : Device) (t : Tiller) (r : Region) (page : Nat) : List Nat :=
  if t.op = .fill then []
  else (r.lines page ++ (if r.level = 2 then r.macLines page ++ (missing s r page).map (·.addr) else [])).map (· / 64)

/-- TILLER_RENEWAL_START: the interval of 4,096 / RATE µs has passed (R327); recorded lines are snooped first (R412), and a page that an
overflow renewal holds is waited for (R321). -/
def renewalStart (e : Nat) (s : Device) : Device :=
  let t := tillerAt s e
  let r := regionAt s t.region
  let early := match t.last with
    | some l => decide (devNs s * t.rate < l * t.rate + 4096 * 1000)
    | none => false
  if !tilling t r || t.page.isSome || early || decide (t.pages ≤ r.till) || pageLocked s (r.base + r.till * 4096) then s
  else
    let es := if t.op = .rotation then recordedIn (r.base + r.till * 4096) 4096 s else []
    if !es.isEmpty then snoopAll es s
    else match tillerIssue e .read (if t.op = .rotation then pageParts r r.till else []) s with
      | none => s
      | some (s, ps) =>
        let x : Renewal := { id := s.mem.nextTxn, region := t.region, page := r.till, tiller := some e, keyId := (r.keyFor r.till).1,
                             under := if t.op = .rotation then (r.newKeyId, r.newGen) else (r.keyId, r.keyGen), reads := Reads.of (renewalLines s t r r.till), bad := [], carry := [], answer := none, tags := ps }
        let s := setTiller e { t with page := some r.till, last := some (devNs s) }
          { s with mem := { s.mem with nextTxn := s.mem.nextTxn + 1, renews := s.mem.renews ++ [x] } }
        stepRenewal x s

/-- TILL reaches N (R328). -/
def rotationDone (e : Nat) (s : Device) : Device :=
  let t := tillerAt s e
  let r := regionAt s t.region
  let s := putRegion t.region { r.settled with st := .active, keyId := r.newKeyId, keyGen := r.newGen, till := 0 } s
  doneRec 0x0307 0x0A t.region 0 0 (setTiller e Tiller.reset s)

/-- A P1 page is written under the new key from the data as read; a line that could not be read stays meaningless (R319, R320). -/
def renewP1 (x : Renewal) (s : Device) : Device :=
  let r := regionAt s x.region
  let s := x.bad.foldl (fun s _ => raise (.hub 8) 2 0xFF x.region s) s
  let s := resealP1 r x.page x.under.1 (fun a => (x.reads.at a).getD zeroLine) s
  (r.lines x.page).foldl (fun s a => breakResvs (memStop (((memWindow s a).map fun w => (w.map a).1).getD 0)) (tillerInit (x.tiller.getD 0)) (a / 64) s) s

/-- TILL advances, and the engine goes on or is done. An engine whose region is no longer its own stops (R330). -/
def advance (e page : Nat) (s : Device) : Device :=
  let t := tillerAt s e
  let r := regionAt s t.region
  if !tilling t r then setTiller e Tiller.reset s
  else
    let s := setTiller e { t with page := none } (putRegion t.region { r with till := page + 1 } s)
    if page + 1 < t.pages then s
    else if t.op = .rotation then rotationDone e s else fillDone e s

/-- A renewal of an engine whose lines have come: the page is renewed, the engine's requests are answered, TILL advances. -/
def renewed (e : Nat) (x : Renewal) (s : Device) : Device :=
  let t := tillerAt s e
  let r := regionAt s x.region
  let ends (s : Device) : Device := advance e x.page (tillerWrites e r x.page (tillerAnswered x.tags (dropRenewal x.id s)))
  match t.op with
  | .idle => dropRenewal x.id s
  | .fill => ends (fillPages r x.page 1 s)
  | .rotation =>
    if r.level = 2 then
      match renewP2 x s with
      | (s, some ls) => setRenewal { x with reads := x.reads.further ls } s
      | (s, none) => if s.mem.tillers.any fun y => y.op = .rotation && y.region = x.region then ends s else s
    else ends (renewP1 x s)

/-- TILLER_RENEWAL_COMPLETE: a page's renewal whose lines have all come is carried out; the lock is released and waiting requests proceed. -/
def renewalComplete (e page : Nat) (s : Device) : Device :=
  match s.mem.renews.find? fun x => x.tiller = some e && x.page = page with
  | none => s
  | some x => if renewalReady s x then memSettle (renewed e x s) else s

/-! ## KEY_RETIRE (R329, R330) -/

/-- The regions that a retirement frees. -/
def Retire.covers (x : Retire) (i : Nat) (r : Region) : Bool :=
  r.st ≠ .free && (if x.keyId = 0 then i = x.index && r.level = 0 else r.keyId = x.keyId)

def retired (x : Retire) (s : Device) : List (Nat × Region) := (validRegions s).filter fun e => x.covers e.1 e.2

/-- Steps 1 and 2 of R330, and the snoops of R412. -/
def beginRetire (x : Retire) (s : Device) : Device :=
  let rs := retired x s
  let s := if x.keyId = 0 then s else setKey x.keyId { keySlot s x.keyId with st := .retiring } s
  let s := rs.foldl (fun s e => putRegion e.1 { e.2.settled with st := .retiring } s) s
  let s := { s with mem := { s.mem with tillers := s.mem.tillers.map fun y =>
    if y.op ≠ .idle && y.page.isNone && rs.any (fun e => e.1 = y.region) then Tiller.reset else y } }
  let s := failTxns (fun t => rs.any fun e => t.region = some e.1) rcDenied s
  let s := purgeCache (fun a => rs.any fun e => e.2.holdsMeta a) s
  let inside (ch line : Nat) : Bool :=
    match deviceAddr s ch (line * 64) with
    | some a => rs.any fun e => e.2.holds a
    | none => false
  let s := { s with mem := { s.mem with
    chans := s.mem.chans.mapCells Chan.reset fun ch (c : Chan) =>
      let stays (w : WrEntry) : Bool := !(if x.keyId = 0 then inside ch w.line else w.keyId = x.keyId)
      { c with wr := c.wr.filter stays, held := c.held.filter stays }
    retires := s.mem.retires ++ [x] } }
  rs.foldl (fun s e => snoopAll (recordedIn e.2.base e.2.size s) s) s

def opKeyRetire : OpSpec where
  code := 0x0308
  plenOk := (· = 4)
  session := true
  early := false
  late := never
  refusal := fun c s =>
    let k := leAt c.pl 0 1
    let i := leAt c.pl 2 2
    let r := regionAt s i
    let slot := keySlot s k
    if !zeroAt c.pl 1 1 ∨ k = 255 ∨ (k ≠ 0 ∧ slot.st = .empty) ∨ (k = 0 ∧ (1015 < i ∨ r.st = .free ∨ r.level ≠ 0)) then some stBadParam
    else if c.plot ≠ 0 ∧ c.plot ≠ (if k = 0 then r.owner else slot.owner) then some stNotAuth
    else if (k ≠ 0 ∧ (validRegions s).any fun e => (e.2.st = .initialising || e.2.st = .rotating) && (e.2.keyId = k || e.2.newKeyId = k))
        ∨ (k = 0 ∧ r.st = .initialising) then some stKeyBusy
    else if heldByOther c [if k = 0 then .region i else .key k] s then some stBusy
    else none
  records := fun _ _ => 1
  run := fun c s =>
    let k := leAt c.pl 0 1
    let i := leAt c.pl 2 2
    let s := if k = 0 then cmdRecObj c 0x0A i s else cmdRecObj c 0x0B k s
    let s := defer c [if k = 0 then .region i else .key k] s
    { st := beginRetire { keyId := k, index := i, reply := true } s, reply := none }

/-- Requests and renewals in flight under a key. -/
def inFlight (s : Device) (k : Nat) : Nat :=
  (s.mem.txns.filter fun t => t.keyId = k).length
    + (s.mem.renews.filter fun x => x.keyId = k || x.under.1 = k).length

/-- The reply of a KEY_RETIRE that waits. -/
def retireReply (x : Retire) (s : Device) : Device :=
  match s.mgmt.progress.find? fun p => p.opcode = 0x0308 && p.holds.contains (if x.keyId = 0 then .region x.index else .key x.keyId) with
  | some p => finish p stOk [] s
  | none => s

/-- Steps 3 to 5 of R330, once nothing is in flight and no host holds a line. -/
def retireComplete (x : Retire) (s : Device) : Device :=
  let rs := retired x s
  let busy := (x.keyId ≠ 0 && decide (inFlight s x.keyId ≠ 0)) || (s.mem.renews.any fun y => rs.any fun e => e.1 = y.region) || rs.any fun e => !(recordedIn e.2.base e.2.size s).isEmpty
  if busy then s
  else
    let s := { s with mem := { s.mem with
      retires := s.mem.retires.filter (· ≠ x)
      remnants := s.mem.remnants ++ (rs.filter fun e => decide (e.2.level ≠ 0)).flatMap fun e => (e.2.base, e.2.size) :: (if e.2.level = 2 then [(e.2.metaBase, e.2.metaSize)] else [])
      roots := rs.foldl (fun m e => m.set none e.1 none) s.mem.roots
      cache := s.mem.cache.filter fun c => !rs.any fun e => e.2.holdsMeta (c.line * 64) } }
    let s := rs.foldl (fun s e => putRegion e.1 Region.reset s) s
    let s := if x.keyId = 0 then s else
      setKey x.keyId { KeySlot.reset with gen := ((keySlot s x.keyId).gen + 1) % 16 } s
    if x.reply then retireReply x s else s

/-- KEY_RETIRE_COMPLETE, for a key or, with key 0, a region. -/
def retireDone (k i : Nat) (s : Device) : Device :=
  match s.mem.retires.find? fun x => x.keyId = k && (k ≠ 0 || x.index = i) with
  | none => s
  | some x => retireComplete x s

/-! ## ENC registers (R333) -/

def encWidth (off : Nat) : Option (Nat × Nat) :=
  if off = 0 then some (0, 32)
  else if 8 ≤ off ∧ off < 0x20 then some (off / 8 * 8, 64)
  else if 0x1000 ≤ off ∧ off < 0x1800 then some (off / 8 * 8, 64)
  else if 0x2000 ≤ off ∧ off < 0x2040 then some (off / 8 * 8, 64)
  else if 0x10000 ≤ off ∧ off < 0x20000 then some (off / 8 * 8, 64)
  else none

def slotStNo : SlotSt → Nat
  | .empty => 0 | .installed => 1 | .retiring => 2

def keyUsers (s : Device) (k : Nat) : Nat :=
  ((validRegions s).filter fun e => k ≠ 0 && (e.2.keyId = k || e.2.newKeyId = k)).length

def tillOpNo : TillOp → Nat
  | .idle => 0 | .fill => 1 | .rotation => 2

def encRead (s : Device) (off : Nat) : Nat :=
  if off = 0 then
    bit s.mem.rtReady 0 + place (maskOf (s.mem.tillers.map fun t => t.op ≠ .idle)) 4 + place (validRegions s).length 8
  else if off = 8 then (if s.mem.rtReady then s.mem.rtBase else 0)
  else if off = 0x10 then
    s.mem.metaCorr + place s.mem.dataInteg 16 + place s.mem.metaInteg 24 + place s.mem.ccCorr 32 + place s.mem.ccUnc 48
  else if off = 0x18 then s.mem.renewals
  else if off < 0x1800 then
    let k := (off - 0x1000) / 8
    let x := keySlot s k
    if k = 0 then 0
    else (if k = 255 then bit s.mem.rtReady 0 else slotStNo x.st) + place x.owner 4 + place (x.gen % 16) 8 + place (keyUsers s k) 16 + place (inFlight s k % 65536) 32
  else if off < 0x2040 then
    let t := tillerAt s ((off - 0x2000) / 16)
    if off % 16 = 0 then tillOpNo t.op + place t.region 4 + place t.rate 16
    else if t.op = .idle then 0 else (regionAt s t.region).till + place t.pages 32
  else leAt (regionAt s ((off - 0x10000) / 64)).bytes (off % 64) 8

end Sys2Proof.Machine
end

