-- ==== Sys2Proof/Machine/Retention.lean ====
section
/-! DEFINITION. The retention SRAM of the debug island (R577, R578), and what the hub writes there: the last fault, the
almanac state and tail (R519), the anchors (R582). -/
namespace Sys2Proof.Machine
open Sys2Proof

/-- The code of a lifecycle state (R624). -/
def lifecycleNo : Lifecycle → Nat
  | .blank => 0 | .provisioned => 1 | .deployed => 2 | .rma => 3 | .decommissioned => 4

/-- Bytes written by the hub, with their check bits; nothing is written while the island has no supply. -/
def retWrite (off : Nat) (d : List Byte) (s : Device) : Device :=
  setArray 6 0 ((arrayAt s 6 0).writeBytes off d) s

/-- A read by the hub (R578): C1 for a CORRECTED byte; a worse one raises C2 and makes the area invalid. -/
def retRead (off n : Nat) (s : Device) : Device × Option (List Byte) :=
  let l := (arrayAt s 6 0).readBytes off n
  (reportRead 6 0 off l s, if anyBad l then none else some (dataOf l))

/-- The VALID bits as the hub reads them; a damaged header makes every area invalid. -/
def retValid (s : Device) : Device × Nat :=
  match retRead 0 64 s with
  | (s, some h) => (s, if h.take 4 = [0x4B, 0x56, 0x52, 0x54] then leAt h 4 2 else 0)
  | (s, none) => (s, 0)

/-- The header, with these VALID bits. -/
def retHeader (valid : Nat) (s : Device) : Device :=
  retWrite 0 ([0x4B, 0x56, 0x52, 0x54] ++ leBytes 2 valid ++ leBytes 1 (lifecycleNo s.trust.lifecycle)
    ++ List.replicate 9 0 ++ deviceIdBytes ++ List.replicate 32 0) s

/-- An area has been written: its VALID bit is set, or cleared. -/
def retMark (k : Nat) (on : Bool) (s : Device) : Device :=
  let (s, v) := retValid s
  retHeader (if on then v ||| 2 ^ k else v - bit (bitAt v k) k) s

/-- The last-fault record (R535, R541). -/
def retLastFault (r : FltRec) (s : Device) : Device :=
  retMark 0 true (retWrite 0x40 (r.bytes ++ List.replicate 32 0) { s with flt := { s.flt with lastFault := some r } })

/-- Up to the last 256 unacknowledged records (R519). -/
def almTail (s : Device) : List AlmRec :=
  let u := s.alm.recs.filter fun r => decide (s.alm.acked ≤ r.seq)
  u.drop (u.length - 256)

/-- The copy of R519: the open record closes first, so that the tail is complete. -/
def retAlmanac (s : Device) : Device :=
  let s := closeOpen s
  let t := almTail s
  let first := (t.head?.map (·.seq)).getD s.alm.next
  let s := retWrite 0x80 (leBytes 8 s.alm.next ++ leBytes 8 s.alm.chain ++ leBytes 8 s.alm.epoch
    ++ leBytes 4 s.policy.floor.toNat ++ leBytes 8 first ++ leBytes 2 t.length ++ List.replicate 26 0) s
  let s := retWrite 0x4000 (t.flatMap AlmRec.bytes) s
  retMark 2 true (retMark 1 true s)

/-- Anchor entry p (R582). -/
def retAnchor (p : Nat) (d : List Byte) (s : Device) : Device := retMark 5 true (retWrite (0x100 + 48 * p) d s)

/-- A record as read back from the buffer or the tail. -/
def parseRec (b : List Byte) : AlmRec :=
  { seq := leAt b 0 6, origin := leAt b 6 2, time := leAt b 8 8, principal := leAt b 16 4, objClass := leAt b 20 1,
    objId := leAt b 21 3, action := leAt b 24 2, status := leAt b 26 2, before := leAt b 28 8, after := leAt b 36 8,
    chain := leAt b 44 8, tb0ns := leAt b 52 4, tb0sec := leAt b 56 4, flags := leAt b 60 2, count := leAt b 62 2 }

end Sys2Proof.Machine
end

