-- ==== Sys2Proof/Machine/PlotOps.lean ====
section
/-! DEFINITION. Operations on whole plots: their objects, changes of owner (R491), stops of their cores and subports, the
end of their sessions (R427), and the retirement of their keys (R494). -/
namespace Sys2Proof.Machine
open Sys2Proof

/-! ## Beds under test (R562, R568) -/

/-- A bed loses its configuration and contents (R562, R563). -/
def blankBed (n : Nat) (s : Device) : Device :=
  let b := bedAt s n
  let s := setBed n { Bed.reset with
    st := b.st, cutFlag := b.cutFlag, repair := b.repair, unusable := b.unusable, byPolicy := b.byPolicy, rowCe := b.rowCe,
    rowCeSrc := b.rowCeSrc, clock := b.clock, pinOut := b.pinOut, pinEn := b.pinEn } s
  (List.range 48).foldl (fun s m => setArray 0 (n * 48 + m) (arrayAt s 0 (n * 48 + m)).fill s) s

/-- A bed of a BIST_RUN that still runs. -/
def underBist (s : Device) (n : Nat) : Bool := s.bist.run.any fun r => r.kind = 2 && r.beds.contains n

/-- A zeroisation or a change of owner ends the test of these beds: its save is discarded and it keeps no configuration (R568). -/
def bistDrop (ns : List Nat) (s : Device) : Device :=
  match s.bist.run with
  | none => s
  | some r =>
    let gone := r.beds.filter ns.contains
    let s := dropObjs (if r.kind = 1 then [] else gone.map Obj.bed) (gone.foldl (fun s n => blankBed n s) s)
    { s with bist := { s.bist with run := some { r with
        beds := r.beds.filter fun n => !ns.contains n, saves := r.saves.filter fun x => !ns.contains x.bed } } }

/-! ## The objects of a plot -/

def plotBeds (s : Device) (p : Nat) : List Nat := (List.range 384).filter fun n => bedOwner s n = p
def plotCores (s : Device) (p : Nat) : List Nat := (List.range 128).filter fun n => coreOwner s n = p
def plotLanes (s : Device) (p : Nat) : List Nat := (List.range 512).filter fun n => laneOwner s n = p
def plotEngines (s : Device) (p : Nat) : List Nat := (List.range 64).filter fun n => engineOwner s n = p
def plotKeys (s : Device) (p : Nat) : List Nat :=
  (List.range 255).filter fun k => k ≠ 0 && (keySlot s k).st ≠ .empty && (keySlot s k).owner = p
def plotRegions (s : Device) (p : Nat) : List Nat := ((validRegions s).filter fun e => e.2.owner = p).map (·.1)

def plotObjs (s : Device) (p : Nat) : List Obj :=
  (plotBeds s p).map Obj.bed ++ (plotCores s p).map Obj.core ++ (plotLanes s p).map Obj.lane ++ (plotEngines s p).map Obj.engine
    ++ (plotKeys s p).map Obj.key ++ (plotRegions s p).map Obj.region

/-! ## Ownership changes (R491, R494) -/

def clearInit (i : InitId) (s : Device) : Device := clearWord (.init i) (clearStats i s)

def giveBed (p n : Nat) (s : Device) : Device :=
  let s := { s with own := { s.own with beds := s.own.beds.set 0 n p } }
  wakePartners n (clearInit (bedInit n) (clearWord (bedSource n) (modBed n (fun b => { b with byPolicy := false }) (discardConfig n s))))

def giveCore (p c : Nat) (s : Device) : Device :=
  let s := { s with own := { s.own with cores := s.own.cores.set 0 c p } }
  clearInit (dmaInit c 1) (clearInit (dmaInit c 0) (clearInit (lsInit c) (clearWord (.core (Fin.ofNat 128 c)) s)))

def giveLane (p l : Nat) (s : Device) : Device :=
  clearWord (.lane (Fin.ofNat 512 l)) { s with own := { s.own with lanes := s.own.lanes.set 0 l p } }

/-- The counters of the engine's subports are cleared too (R381). -/
def giveEngine (p e : Nat) (s : Device) : Device :=
  let s := { s with own := { s.own with engines := s.own.engines.set 0 e p } }
  let s := clearInit (engineInit e) s
  (List.range 8).foldl (fun s k => modSub e k (fun (x : Subport) =>
    { x with txFrames := 0, txBytes := 0, rxFrames := 0, rxBytes := 0, fcsErr := 0, rxDrop := 0, fecCorr := 0, fecUnc := 0 }) s) s

/-- Beds, cores, lanes and engines pass to plot p in one step (R491). -/
def giveObjs (p : Nat) (beds cores lanes engines : List Nat) (s : Device) : Device :=
  let s := disturb (beds.map Obj.bed ++ cores.map Obj.core) s
  let s := engines.foldl (fun s e => giveEngine p e s) s
  let s := lanes.foldl (fun s l => giveLane p l s) s
  let s := cores.foldl (fun s c => giveCore p c s) s
  beds.foldl (fun s n => giveBed p n s) s

/-! ## Stopping what a plot runs -/

/-- EN of a subport is cleared and its rings stop. -/
def disableSub (e k : Nat) (s : Device) : Device :=
  if subEn (subAt s e k) then
    let s := if ringsRun s e k then stopSubport e k s else s
    modSub e k (fun (x : Subport) => { x with ctl := x.ctl &&& 0xFFFFFFFE, deferral := false }) s
  else s

def stopCores (why : Nat) (cs : List Nat) (s : Device) : Device :=
  cs.foldl (fun s c => if (coreAt s c).st = .idle ∧ !(coreAt s c).en then s else stopCore why c true s) s

def stopEngines (es : List Nat) (s : Device) : Device :=
  es.foldl (fun s e => (List.range 8).foldl (fun s k => disableSub e k s) s) s

/-- Every core of the list is IDLE or in FAULT, its EN being 0. -/
def coresQuiet (s : Device) (cs : List Nat) : Bool := cs.all fun c => (coreAt s c).st = .idle || (coreAt s c).st = .fault

/-- Rakes on arrays of a plot's beds and cores (R443): classes 0 to 2, and for plot 0 classes 3 to 6 where asked. -/
def endPlotRakes (shared : Bool) (p : Nat) (s : Device) : Device :=
  abortRakes (fun c i => (decide (c ≤ 2) && arrayOwner s c i = p) || (shared && p = 0 && decide (3 ≤ c))) s

/-- The lane leaves service: its cached entry is discarded and it goes to IDLE in electrical idle (R376). -/
def discardLane (l : Nat) (s : Device) : Device :=
  let s := stopLaneSub l s
  let s := cacheEntry l [] s
  laneAfter l (modShell (pmaId l) (fun x => Shell.ctlWrite { x.abortCal with deferral := none } false 0) s)

/-! ## Sessions (R427) -/

/-- A record of a session (R427): its plot is that to which the session is bound. DEDUCED (log 105). -/
def sessionRec (origin principal action : Nat) (x : Session) (s : Device) : Device :=
  let (b, s) := freshDigest s
  let (a, s) := freshDigest s
  almMake { origin, principal, objClass := 0x11, objId := x.id.toNat % 2 ^ 24, action, status := 0, before := b, after := a }
    (some x.plot.val) s

def dropSession (k : Nat) (s : Device) : Device :=
  { s with mgmt := { s.mgmt with sessions := modAt s.mgmt.sessions k fun _ => none } }

/-- Session entry k ends; `origin` is that of its instance, or SELF for a reset. A session still opening makes no record. -/
def endSession (action : Nat) (self : Bool) (k : Nat) (s : Device) : Device :=
  match s.mgmt.sessions.getD k none with
  | none => s
  | some x =>
    let s := dropSession k s
    if x.opening then s
    else sessionRec (if self then 0 else instOrigin x.inst) (if self then 0 else x.plot.val + x.id.toNat % 2 ^ 16 * 2 ^ 16) action x s

/-- The sessions that satisfy `p` end. -/
def endSessions (action : Nat) (self : Bool) (p : Session → Bool) (s : Device) : Device :=
  (List.range 32).foldl (fun s k =>
    if (s.mgmt.sessions.getD k none).any p then endSession action self k s else s) s

def sessionsOf (p : Session → Bool) (s : Device) : Nat := (s.mgmt.sessions.filter fun x => x.any fun y => !y.opening && p y).length

/-! ## Keys -/

def wipePlotKeys (p : Nat) (s : Device) : Device := setPlot p (fun x => { x with ownerKey := none }) s

/-- Step 3 of R494: tiller operations on the plot's regions stop with TILL where it stands, and its keys and P0 regions retire. -/
def retirePlot (p : Nat) (s : Device) : Device :=
  let rs := (validRegions s).filter fun e => e.2.owner = p
  let s := rs.foldl (fun s e => stopTillers e.1 s) s
  let s := (plotKeys s p).foldl (fun s k => if (keySlot s k).st = .installed then beginRetire { keyId := k, index := 0, reply := false } s else s) s
  rs.foldl (fun s e => if e.2.keyId = 0 ∧ e.2.st ≠ .retiring then beginRetire { keyId := 0, index := e.1, reply := false } s else s) s

/-- Retirements of the plot's keys and regions that wait. -/
def retiring (s : Device) (p : Nat) : Bool :=
  s.mem.retires.any fun x => if x.keyId = 0 then (regionAt s x.index).owner = p else (keySlot s x.keyId).owner = p

end Sys2Proof.Machine
end

