-- ==== Sys2Proof/Machine/PolicyEval.lean ====
section
/-! DEFINITION. The policy table: its layout, the built-in rules, and the evaluation of an occurrence
(R498 to R506). Carrying out actions is in Machine/PolicyAct.lean. -/
namespace Sys2Proof.Machine
open Sys2Proof

/-- Largest instance number of a sensor kind (R498); `none` for an unknown kind. -/
def maxInstance : Nat → Option Nat
  | 0x01 => some 8 | 0x02 => some 8 | 0x03 => some 143 | 0x04 => some 0 | 0x05 => some 0 | 0x06 => some 13
  | 0x07 => some 23 | 0x08 => some 23 | 0x09 => some 23 | 0x0A => some 4 | 0x0B => some 383 | 0x0C => some 383
  | 0x0D => some 383 | 0x0E => some 511 | 0x0F => some 0 | _ => none

def valueKind (k : Nat) : Bool := k = 0x03 || k = 0x06

/-- A rule of 32 bytes (R501). -/
def parseRule (b : List Byte) : Rule :=
  { kind := byteAt b 0, cmp := byteAt b 1, inst := BitVec.ofNat 16 (leAt b 2 2), thresh := toSigned 32 (leAt b 4 4),
    count := leAt b 8 2, window := leAt b 12 4, action := byteAt b 16, arg := byteAt b 17,
    target := BitVec.ofNat 16 (leAt b 18 2), holdoff := leAt b 20 2 }

/-- Kinds whose sensor names a bed, a lane or a region. -/
def kindHasOwner (k : Nat) : Bool := k = 0x0A || k = 0x0B || k = 0x0C || k = 0x0D || k = 0x0E

/-- TARGET is in range for the action, and 0xFFFF is used only where the kind names such an object (R503). -/
def targetOk (r : Rule) : Bool :=
  let t := r.target.toNat
  let k := r.kind.toNat
  match r.action.toNat with
  | 0 => t = 0
  | 1 => t < 384 || t = 0xFFFF
  | 2 => t < 512 || (t = 0xFFFF && k = 0x0E)
  | 3 => t % 16 < 14 && t / 512 % 64 ≤ 32 && t / 32 % 16 < (if t % 16 < 8 then 16 else 8) && t < 2 ^ 15
  | 4 => t < 1024 || (t = 0xFFFF && k = 0x0A)
  | 5 | 6 => t < 16 || (t = 0xFFFF && kindHasOwner k)
  | 7 => t = 0
  | _ => false

/-- Every field of a rule is in range (R501, R503). -/
def ruleOk (b : List Byte) : Bool :=
  let r := parseRule b
  let k := r.kind.toNat
  (match maxInstance k with
    | none => false
    | some m => r.inst.toNat ≤ m || r.inst.toNat = 0xFFFF)
  && (if valueKind k then r.cmp = 1 || r.cmp = 2 else r.cmp = 0 && r.thresh = 0)
  && decide (1 ≤ r.count) && zeroAt b 10 2 && zeroAt b 22 10
  && (if r.action = 1 then decide (r.arg.toNat ≤ 15) else r.arg = 0)
  && targetOk r

def mkRule (kind cmp inst : Nat) (thresh : Int) (count window action arg target holdoff : Nat) : Rule :=
  { kind := BitVec.ofNat 8 kind, cmp := BitVec.ofNat 8 cmp, inst := BitVec.ofNat 16 inst, thresh, count, window,
    action := BitVec.ofNat 8 action, arg := BitVec.ofNat 8 arg, target := BitVec.ofNat 16 target, holdoff }

/-- The built-in rules 0 to 12 (R506). -/
def builtinRules : List Rule :=
  [ mkRule 0x05 0 0 0 1 0 7 0 0 0, mkRule 0x04 0 0 0 1 0 7 0 0 0, mkRule 0x01 0 0xFFFF 0 1 0 0 0 0 0,
    mkRule 0x01 0 0xFFFF 0 3 1000000 7 0 0 0, mkRule 0x02 0 0xFFFF 0 1 0 0 0 0 1000,
    mkRule 0x03 1 0xFFFF 400 4 1000 1 4 0xFFFF 100, mkRule 0x03 2 0xFFFF 360 100 20000 1 0 0xFFFF 100,
    mkRule 0x0B 0 0xFFFF 0 1 0 0 0 0 1000, mkRule 0x06 1 0xFFFF 1000 3 10000 0 0 0 1000,
    mkRule 0x08 0 0xFFFF 0 16 1000000 0 0 0 1000, mkRule 0x0A 0 0xFFFF 0 1 0 0 0 0 0,
    mkRule 0x0C 0 0xFFFF 0 1 0 0 0 0 1000, mkRule 0x0F 0 0 0 64 1000000 0 0 0 1000 ]

def rulesInForce (s : Device) : List Rule := s.policy.table.getD builtinRules

/-- The occurrence qualifies for the rule: kind, instance and threshold. -/
def Rule.matches (r : Rule) (kind inst : Nat) (v : Int) : Bool :=
  r.kind.toNat = kind && (r.inst.toNat = inst || r.inst.toNat = 0xFFFF)
    && (match r.cmp.toNat with | 1 => decide (r.thresh ≤ v) | 2 => decide (v ≤ r.thresh) | _ => true)

/-- The count of R502 at time t (ns): the new count and whether the rule fires. -/
def RuleCount.take (r : Rule) (t : Nat) (c : RuleCount) : RuleCount × Bool :=
  if t < c.h then (c, false) else
  let c := if c.n = 0 ∨ (r.window ≠ 0 ∧ r.window * 1000 ≤ t - c.s) then { c with s := t, n := 0 } else c
  let n := c.n + 1
  if r.count ≤ n then ({ c with n := 0, h := t + r.holdoff * 1000000 }, true) else ({ c with n }, false)

/-- A fired rule: its index, the rule, and the sensor that fired it. -/
structure Fired where
  idx  : Nat
  rule : Rule
  inst : Nat
  val  : Int
  deriving DecidableEq, Repr

def evalRule (kind inst : Nat) (v : Int) (t : Nat) (acc : Policy × List Fired) (x : Rule × Nat) : Policy × List Fired :=
  let (p, fs) := acc
  if x.1.matches kind inst v then
    let key := x.2 * 65536 + inst
    let (c, fires) := (p.counts.get RuleCount.zero key).take x.1 t
    let p := { p with counts := p.counts.set RuleCount.zero key c }
    if fires then ({ p with fired := p.fired.set 0 x.2 (satAdd 32 (p.fired.get 0 x.2) 1) }, fs ++ [⟨x.2, x.1, inst, v⟩])
    else (p, fs)
  else (p, fs)

/-- Inserts into descending order of action code, keeping ascending rule index within a code (R504). -/
def insertFired (f : Fired) : List Fired → List Fired
  | [] => [f]
  | g :: gs => if g.rule.action.toNat < f.rule.action.toNat then f :: g :: gs else g :: insertFired f gs

/-- Evaluates one occurrence: the policy state after it and the actions in the order of R504. For a SECURITY
event the value is the region index of the event (R502, R504; the counts of the worked example of R509). -/
def evaluate (kind inst : Nat) (v : Int) (t : Nat) (s : Device) : Device × List Fired :=
  let (p, fs) := (rulesInForce s).zipIdx.foldl (evalRule kind inst v t) (s.policy, [])
  ({ s with policy := p }, fs.foldl (fun acc f => insertFired f acc) [])

end Sys2Proof.Machine
end

