-- ==== Sys2Proof/Machine/Trust.lean ====
section
/-! DEFINITION. The device key, the lifecycle, plots and their keys (R480 to R494), and the zeroisation of R505. -/
namespace Sys2Proof.Machine
open Sys2Proof

def secSrc : Source := .hub 3

/-! ## Random bytes (R481) -/

/-- Bytes of the random generator (R481), each draw once. -/
def drawRandom (n : Nat) (s : Device) : Device × List Byte :=
  ({ s with trust := { s.trust with draws := s.trust.draws + 1 } }, sliceBytes (Config.random s.trust.draws n) 0 n)

/-! ## The owner fuse block (R485): OK_0 wrapped under KW, the two keys, ROOT -/

def blkField (s : Device) (off n : Nat) : List Byte := sliceBytes (s.trust.ownerBlk.getD []) off n

/-- The owner fuse block counts: it is burned and not invalidated. -/
def ownerBlkOn (s : Device) : Bool :=
  s.trust.ownerBlk.isSome && !s.trust.ownerInv && (s.trust.lifecycle = .provisioned || s.trust.lifecycle = .deployed)

def ownerRoot (s : Device) : List Byte := blkField s 2729 48

/-- Anchor entry 0 (R582). -/
def anchorZero (s : Device) : Device :=
  match s.trust.lifecycle with
  | .provisioned | .deployed => retAnchor 0 (ownerRoot s) s
  | .blank | .rma => retAnchor 0 (sliceBytes Config.debugRoot 0 48) s
  | .decommissioned => s

/-- Plot 0's keys come from the owner fuse block (R488). -/
def loadPlotZero (s : Device) : Device :=
  if ownerBlkOn s then
    setPlot 0 (fun x => { x with ownerKey := Config.keyUnwrap keyKw (blkField s 0 40), ecdsaPub := blkField s 40 97,
                                 mldsaPub := blkField s 137 2592, root := ownerRoot s }) s
  else s

/-- PUF_RECONSTRUCTION_COMPLETE (R480): `ok` is the check digest's outcome; with the helper data's fuse burned it fails. -/
def pufComplete (ok : Bool) (s : Device) : Device :=
  if ok ∧ s.trust.lifecycle ≠ .decommissioned then
    let s := { s with trust := { s.trust with dk := true, pufFail := false, bootKeys := true, kw := true, nonce := some s.trust.draws,
                                              draws := s.trust.draws + 1 } }
    let s := setKey 255 { KeySlot.reset with st := .installed, ka := (key255 s).take 32, kb := (key255 s).drop 32 } s
    anchorZero (loadPlotZero s)
  else raise secSrc 3 0x18 3 { s with trust := { s.trust with dk := false, pufFail := true, bootKeys := false, kw := false } }

/-! ## Zeroisation (R505) -/

/-- A slot that is zeroised becomes EMPTY, at the next generation if it was not so already (R296). -/
def wipeSlot (x : KeySlot) : KeySlot := { KeySlot.reset with gen := if x.st = .empty then x.gen else (x.gen + 1) % 16 }

/-- ZEROISE_ALL's keys: every slot, key 255, KT, KW, every owner key, every session key, DK. -/
def zeroiseAll (s : Device) : Device :=
  { s with
    mem := { s.mem with keys := s.mem.keys.mapCells KeySlot.reset fun _ x => wipeSlot x }
    trust := { s.trust with dk := false, bootKeys := false, kw := false, plots := s.trust.plots.map fun (x : PlotSt) => { x with ownerKey := none } }
    mgmt := { s.mgmt with sessions := s.mgmt.sessions.map (Option.map fun (x : Session) => { x with secret := [], script := [] }) } }

/-! ## Plots -/

/-- Objects named by bits `off` on of a payload. -/
def namedIn (pl : List Byte) (off n : Nat) : List Nat := (List.range n).filter fun i => bitAt (leAt pl (off + i / 8) 1) (i % 8)

def createBeds (pl : List Byte) : List Nat := namedIn pl 4 384
def createCores (pl : List Byte) : List Nat := namedIn pl 52 128
def createLanes (pl : List Byte) : List Nat := namedIn pl 68 512
def createEngines (pl : List Byte) : List Nat := namedIn pl 132 64

/-- KEY_QUOTA of plots 1 to 15 together. -/
def quotasGiven (s : Device) : Nat := ((s.trust.plots.drop 1).map fun x => if x.present then x.quota else 0).sum

/-- A plot's quota; plot 0 has what the others leave (PLOT_STATE). -/
def quotaOf (s : Device) (p : Nat) : Nat := if p = 0 then 254 - quotasGiven s else (plotSt s p).quota

/-- PLOT_CREATE (R489). DEDUCED (log 104). -/
def opPlotCreate : OpSpec where
  code := 0x0304
  plenOk := (· = 2881)
  session := true
  early := false
  late := never
  refusal := fun c s =>
    let pl := c.pl
    let p := leAt pl 0 1
    let q := leAt pl 2 1
    let bs := createBeds pl
    let cs := createCores pl
    let ls := createLanes pl
    let es := createEngines pl
    if p = 0 ∨ 15 < p ∨ 1 < leAt pl 1 1 ∨ q = 0 ∨ 254 < q ∨ !zeroAt pl 3 1 ∨ !zeroAt pl 140 4
        ∨ bs.any (fun n => bedOwner s n ≠ 0) ∨ cs.any (fun n => coreOwner s n ≠ 0) ∨ ls.any (fun n => laneOwner s n ≠ 0)
        ∨ es.any (fun n => engineOwner s n ≠ 0) ∨ 254 < quotasGiven s + q then some stBadParam
    else if c.plot ≠ 0 then some stNotAuth
    else if plotExists s p ∨ bs.any (fun n => !outOfService s n) ∨ cs.any (fun n => (coreAt s n).st ≠ .idle)
        ∨ ls.any (fun n => (pmaShell s n).st ≠ .idle) ∨ es.any (fun e => (List.range 8).any fun k => subEn (subAt s e k))
        ∨ heldByOther c ((bs.filter fun n => !underBist s n).map Obj.bed ++ cs.map Obj.core ++ ls.map Obj.lane ++ es.map Obj.engine) s then some stBusy
    else none
  records := fun _ _ => 1
  run := fun c s =>
    let pl := c.pl
    let p := leAt pl 0 1
    let s := setPlot p (fun _ => { PlotSt.none with
        present := true, sealed := leAt pl 1 1 = 1, quota := leAt pl 2 1, root := sliceBytes pl 144 48,
        ecdsaPub := sliceBytes pl 192 97, mldsaPub := sliceBytes pl 289 2592, meas6 := pl }) s
    let s := bistDrop (createBeds pl) s
    let s := relaxFallow 0 (giveObjs p (createBeds pl) (createCores pl) (createLanes pl) (createEngines pl) s)
    let s := { s with mgmt := { s.mgmt with ports := modAt s.mgmt.ports p fun _ => SeqWin.reset }
                      dbg := { s.dbg with freezeCfg := s.dbg.freezeCfg.set 4 p 4 } }
    { st := cmdRecObj c 0x0C p (retAnchor p (sliceBytes pl 144 48) s), reply := some (stOk, []) }

/-! ### Destroying a plot (R494) -/

/-- Steps 1 to 5 begin. -/
def tearPlot (p : Nat) (s : Device) : Device :=
  let s := endSessions 0x0305 false (fun x => x.plot.val = p) s
  let s := endDebugOf p s
  let s := (entries s).foldl (fun s e => if e.2.plot = p then endSes e.1 (unwait e.2.beds s) else s) s
  let s := endPlotRakes false p s
  let s := stopEngines (plotEngines s p) (stopCores 4 (plotCores s p) s)
  let s := (plotBeds s p).foldl (fun s n => discardConfig n (makeFallow false n s)) (bistDrop (plotBeds s p) s)
  let s := (plotLanes s p).foldl (fun s l => discardLane l s) s
  let s := retirePlot p s
  let s := (validRegions s).foldl (fun s e =>
    if e.2.owner = p then s
    else putRegion e.1 { e.2 with rmask := e.2.rmask &&& ~~~(1#16 <<< p), wmask := e.2.wmask &&& ~~~(1#16 <<< p) } s) s
  setPlot p (fun x => { x with torn := true }) s

/-- The port still owes logical device p a response (R406). -/
def ldOwes (s : Device) (p : Nat) : Bool :=
  s.trl.net.any (fun x => x.init = cxlInit p) || s.trl.waiting.any (fun x => x.pkt.init = cxlInit p)
    || s.mem.txns.any (fun x => x.pkt.init = cxlInit p) || s.trl.rsps.any (fun x => x.req.init = cxlInit p)

/-- Everything that steps 1 to 5 began has ended. -/
def plotQuiet (s : Device) (p : Nat) : Bool :=
  (plotBeds s p).all (outOfService s) && coresQuiet s (plotCores s p)
    && (plotLanes s p).all (fun l => (pmaShell s l).st = .idle || (pmaShell s l).st = .fault)
    && !retiring s p && !ldOwes s p

/-- Step 6, and the reply. -/
def buryPlot (p : Nat) (s : Device) : Device :=
  let s := giveObjs 0 (plotBeds s p) (plotCores s p) (plotLanes s p) (plotEngines s p) s
  let s := retAnchor p (List.replicate 48 0) (setPlot p (fun _ => PlotSt.none) s)
  let s := { s with mgmt := { s.mgmt with ports := modAt s.mgmt.ports p fun _ => SeqWin.reset
                                          replies := s.mgmt.replies.filter fun x => x.1 ≠ .fabric (Fin.ofNat 16 p) } }
  match s.mgmt.progress.find? fun x => x.opcode.toNat = 0x0305 && leAt x.pkt.payload 0 1 = p with
  | some x => finish x stOk [] s
  | none => s

/-- Plots being destroyed go on: once no command of the plot is in progress (R436), and once all has stopped. -/
def settlePlots (s : Device) : Device :=
  (List.range 16).foldl (fun s p =>
    let x := plotSt s p
    if !x.dying then s
    else
      let s := if !x.torn && !s.mgmt.progress.any (fun y => y.pkt.plot.toNat % 16 = p) then tearPlot p s else s
      if (plotSt s p).torn && plotQuiet s p then buryPlot p s else s) s

def opPlotDestroy : OpSpec where
  code := 0x0305
  plenOk := (· = 4)
  session := true
  early := false
  late := never
  refusal := fun c s =>
    let p := leAt c.pl 0 1
    if p = 0 ∨ 15 < p ∨ !zeroAt c.pl 1 3 ∨ !plotExists s p then some stBadParam
    else if c.plot ≠ 0 then some stNotAuth
    else if heldByOther c [.plot p] s ∨ (plotSt s p).dying then some stBusy
    else none
  records := fun _ _ => 1
  run := fun c s =>
    let p := leAt c.pl 0 1
    let s := defer c [.plot p] (cmdRecObj c 0x0C p s)
    { st := settlePlots (setPlot p (fun x => { x with dying := true }) s), reply := none }

/-! ## Keys (R492, R493) -/

/-- The wrapping key of a KEY_INSTALL. -/
def installKey (c : Ctx) (s : Device) : Option (List Byte) :=
  match c.inst with
  | .fabric p => plotKey s p.val "kv fabric wrap"
  | _ => (sessionFor c s).map fun x => wrapKey x.2

def installed (c : Ctx) (s : Device) : Option (List Byte) :=
  (installKey c s).bind fun k => Config.keyUnwrap k (sliceBytes c.pl 4 (if leAt c.pl 1 1 = 0 then 72 else 40))

def opKeyInstall : OpSpec where
  code := 0x0306
  plenOk := (· = 76)
  session := true
  early := false
  late := never
  refusal := fun c s =>
    let pl := c.pl
    let k := leAt pl 0 1
    let form := leAt pl 1 1
    let p := leAt pl 2 1
    if 1 < form ∨ (form = 0 ∧ (k = 0 ∨ 254 < k)) ∨ (form = 1 ∧ k ≠ 0) ∨ 15 < p ∨ !plotExists s p ∨ !zeroAt pl 3 1
        ∨ (form = 1 ∧ !zeroAt pl 44 32) then some stBadParam
    else if (form = 0 ∧ c.plot ≠ p ∧ c.plot ≠ 0)
        ∨ (form = 1 ∧ (c.plot ≠ p ∨ isFabric c.inst ∨ (p = 0 ∧ s.trust.lifecycle ≠ .blank))) then some stNotAuth
    else if form = 0 ∧ (keySlot s k).st ≠ .empty then some stKeyBusy
    else if (form = 0 ∧ quotaOf s p ≤ (plotKeys s p).length) ∨ (form = 1 ∧ (plotSt s p).ownerKey.isSome) then some stBusy
    else if (installed c s).isNone then some stAuthFail
    else none
  records := fun _ _ => 1
  run := fun c s =>
    let k := leAt c.pl 0 1
    let p := leAt c.pl 2 1
    let key := (installed c s).getD []
    let gen := (keySlot s k).gen
    let (b, s) := freshDigest s
    if leAt c.pl 1 1 = 0 then
      let s := setKey k { st := .installed, owner := p, gen, ka := sliceBytes key 0 32, kb := sliceBytes key 32 32 } s
      { st := cmdRec c 0x0B k b (first8 (Config.sha384 (leBytes 1 k ++ leBytes 1 gen))) s, reply := some (stOk, []) }
    else
      let s := setPlot p (fun x => { x with ownerKey := some (sliceBytes key 0 32) }) s
      { st := cmdRec c 0x0C p b (first8 (Config.sha384 [0, 0])) s, reply := some (stOk, []) }

/-! ## Lifecycle (R485 to R487) -/

def lifecycleOf : Nat → Option Lifecycle
  | 0 => some .blank | 1 => some .provisioned | 2 => some .deployed | 3 => some .rma | 4 => some .decommissioned | _ => none

/-- The transitions of R485. -/
def mayAdvance : Lifecycle → Lifecycle → Bool
  | .blank, .provisioned | .provisioned, .deployed | .provisioned, .rma | .deployed, .rma => true
  | .decommissioned, _ => false
  | _, .decommissioned => true
  | _, _ => false

/-- The unwrapped OK_0 of a transition to PROVISIONED. DEDUCED (log 107). -/
def newOwnerKey (c : Ctx) (s : Device) : Option (List Byte) :=
  (sessionFor c s).bind fun x => Config.keyUnwrap (wrapKey x.2) (sliceBytes c.pl 4 40)

/-- The RMA transition ends: every key has retired and plots 1 to 15 are gone. -/
def settleRma (s : Device) : Device :=
  match progressOf 0x030A s with
  | none => s
  | some p =>
    if (s.trust.plots.drop 1).any (·.present) ∨ !s.mem.retires.isEmpty then s
    else
      let s := wipePlotKeys 0 { s with trust := { s.trust with lifecycle := .rma, ownerInv := true } }
      finish p stOk [] (anchorZero s)

def opLifecycle : OpSpec where
  code := 0x030A
  plenOk := fun n => n = 8 || n = 2781
  session := true
  early := false
  late := never
  refusal := fun c s =>
    let pl := c.pl
    match lifecycleOf (leAt pl 0 1) with
    | none => some stBadParam
    | some t =>
      if !mayAdvance s.trust.lifecycle t ∨ !zeroAt pl 1 3 ∨ pl.length ≠ (if t = .provisioned then 2781 else 8)
          ∨ (t ≠ .provisioned ∧ sliceBytes pl 4 4 ≠ deviceIdBytes.take 4) then some stBadParam
      else if c.plot ≠ 0 ∨ isFabric c.inst then some stNotAuth
      else if t = .provisioned ∧ (newOwnerKey c s).isNone then some stAuthFail
      else if (t = .deployed ∧ (validRegions s).any fun e => e.2.level = 0)
          ∨ ((t = .rma ∨ t = .decommissioned) ∧ anyHeld c s) ∨ heldByOther c [.plot 0] s then some stBusy
      else none
  records := fun c s => 1 + sessionsOf (fun x => x.id ≠ c.pkt.session) s
  run := fun c s =>
    let old := lifecycleNo s.trust.lifecycle
    let s := cmdRec c 0x0E 0 old (leAt c.pl 0 1) s
    let s := endDebug false (endSessions 0x030A false (fun x => x.id ≠ c.pkt.session) s)
    match lifecycleOf (leAt c.pl 0 1) with
    | some .provisioned =>
      let ok := (newOwnerKey c s).getD []
      let blk := sliceBytes (Config.keyWrap keyKw ok) 0 40 ++ c.pl.drop 44
      let s := { s with trust := { s.trust with lifecycle := .provisioned, ownerBlk := some blk } }
      let s := setPlot 0 (fun x => { x with ownerKey := some ok, ecdsaPub := blkField s 40 97, mldsaPub := blkField s 137 2592, root := ownerRoot s }) s
      { st := anchorZero s, reply := some (stOk, []) }
    | some .deployed =>
      { st := { s with trust := { s.trust with lifecycle := .deployed, trimLockAll := true }
                       dbg := { s.dbg with mgmtCtl := s.dbg.mgmtCtl &&& 3 } }, reply := some (stOk, []) }
    | some .rma =>
      let s := defer c [.device, .plot 0] s
      let s := retirePlot 0 s
      let s := (List.range 15).foldl (fun s i => setPlot (i + 1) (fun x => { x with dying := x.present }) s) s
      { st := settleRma (settlePlots s), reply := none }
    | some .decommissioned =>
      { st := raise secSrc 4 0xFF 0 (zeroiseAll { s with trust := { s.trust with lifecycle := .decommissioned } }), reply := none }
    | _ => { st := s, reply := none }

end Sys2Proof.Machine
end

