-- ==== Sys2Proof/Machine/TrustCmd.lean ====
section
/-! DEFINITION. Attestation (R495 to R497), the policy table (R500 to R508), the almanac's commands (R518 to R523), and the
SEC and ALM registers (R524). -/
namespace Sys2Proof.Machine
open Sys2Proof

/-! ## Measurements (R495) -/

/-- HUB_STEPPING (R35). -/
def hubStepping : Nat := ((List.range 8).map fun d => place (if Config.cdStep d then 2 else 1) (4 * d)).sum + place 2 32

def policyDigest (s : Device) : List Byte := if s.policy.table.isSome then s.policy.digest else sliceBytes Config.builtinDigest 0 48

/-- Measurement block `i` of plot `p`, 48 bytes. DESIGN CHOICE (log 108). -/
def measurement' (s : Device) (p i : Nat) : List Byte :=
  let x := plotSt s p
  sliceBytes (match i with
    | 1 => Config.sha384 (leBytes 1 (lifecycleNo s.trust.lifecycle) ++ deviceIdBytes ++ s.trust.ownerBlk.getD [])
    | 2 => Config.sha384 (Config.mgmtFirmware ++ leBytes 4 Config.mgmtVersion.toNat)
    | 3 => policyDigest s
    | 4 => Config.sha384 (leBytes 8 s.d2d.cap.toNat ++ leBytes 8 hubStepping ++ leBytes 4 (fittedMask s))
    | 5 => if x.meas5.isEmpty then List.replicate 48 0 else x.meas5
    | _ => Config.sha384 ((if p = 0 then s.trust.ownerBlk.getD [] else x.meas6) ++ [if x.ownerKey.isSome then 1 else 0])) 0 48

/-- CHAIN and SEQ of the latest closed record. -/
def lastSeq (s : Device) : Nat := ((s.alm.recs.getLast?).map (·.seq)).getD 0

/-- The report of R497. DESIGN CHOICE (log 109). -/
def attestReport (s : Device) (p : Nat) (nonce : List Byte) : List Byte :=
  [0x4B, 0x56, 0x41, 0x52] ++ leBytes 2 1 ++ leBytes 1 p ++ [6] ++ deviceIdBytes ++ sliceBytes nonce 0 32
    ++ leBytes 8 (devNs s) ++ leBytes 8 (lastSeq s) ++ leBytes 8 s.alm.chain
    ++ (List.range 6).flatMap fun i => leBytes 1 (i + 1) ++ List.replicate 7 0 ++ measurement' s p (i + 1)

def lastReport (s : Device) (i : Inst) : Option (List Byte) := (s.trust.reports.find? (·.1 = i)).map (·.2)

def opAttestGet : OpSpec where
  code := 0x0303
  plenOk := (· = 36)
  session := false
  early := true
  late := never
  refusal := fun c s =>
    let part := leAt c.pl 33 1
    if 2 < part ∨ !zeroAt c.pl 34 2 ∨ 15 < leAt c.pl 32 1 ∨ !plotExists s (leAt c.pl 32 1)
        ∨ (part ≠ 0 ∧ (lastReport s c.inst).isNone) then some stBadParam else none
  records := fun _ _ => 0
  run := fun c s =>
    let sig (r : List Byte) : List Byte := sliceBytes (Config.mldsaSign (Config.sha384 r)) 0 4627
    match leAt c.pl 33 1 with
    | 0 =>
      let r := attestReport s (leAt c.pl 32 1) (c.pl.take 32)
      { st := { s with trust := { s.trust with reports := (s.trust.reports.filter (·.1 ≠ c.inst)) ++ [(c.inst, r)] } },
        reply := some (stOk, r ++ sliceBytes (Config.ecdsaSign (Config.sha384 r)) 0 96) }
    | 1 => { st := s, reply := some (stOk, (sig ((lastReport s c.inst).getD [])).take 2314) }
    | _ => { st := s, reply := some (stOk, (sig ((lastReport s c.inst).getD [])).drop 2314) }

/-! ## Policy tables (R500, R507, R508) -/

def tblRules (b : List Byte) : Nat := leAt b 6 2
def tblRule (b : List Byte) (r : Nat) : List Byte := sliceBytes b (64 + 32 * r) 32

/-- The classes that R499 allows for the security instances. -/
def classesOk (b : List Byte) : Bool :=
  (List.range 5).all fun i => decide ((if i = 2 then 3 else 2) ≤ leAt b (48 + i) 1) && decide (leAt b (48 + i) 1 ≤ 4)

def tblOk (b : List Byte) : Bool :=
  b.take 4 = [0x4B, 0x56, 0x50, 0x54] && leAt b 4 2 = 1 && decide (tblRules b ≤ 256) && b.length = 4800 + 32 * tblRules b
    && zeroAt b 12 4 && classesOk b && zeroAt b 53 11 && (List.range (tblRules b)).all fun r => ruleOk (tblRule b r)

/-- The device is one that an image or a table names (R446). -/
def namesDevice (b : List Byte) (off : Nat) : Bool :=
  (Config.deviceId % 2 ^ 128 ^^^ leAt b off 16) &&& leAt b (off + 16) 16 = 0

/-- The fetch of R507, stamped with plot 0. DEDUCED (log 110). -/
def tblFetch (c : Ctx) (x : NetIn) (s : Device) : Device × Byte × List Byte :=
  let (s, rc, b, _) := busRead loaderInit 0 x (leAt c.pl 0 8) (leAt c.pl 8 4) s
  (s, rc, b)

/-- ADDR, LEN and the reserved bytes of the payload are in range. -/
def tblPayloadOk (c : Ctx) : Bool :=
  leAt c.pl 0 8 % 64 = 0 && decide (leAt c.pl 0 8 < 2 ^ 48) && zeroAt c.pl 12 4
    && decide (4800 ≤ leAt c.pl 8 4 ∧ leAt c.pl 8 4 ≤ 12992 ∧ (leAt c.pl 8 4 - 4800) % 32 = 0)

/-- What the fetch and the table's checks answer; `none` for a table that is taken, and while the fetch waits (R507). -/
def tblStatus (c : Ctx) (x : NetIn) (s : Device) : Option Nat :=
  let (t, rc, b) := tblFetch c x s
  if t.trl.stuck then none
  else if rc = rcTimeout then some stTimeout
  else if isErr rc ∨ !tblOk b then some stBadParam
  else if !namesDevice b 16 then some stWrongDevice
  else
    let off := b.length - 4736
    if !signedBy (imageKeys s 0) b off then some stAuthFail
    else if !zeroAt b (off + 4723) 13 then some stBadParam
    else if leAt b 8 4 < s.policy.floor.toNat then some stReplay
    else none

/-- The table of these bytes becomes the policy in force (R507, R508). -/
def tblTaken (c : Ctx) (b : List Byte) (s : Device) : Device :=
  let old := first8 (policyDigest s)
  let d := sliceBytes (Config.sha384 (b.take (b.length - 4736))) 0 48
  let v := BitVec.ofNat 32 (leAt b 8 4)
  cmdRec c 0x0D 0 old (first8 d) { s with policy := { s.policy with
    table := some ((List.range (tblRules b)).map fun r => parseRule (tblRule b r)), version := v, floor := v,
    classes := (List.range 5).map fun i => leAt b (48 + i) 1, digest := d, counts := .empty, fired := .empty } }

def opPolicyLoad (x : NetIn) : OpSpec where
  code := 0x0309
  plenOk := (· = 16)
  session := true
  early := false
  late := never
  refusal := fun c s =>
    if c.plot ≠ 0 ∨ isFabric c.inst then some stNotAuth
    else if heldByOther c [.policy] s then some stBusy
    else if !tblPayloadOk c then some stBadParam
    else none
  records := fun c s => if (tblFetch c x s).1.trl.stuck || (tblStatus c x s).isSome then 0 else 1
  run := fun c s =>
    let (t, _, b) := tblFetch c x s
    match tblStatus c x s with
    | some st => { st := t, reply := some (st, []) }
    | none => { st := tblTaken c b t, reply := some (stOk, []) }

/-! ## The almanac (R518 to R523) -/


/-- A byte of the buffer as it is read: what array class 5 holds differs from the records by the errors in it. -/
def almByte (s : Device) (a : Nat) : ByteRead :=
  let c := arrayAt s 5 0
  let l := c.land a
  let e := c.read a
  { e with data := e.data ^^^ recByte s.alm.recs l }

/-- The read of one record: its bytes, and whether it is damaged (R518). -/
def readRec (seq : Nat) (s : Device) : Device × List Byte × Bool :=
  let a := seq % almCap * 64
  let l := (List.range 64).map fun i => almByte s (a + i)
  let bad := anyBad l
  (if bad then raise (.hub 14) 2 0x1B seq s else reportRead 5 0 a l s, dataOf l, bad)

def readRecs (seqs : List Nat) (s : Device) : Device × List (List Byte) × Nat :=
  seqs.foldl (fun (acc : Device × List (List Byte) × Nat) q =>
    let (s, b, bad) := readRec q acc.1
    (s, acc.2.1 ++ [b], acc.2.2 + if bad then 1 else 0)) (s, [], 0)

/-- A record as plot p sees it (R521). -/
def redact (p : Nat) (r : AlmRec) (b : List Byte) : List Byte :=
  if p = 0 ∨ r.principal % 16 = p ∨ (bitAt r.flags 8 ∧ bitsAt r.flags 4 4 = p) then b
  else sliceBytes b 0 6 ++ List.replicate 38 0 ++ sliceBytes b 44 8 ++ List.replicate 8 0 ++ leBytes 2 (leAt b 60 2 ||| 8) ++ [0, 0]

/-- Closed records still in the buffer, from a SEQ on. -/
def recsFrom (s : Device) (q : Nat) : List AlmRec := s.alm.recs.filter fun r => decide (q ≤ r.seq)

/-- ALM_READ. DEDUCED (log 111). -/
def opAlmRead : OpSpec where
  code := 0x0901
  plenOk := (· = 16)
  session := true
  early := true
  late := never
  refusal := fun c _ =>
    if leAt c.pl 6 2 ≠ 0 ∨ !zeroAt c.pl 10 6 ∨ leAt c.pl 8 2 = 0 ∨ 63 < leAt c.pl 8 2 then some stBadParam else none
  records := fun _ _ => 0
  run := fun c s =>
    let rs := (recsFrom s (leAt c.pl 0 6)).take (leAt c.pl 8 2)
    let first := (rs.head?.map (·.seq)).getD s.alm.next
    let (s, bs, _) := readRecs (rs.map (·.seq)) s
    { st := s, reply := some (stOk, leBytes 8 first ++ leBytes 2 rs.length ++ List.replicate 6 0
        ++ (List.zip rs bs).flatMap fun x => redact c.plot x.1 x.2) }

def almSrc : Source := .hub 4

def opAlmSeal : OpSpec where
  code := 0x0902
  plenOk := (· = 4)
  session := true
  early := false
  late := never
  refusal := fun c s =>
    if !zeroAt c.pl 2 2 then some stBadParam
    else if c.plot ≠ 0 then some stNotAuth
    else if heldByOther c [.almanac] s then some stBusy
    else none
  records := fun _ _ => 1
  run := fun c s =>
    let s := cmdRec c 0x14 0 0 (leAt c.pl 0 2) s
    { st := raise almSrc 3 0xFF 0 { s with alm := { s.alm with sealed := true } }, reply := some (stOk, []) }

/-- The header of an export block (R523). -/
def exportHead (s : Device) (damaged first n before : Nat) : List Byte :=
  [0x4B, 0x56, 0x41, 0x58] ++ leBytes 2 1 ++ leBytes 2 damaged ++ leBytes 8 first ++ leBytes 4 n ++ List.replicate 4 0
    ++ leBytes 8 before ++ leBytes 8 s.alm.epoch ++ List.replicate 24 0

/-- The signed checkpoint after the records. -/
def exportTail (s : Device) (seq chain : Nat) : List Byte :=
  let body := deviceIdBytes ++ leBytes 8 seq ++ leBytes 8 chain ++ leBytes 8 (devNs s) ++ leBytes 12 (tb0 s).value96
    ++ leBytes 8 s.alm.epoch ++ List.replicate 4 0
  let d := Config.sha384 body
  body ++ sliceBytes (Config.ecdsaSign d) 0 96 ++ sliceBytes (Config.mldsaSign d) 0 4627 ++ List.replicate 13 0

/-- The CHAIN before record `q`: 0 at the start of an epoch; a free value where the buffer no longer holds that record. -/
def chainBefore (q : Nat) (s : Device) : Nat × Device :=
  if q = 0 then (0, s)
  else match s.alm.recs.find? (·.seq + 1 = q) with
    | some r => (r.chain, s)
    | none => let (v, s) := freeNat s; (v % 2 ^ 64, s)

def allOnes64 : Nat := 2 ^ 64 - 1

/-- Acknowledges every record up to `ack` (R522). -/
def acknowledge (ack : Nat) (s : Device) : Device :=
  if ack = allOnes64 then s else { s with alm := { s.alm with acked := Nat.max s.alm.acked (ack + 1) } }

/-- ALM_EXPORT; `fail` is an error response that the network gives to its first write. -/
def opAlmExport (fail : Option Byte) : OpSpec where
  code := 0x0903
  plenOk := (· = 24)
  session := true
  early := false
  late := fun d => d = .shutdown || d = .fatal
  refusal := fun c s =>
    let ack := leAt c.pl 12 8
    if leAt c.pl 0 8 % 64 ≠ 0 ∨ 2 ^ 48 ≤ leAt c.pl 0 8 ∨ almCap < leAt c.pl 8 4 ∨ !zeroAt c.pl 20 4
        ∨ (ack ≠ allOnes64 ∧ (match s.alm.exported with | none => true | some e => decide (e < ack)) = true) then some stBadParam
    else if c.plot ≠ 0 then some stNotAuth
    else if heldByOther c [.almanac] s then some stBusy
    else none
  records := fun _ _ => 0
  run := fun c s =>
    let s := acknowledge (leAt c.pl 12 8) s
    let rs := (recsFrom s s.alm.acked).take (leAt c.pl 8 4)
    let first := ((recsFrom s s.alm.acked).head?.map (·.seq)).getD s.alm.next
    let last := (rs.getLast?.map (·.seq)).getD first
    let ok (s : Device) (n bytes : Nat) : CmdOut := { st := s, reply := some (stOk, leBytes 8 first ++ leBytes 4 n ++ leBytes 8 bytes) }
    if rs.isEmpty then ok s 0 0
    else
      let (before, s) := chainBefore first s
      let (s, bs, damaged) := readRecs (rs.map (·.seq)) s
      let blk := exportHead s damaged first rs.length before ++ bs.flatten ++ exportTail s last ((rs.getLast?.map (·.chain)).getD 0)
      let (s, rc) := busWriteWith { NetIn.calm with fail := fail } loaderInit 0 (leAt c.pl 0 8) blk s
      if rc = rcTimeout then { st := s, reply := some (stTimeout, []) }
      else if isErr rc then { st := s, reply := some (stBadParam, []) }
      else ok { s with alm := { s.alm with exported := some (Nat.max last (s.alm.exported.getD 0)) } } rs.length blk.length

/-- RECORD_CLOSE: an open record closes when it is 1 ms old (R516). -/
def recordClose (s : Device) : Device :=
  match s.alm.opened with
  | some r => if r.time + 1000000 ≤ devNs s then closeOpen s else s
  | none => s

/-! ## SEC and ALM registers (R524) -/

def secWidth (off : Nat) : Option (Nat × Nat) :=
  if off < 12 ∨ (0x100 ≤ off ∧ off < 0x140) ∨ (0x1000 ≤ off ∧ off < 0x1400) then some (off / 4 * 4, 32) else none

def provKeys (s : Device) : Bool := s.trust.lifecycle = .blank || s.trust.lifecycle = .rma

def plotState (s : Device) (p : Nat) : Nat :=
  let x := plotSt s p
  if !x.present then 0
  else 1 + bit x.ownerKey.isSome 1 + bit x.sealed 2 + bit x.fallow 3 + bit x.zeroised 4 + place (quotaOf s p) 8
    + place (plotKeys s p).length 16

def secRead (s : Device) (off : Nat) : Nat :=
  if off = 0 then
    lifecycleNo s.trust.lifecycle + bit s.trust.dk 3 + bit s.trust.pufFail 4 + bit s.policy.table.isNone 5 + bit (provKeys s) 6
  else if off = 4 then (if s.policy.table.isSome then s.policy.version.toNat else 0)
  else if off = 8 then s.policy.floor.toNat
  else if off < 0x140 then plotState s ((off - 0x100) / 4)
  else s.policy.fired.get 0 ((off - 0x1000) / 4)

def almWidth (off : Nat) : Option (Nat × Nat) :=
  if off < 4 then some (0, 32)
  else if 8 ≤ off ∧ off < 0x30 then some (off / 8 * 8, 64)
  else if 0x30 ≤ off ∧ off < 0x34 then some (0x30, 32)
  else none

def almStatus (s : Device) : Nat :=
  let u := s.alm.unacked
  bit s.alm.sealed 0 + bit (decide (almSoft ≤ u)) 1 + bit s.alm.exhausted 2 + place (Nat.min (u - almSoft) 256) 3 + bit s.alm.opened.isSome 12

def almRead (s : Device) (off : Nat) : Nat :=
  if off = 0 then almStatus s
  else if off = 8 then s.alm.next % 2 ^ 48
  else if off = 0x10 then s.alm.acked
  else if off = 0x18 then (match s.alm.exported with | some e => e + 2 ^ 63 | none => 0)
  else if off = 0x20 then s.alm.chain
  else if off = 0x28 then s.alm.epoch
  else s.alm.lost

end Sys2Proof.Machine
end

