-- ==== Sys2Proof/Machine/Bist.lean ====
section
/-! DEFINITION. Self-test and repair (chapter "Self-test and repair"): repair records, the start-up screen, BIST_RUN, SHUTDOWN's
BIST, results, and the fuse records. -/
namespace Sys2Proof.Machine
open Sys2Proof

/-! ## Repair records (R556) -/

def rrKind (r : Nat) : Nat := bitsAt r 0 4
def rrSpare (r : Nat) : Nat := bitsAt r 4 4
def rrTarget (r : Nat) : Nat := bitsAt r 8 16
def rrElement (r : Nat) : Nat := bitsAt r 24 16
/-- The check field of a repair record. DEDUCED (log 91). -/
def rrCheck (v : Nat) : Nat := (crc16 (bitsOf 48 v)).toNat

def mkRepair (kind spare target element : Nat) : Nat :=
  let v := kind + place spare 4 + place target 8 + place element 24
  v + place (rrCheck v) 48

/-- Spares of a record's unit: one column, 2 rows, 2 bit columns, 4 rows, 2 rows of a bank, 2 wires (R555). -/
def spares : Nat → Nat
  | 1 => 1 | 2 => 2 | 3 => 2 | 4 => 4 | 5 => 2 | 6 => 2 | _ => 0

def rrFieldsOk (r : Nat) : Bool :=
  let t := rrTarget r
  let e := rrElement r
  match rrKind r with
  | 1 => decide (t < 384 ∧ e < 16) && rrSpare r = 0
  | 2 => decide (t < 18432 ∧ e < 512 ∧ rrSpare r < 2)
  | 3 => decide (t < 18432 ∧ e < 112 ∧ rrSpare r < 2)
  | 4 => decide (t < 128 ∧ e < 4096 ∧ rrSpare r < 4)
  | 5 => decide (t < 128 ∧ e / 8 < 256 ∧ rrSpare r < 2)
  | 6 => decide (t < 14 ∧ bitsAt e 1 4 < strandCount t ∧ bitsAt e 5 6 ≤ 32 ∧ e < 2 ^ 11 ∧ rrSpare r < 2)
  | 7 => rrSpare r = 0 && (decide (e = 1 ∧ t < 384) || decide (e = 2 ∧ t < 128) || decide (e = 4 ∧ t < 128))
  | _ => false

/-- A record that is read as valid. -/
def rrValid (r : Nat) : Bool := rrFieldsOk r && bitsAt r 40 8 = 0 && bitsAt r 48 16 = rrCheck (r % 2 ^ 48)

/-- The group of spares that a record draws on: its unit, with the bank or the strand. -/
def rrGroup (r : Nat) : Nat :=
  place (rrKind r) 32 + place (rrTarget r) 16 + (if rrKind r = 5 then rrElement r % 8 else if rrKind r = 6 then rrElement r % 32 else 0)

def clashes (a b : Nat) : Bool := rrKind a ≠ 7 && rrGroup a = rrGroup b && rrSpare a = rrSpare b

/-- The records in effect among these, in order: a record whose spare an earlier one uses is dropped (R558). -/
def inEffect : List Nat → List Nat → List Nat
  | acc, [] => acc
  | acc, r :: rs => inEffect (if rrValid r && !acc.any (clashes r) then acc ++ [r] else acc) rs

/-- Fuse repairs in effect, and every repair in effect. -/
def fusesOn (s : Device) : List Nat := inEffect [] s.bist.fuses
def repairsOn (s : Device) : List Nat := inEffect [] (s.bist.fuses ++ s.bist.soft)

/-- A second, different column record for a bed: the bed is unusable (R79, R558). -/
def secondColumn (rs : List Nat) (r : Nat) : Bool :=
  rrValid r && rrKind r = 1 && rs.any fun x => clashes x r && rrElement x ≠ rrElement r

/-- The lowest spare of the group of a record that none of these uses. -/
def freeSpare (rs : List Nat) (kind target element : Nat) : Option Nat :=
  (List.range (spares kind)).find? fun n => !rs.any (clashes (mkRepair kind n target element))

/-! ## Effects of repairs -/

/-- An unusable bed is UNCONFIGURED (R79, R106, R557). -/
def unusableBed (b : Bed) : Bed := { b with unusable := true, st := .unconfigured }

def withdrawUnit (r : Nat) (s : Device) : Device :=
  let t := rrTarget r
  match rrElement r with
  | 1 => modBed t unusableBed s
  | 2 => setCoreIo t { coreIoAt s t with unusable := true } s
  | _ => (List.range 4).foldl (fun s i => modLane (4 * t + i) (fun (x : Lane) => { x with retired := true }) s) s

/-- A record takes effect; `fuse` is its SOURCE. -/
def applyRepair (fuse : Bool) (s : Device) (r : Nat) : Device :=
  match rrKind r with
  | 1 => modBed (rrTarget r) (fun (b : Bed) => { b with repair := some (rrElement r, fuse) }) s
  | 7 => withdrawUnit r s
  | _ => s

/-- A soft repair, or a withdrawal, is added. -/
def addSoft (r : Nat) (s : Device) : Device := applyRepair false { s with bist := { s.bist with soft := s.bist.soft ++ [r] } } r

/-- The unit of a fault, as WITHDRAW names it. -/
def withdrawal (f : Finding) : Nat := mkRepair 7 0 f.index.val f.unit.val

def findTarget (f : Finding) : Nat := if f.kind.val = 2 ∨ f.kind.val = 3 then f.index.val * 48 + f.mem.val else f.index.val

/-- The fault source of a unit. -/
def unitSource : Nat → Nat → Source
  | 1, n => bedSource n
  | 2, n => .core (Fin.ofNat 128 n)
  | 3, n => .die (Fin.ofNat 8 n)
  | 4, n => .lane (Fin.ofNat 512 (4 * n))
  | 5, n => .die (Fin.ofNat 8 (n / 8))
  | _, n => linkSrc n

/-- The soft record that repairs a fault, if a spare is left. -/
def repairFor (s : Device) (f : Finding) : Option Nat :=
  (freeSpare (repairsOn s) f.kind.val (findTarget f) f.element.toNat).bind fun n =>
    let r := mkRepair f.kind.val n (findTarget f) f.element.toNat
    if rrValid r then some r else none

/-- A fault of the start-up screen (R560): repaired soft, or its unit withdrawn with a C2 fault. -/
def screenFault (s : Device) (f : Finding) : Device :=
  match repairFor s f with
  | some r => addSoft r s
  | none =>
    raise (unitSource f.unit.val f.index.val) 2 0x18 f.index.val
      (if f.unit.val = 1 ∨ f.unit.val = 2 ∨ f.unit.val = 4 then addSoft (withdrawal f) s else s)

/-- A soft graft that a strand runs with, as a record (R573). -/
def softGrafts (s : Device) : List Nat :=
  (List.range 14).flatMap fun l => [0, 1].flatMap fun d => (List.range (strandCount l)).flatMap fun n =>
    let t := (linkAt s l).strand d n
    let one (w : BitVec 6) (src : Bool) (sp : Nat) : List Nat :=
      if w ≠ 63 ∧ !src then [mkRepair 6 sp l (d + place n 1 + place w.toNat 5)] else []
    one t.wire0 t.src0 0 ++ one t.wire1 t.src1 1

/-- Every soft repair in effect, those of links included. -/
def softOn (s : Device) : List Nat :=
  let mem := s.bist.soft.filter fun r => rrKind r ≠ 6 && (repairsOn s).contains r
  mem ++ (softGrafts s)

/-! ## The carried list (R559) -/

/-- The list as stored: DEVICE_ID, the number of records, a CRC-16 over count and records, and the records. DESIGN CHOICE (log 94). -/
def carriedBytes (rs : List Nat) : List Byte :=
  let rs := rs.take 256
  let body := leBytes 2 rs.length ++ rs.flatMap (leBytes 8)
  deviceIdBytes ++ leBytes 2 (crc16 (body.flatMap fun b => bitsOf 8 b.toNat)).toNat ++ List.replicate 12 0 ++ body

def writeCarried (s : Device) : Device := retMark 3 true (retWrite 0x400 (carriedBytes (softOn s)) s)

/-- The carried list as it is read at start; a bad one is discarded with a C1 fault. -/
def readCarried (s : Device) : Device × List Nat :=
  let (s, v) := retValid s
  if !bitAt v 3 then (s, [])
  else match retRead 0x400 3072 s with
    | (s, some b) =>
      let n := leAt b 30 2
      let body := sliceBytes b 30 (2 + 8 * n)
      if b.take 16 = deviceIdBytes ∧ n ≤ 256 ∧ leAt b 16 2 = (crc16 (body.flatMap fun x => bitsOf 8 x.toNat)).toNat then
        (s, (List.range n).map fun i => leAt b (32 + 8 * i) 8)
      else (raise (.hub 15) 1 0xFF 0 (retMark 3 false s), [])
    | (s, none) => (raise (.hub 15) 1 0xFF 0 (retMark 3 false s), [])

/-- Repairs at start, steps 1 to 3 of R558; link wires wait for link training. -/
def startRepairs (screen : List Finding) (s : Device) : Device :=
  let s := { s with bist := { s.bist with soft := [], run := none } }
  let s := (fusesOn s).foldl (applyRepair true) s
  let s := (s.bist.fuses.filter (secondColumn (fusesOn s))).foldl (fun s r => modBed (rrTarget r) unusableBed s) s
  let (s, carried) := readCarried s
  let s := carried.foldl (fun s r =>
    if rrValid r && !(repairsOn s).any (clashes r) then addSoft r s
    else if secondColumn (repairsOn s) r then modBed (rrTarget r) unusableBed s
    else s) s
  screen.foldl screenFault s

/-- Grafts of the fuse records, and wires that the carried list names, for link training (R352, R558). -/
def wireOf (r : Nat) : Nat × WireRef :=
  let e := rrElement r
  (rrTarget r, ⟨Fin.ofNat 2 e, Fin.ofNat 16 (bitsAt e 1 4), Fin.ofNat 36 (bitsAt e 5 6)⟩)

def fuseGrafts (s : Device) : List (Nat × WireRef) := ((fusesOn s).filter (rrKind · = 6)).map wireOf

def addCarried (s : Device) (xs : List LinkTrain) : List LinkTrain :=
  let ws := (s.bist.soft.filter fun r => rrKind r = 6 && rrValid r).map wireOf
  xs.zipIdx.map fun x => { x.1 with wires := (ws.filter fun w => w.1 = x.2).map (·.2) ++ x.1.wires }

/-! ## Results (R570 to R572) -/

structure UnitRec where
  kind    : Nat
  index   : Nat
  verdict : Nat
  new     : Nat
  first   : Nat

def UnitRec.bytes (u : UnitRec) : List Byte :=
  leBytes 1 u.kind ++ leBytes 1 u.verdict ++ leBytes 2 u.index ++ leBytes 1 u.new ++ [0, 0, 0] ++ leBytes 8 u.first

def bistHead (run st : Nat) (us : List UnitRec) (new withdrawn carried t0 t1 : Nat) : List Byte :=
  leBytes 1 run ++ leBytes 1 st ++ leBytes 2 us.length
    ++ leBytes 2 (us.filter fun u => u.verdict = 1 || u.verdict = 2).length ++ leBytes 2 new ++ leBytes 2 withdrawn ++ leBytes 2 (Nat.min carried 256)
    ++ [0, 0, 0, 0] ++ leBytes 8 t0 ++ leBytes 8 t1

def storeResult (head : List Byte) (us : List UnitRec) (s : Device) : Device :=
  retMark 4 true (retWrite 0x1000 (head ++ us.flatMap UnitRec.bytes) s)

/-- The units of a test, in the order of R572. -/
def bistUnits (r : BistRun) : List (Nat × Nat) :=
  if r.kind = 2 then (List.range r.count).map fun i => (1, r.first + i)
  else (List.range 384).map (fun i => (1, i)) ++ (List.range 128).map (fun i => (2, i)) ++ (List.range 8).map (fun i => (3, i))
    ++ (List.range 128).map (fun i => (4, i)) ++ (List.range 64).map (fun i => (5, i)) ++ (List.range 14).map (fun i => (6, i))

/-- The unit is tested. -/
def underTest (s : Device) (r : BistRun) (u : Nat × Nat) : Bool :=
  if r.kind = 2 then r.beds.contains u.2
  else match u.1 with
    | 1 => !(bedAt s u.2).unusable
    | 2 => !(coreIoAt s u.2).unusable
    | 4 => !(List.range 4).all fun i => (laneAt s (4 * u.2 + i)).retired
    | _ => true

def blankCore (c : Nat) (s : Device) : Device := setArray 2 c (arrayAt s 2 c).fill (setArray 1 c (arrayAt s 1 c).fill s)

/-! ## Running (R561 to R569) -/

/-- One unit's verdict: its faults are repaired in turn, or the unit is withdrawn. -/
def judgeUnit (fix : Bool) (fs : List Finding) (u : Nat × Nat) (s : Device) : Device × UnitRec :=
  let mine := fs.filter fun f => f.unit.val = u.1 && f.index.val = u.2
  if mine.isEmpty then (s, ⟨u.1, u.2, 0, 0, 0⟩)
  else if !fix then (s, ⟨u.1, u.2, 2, 0, 0⟩)
  else
    let tried := mine.foldl (fun (acc : Device × List Nat × Bool) f =>
      match repairFor acc.1 f with
      | some r => (addSoft r acc.1, acc.2.1 ++ [r], acc.2.2)
      | none => (acc.1, acc.2.1, false)) (s, [], true)
    if tried.2.2 then (tried.1, ⟨u.1, u.2, 1, tried.2.1.length, tried.2.1.headD 0⟩)
    else if u.1 = 1 ∨ u.1 = 2 then
      let w := mkRepair 7 0 u.2 u.1
      (addSoft w s, ⟨u.1, u.2, 2, 1, w⟩)
    else if u.1 = 4 then
      let w := mkRepair 7 0 u.2 4
      (raise (unitSource u.1 u.2) 2 0xFF u.2 (addSoft w s), ⟨u.1, u.2, 2, 1, w⟩)
    else (raise (unitSource u.1 u.2) 2 0xFF u.2 s, ⟨u.1, u.2, 2, 0, 0⟩)

def judgeUnits (r : BistRun) (fs : List Finding) (s : Device) : Device × List UnitRec :=
  (bistUnits r).foldl (fun (acc : Device × List UnitRec) u =>
    if underTest s r u then
      let (s, x) := judgeUnit r.repair fs u acc.1
      (s, acc.2 ++ [x])
    else (acc.1, acc.2 ++ [⟨u.1, u.2, 3, 0, 0⟩])) (s, [])

/-- A bed that is saved and restored: FALLOW with its configuration retained (R567). -/
def savable (s : Device) (n : Nat) : Bool := (bedAt s n).kept && (bedAt s n).st = .fallow

def bedMems (s : Device) (n : Nat) : List Coded := (List.range 48).map fun m => arrayAt s 0 (n * 48 + m)

/-- The clear before a saved bed's gate opens (R562, R567): its cells, output registers, block memories and their status. -/
def clearBed (n : Nat) (s : Device) : Device :=
  let s := modBed n (fun (b : Bed) => { b with
    cells := .empty, blines := List.replicate 8 0, ports := .empty, bmStat := .empty, bmBad := .empty, inject := .reset }) s
  (List.range 48).foldl (fun s m => setArray 0 (n * 48 + m) (arrayAt s 0 (n * 48 + m)).fill s) s

/-- A test starts: the stored result is replaced, the history queue runs, the beds that keep a configuration are saved where the run saves
any, and what is under test is cleared (R562, R563, R567). DESIGN CHOICE (log 160). -/
def startBist (r : BistRun) (s : Device) : Device :=
  let s := storeResult (bistHead r.kind 1 [] 0 0 (softOn s).length r.start 0) [] s
  let saves := if r.kind = 1 then [] else (r.beds.filter (savable s)).map fun n => { bed := n, state := bedAt s n, mems := bedMems s n }
  let s := r.beds.foldl (fun s n => if r.kind ≠ 1 ∧ savable s n then clearBed n s else blankBed n s) s
  let s := if r.kind = 1 then ((List.range 128).filter fun c => !(coreIoAt s c).unusable).foldl (fun s c => blankCore c s) s else s
  { s with bist := { s.bist with run := some { r with saves } }, flt := { s.flt with histRun := true } }

/-- The run has ended: holds are dropped. -/
def clearRun (r : BistRun) (s : Device) : Device :=
  dropObjs (if r.kind = 1 then [] else r.beds.map Obj.bed)
    { s with bist := { s.bist with run := none }, flt := { s.flt with histRun := r.hist } }

/-- The completion record of BIST_RUN (R569). -/
def bistRec (r : BistRun) (s : Device) : Device :=
  if r.kind = 2 then
    almMake { origin := 9, principal := 0, objClass := 0x15, objId := 0, action := 0x0801, status := 0, before := r.before,
              after := (softOn s).length } none s
  else s

/-- A saved bed is restored exactly; what the test does not save stays as it is by now. -/
def restoreBed (x : SavedBed) (s : Device) : Device :=
  let s := modBed x.bed (fun (b : Bed) => { b with
    cfg := x.state.cfg, frames := x.state.frames, cells := x.state.cells, blines := x.state.blines, ports := x.state.ports
    bmStat := x.state.bmStat, bmBad := x.state.bmBad, inject := x.state.inject }) s
  x.mems.zipIdx.foldl (fun s m => setArray 0 (x.bed * 48 + m.2) m.1 s) s

/-- Beds of the run after the test: saved ones are restored; others, the withdrawn, and those whose restore fails lose their configuration. -/
def restoreBeds (r : BistRun) (bad : List Nat) (s : Device) : Device :=
  r.beds.foldl (fun s n =>
    match r.saves.find? (·.bed = n) with
    | some x =>
      if (bedAt s n).unusable then blankBed n s
      else if bad.contains n then raise (bedSource n) 2 0xFF 0 (blankBed n s)
      else restoreBed x s
    | none => blankBed n s) s

/-- BIST_COMPLETE: the faults found, and the beds whose restore fails its read-back check. -/
def bistEnd (fs : List Finding) (bad : List Nat) (s : Device) : Device :=
  match s.bist.run with
  | none => s
  | some r =>
    let n0 := s.bist.soft.length
    let (s, us) := judgeUnits r fs s
    let s := restoreBeds r bad s
    let s := if r.kind = 1 then (List.range 128).foldl (fun s c => blankCore c s) s else s
    let added := s.bist.soft.drop n0
    let s := writeCarried s
    let s := storeResult (bistHead r.kind 2 us added.length (added.filter (rrKind · = 7)).length (softOn s).length r.start (devNs s)) us s
    bistRec r (clearRun r s)

/-- The test is aborted (R561): no repair is added. -/
def bistAbort (s : Device) : Device :=
  match s.bist.run with
  | none => s
  | some r =>
    let us : List UnitRec := (bistUnits r).map fun u => ⟨u.1, u.2, if underTest s r u then 4 else 3, 0, 0⟩
    let s := restoreBeds r [] s
    let s := if r.kind = 1 then (List.range 128).foldl (fun s c => blankCore c s) s else s
    let s := writeCarried s
    let s := storeResult (bistHead r.kind 3 us 0 0 (softOn s).length r.start (devNs s)) us s
    bistRec r (clearRun r s)

/-- C3 or C4 ends the run (R568). -/
def bistFatal (s : Device) : Device :=
  match s.bist.run with
  | none => s
  | some r => clearRun r (r.beds.foldl (fun s n => blankBed n s) s)

def saveRegion (s : Device) : Bool := (regionAt s 1017).st = .active

def opBistRun : OpSpec where
  code := 0x0801
  plenOk := (· = 8)
  session := true
  early := false
  late := never
  refusal := fun c s =>
    let n := leAt c.pl 2 2
    let bs := rangeOf c.pl
    if n = 0 ∨ 32 < n ∨ 384 < leAt c.pl 0 2 + n ∨ 2 ≤ leAt c.pl 4 1 ∨ !zeroAt c.pl 5 3
        ∨ bs.any (fun b => !outOfService s b || (bedAt s b).unusable) then some stBadParam
    else if c.plot ≠ 0 then some stNotAuth
    else if s.bist.run.isSome ∨ heldByOther c (bs.map Obj.bed) s then some stBusy
    else if !s.bist.condOk then some stBist
    else if !saveRegion s then some stNoStaging
    else none
  records := fun _ _ => 1
  run := fun c s =>
    let bs := rangeOf c.pl
    let s := holdObjs (bs.map Obj.bed) (cmdRecPayload c 0x15 0 s)
    { st := startBist { kind := 2, repair := bitAt (leAt c.pl 4 1) 0, beds := bs, first := leAt c.pl 0 2, count := bs.length,
                        start := devNs s, before := (softOn s).length, hist := s.flt.histRun, saves := [] } s,
      reply := some (stOk, []) }

/-- The stored result's header and records; an invalid area reads as no result. -/
def readResult (s : Device) : Device × List Byte :=
  let (s, v) := retValid s
  if !bitAt v 4 then (s, List.replicate 32 0)
  else match retRead 0x1000 11648 s with
    | (s, some b) => (s, b)
    | (s, none) => (s, List.replicate 32 0)

def opBistResult : OpSpec where
  code := 0x0802
  plenOk := (· = 4)
  session := true
  early := false
  late := fun d => d = .shutdown
  refusal := fun c s =>
    let n := leAt c.pl 2 2
    if 250 < n ∨ leAt (readResult s).2 2 2 < leAt c.pl 0 2 + n then some stBadParam
    else if c.plot ≠ 0 then some stNotAuth
    else none
  records := fun _ _ => 0
  run := fun c s =>
    let (s, b) := readResult s
    { st := s, reply := some (stOk, b.take 32 ++ sliceBytes b (32 + 16 * leAt c.pl 0 2) (16 * leAt c.pl 2 2)) }

/-! ## Fuse records (R573) -/

/-- Burns these records in order; `bad` says which burns fail their read-back. A failed one keeps its slot. -/
def burn : List Nat → List Bool → List Nat → List Nat × Nat × Bool
  | [], _, slots => (slots, 0, true)
  | r :: rs, bad, slots =>
    let k := (bad.takeWhile id).length
    let room := 64 - slots.length
    if room ≤ k then (slots ++ List.replicate room (r ^^^ 2 ^ 48), 0, false)
    else
      let (out, n, ok) := burn rs (bad.drop (k + 1)) (slots ++ List.replicate k (r ^^^ 2 ^ 48) ++ [r])
      (out, n + 1, ok)

/-- Soft repairs that no valid fuse record holds: spare numbers aside, the same repair. DEDUCED (log 93). -/
def toBurn (s : Device) : List Nat := (softOn s).filter fun r => !(fusesOn s).contains r

/-- REPAIR_COMMIT; `bad` is the read-back outcome of each burn. -/
def opRepairCommit (bad : List Bool) : OpSpec where
  code := 0x0803
  plenOk := (· = 4)
  session := true
  early := false
  late := never
  refusal := fun c s =>
    if !zeroAt c.pl 0 4 then some stBadParam
    else if c.plot ≠ 0 then some stNotAuth
    else if s.bist.run.isSome then some stBusy
    else if !s.bist.condOk then some stBist
    else if 64 - s.bist.fuses.length < (toBurn s).length then some stRepairFull
    else none
  records := fun _ s => if (toBurn s).isEmpty then 0 else 1
  run := fun c s =>
    let used := s.bist.fuses.length
    let (slots, n, ok) := burn (toBurn s) bad s.bist.fuses
    let s := { s with bist := { s.bist with fuses := slots } }
    let s := if slots.length = used then s else cmdRec c 0x15 0 used slots.length s
    if ok then { st := s, reply := some (stOk, leBytes 2 n ++ leBytes 2 (64 - slots.length)) }
    else { st := s, reply := some (stRepairFull, []) }

end Sys2Proof.Machine
end

