-- ==== Sys2Proof/Machine/DevCmd.lean ====
section
/-! DEFINITION. Device commands (R440 to R443), sessions (R425 to R427), the table of opcodes (R439), and the progress of
commands that wait for objects to stop. -/
namespace Sys2Proof.Machine
open Sys2Proof

/-! ## IDENTIFY and GET_STATUS -/

/-- DEV_STATE (R437). -/
def devStateNo : DevState → Nat
  | .start => 0 | .ready => 1 | .user => 2 | .shutdown => 3 | .fatal => 4

def count (n : Nat) (p : Nat → Bool) : Nat := ((List.range n).filter p).length
def bitMap (n : Nat) (p : Nat → Bool) : Nat := maskOf ((List.range n).map p)

def identifyBytes (s : Device) : List Byte :=
  deviceIdBytes ++ leBytes 1 (Config.part.val + 1) ++ leBytes 1 (lifecycleNo s.trust.lifecycle) ++ leBytes 1 (devStateNo s.mgmt.dev)
    ++ leBytes 1 2 ++ leBytes 4 hubStepping ++ leBytes 8 s.d2d.cap.toNat
    ++ leBytes 48 (bitMap 384 fun n => (bedAt s n).unusable) ++ leBytes 16 (bitMap 128 fun c => (coreIoAt s c).unusable)
    ++ leBytes 4 (fittedMask s) ++ leBytes 4 0 ++ leBytes 8 (fittedBytes s) ++ leBytes 64 (bitMap 512 fun l => (laneAt s l).retired)
    ++ leBytes 2 (bitMap 16 (plotExists s)) ++ leBytes 2 0 ++ leBytes 4 Config.mgmtVersion.toNat ++ leBytes 8 (devNs s)
    ++ leBytes 8 (s.alm.next % 2 ^ 48) ++ List.replicate 56 0

def opIdentify : OpSpec where
  code := 0x0101
  plenOk := (· = 0)
  session := false
  early := true
  late := never
  refusal := fun _ _ => none
  records := fun _ _ => 0
  run := fun _ s => { st := s, reply := some (stOk, identifyBytes s) }

def faultsOf (s : Device) (p : Nat) : Nat :=
  maskOf (s.flt.first.map fun r => r.any fun x => p = 0 || (x.plotValid && x.plot = p))

def inService (s : Device) (n : Nat) : Bool := (bedAt s n).st = .running || (bedAt s n).st = .waiting || (bedAt s n).st = .paused

def statusReply (s : Device) (p : Nat) : List Byte :=
  let x := plotSt s p
  let u := s.alm.unacked
  leBytes 1 (devStateNo s.mgmt.dev) ++ leBytes 1 (lifecycleNo s.trust.lifecycle) ++ leBytes 1 p
    ++ leBytes 1 (bit (if p = 0 then s.trust.lifecycle = .deployed else x.sealed) 0 + bit x.fallow 1 + bit (decide (almSoft ≤ u) || s.alm.sealed) 2)
    ++ leBytes 2 (faultsOf s p) ++ leBytes 2 0
    ++ leBytes 2 (plotBeds s p).length ++ leBytes 2 ((plotBeds s p).filter (inService s)).length
    ++ leBytes 1 (plotCores s p).length ++ leBytes 1 ((plotCores s p).filter fun c => (coreAt s c).st = .active).length
    ++ leBytes 2 (plotLanes s p).length ++ leBytes 2 ((plotLanes s p).filter fun l => (pmaShell s l).st = .active).length
    ++ leBytes 2 (plotRegions s p).length ++ leBytes 1 (plotKeys s p).length ++ leBytes 3 0 ++ leBytes 4 (almSoft - u) ++ leBytes 4 0
    ++ leBytes 8 (devNs s) ++ leBytes 12 (tb0 s).value96 ++ List.replicate 12 0

def opGetStatus : OpSpec where
  code := 0x0102
  plenOk := (· = 0)
  session := true
  early := true
  late := never
  refusal := fun _ _ => none
  records := fun _ _ => 0
  run := fun c s => { st := s, reply := some (stOk, statusReply s c.plot) }

/-! ## SHUTDOWN (R442) -/

def laneOff (l : Nat) (s : Device) : Device :=
  if (pmaShell s l).st = .idle then s
  else
    let s := modLane l (fun (x : Lane) => { x with next := none }) (stopLaneSub l s)
    laneAfter l (modShell (pmaId l) (fun x => Shell.ctlWrite { x.abortCal with deferral := none } false 0) s)

/-- Steps 1 to 3: every bed fallow, every core and subport stopped, every lane in electrical idle. -/
def quiesce' (why : Nat) (s : Device) : Device :=
  let s := (List.range 384).foldl (fun s n => if outOfService s n then s else makeFallow false n s) s
  let s := stopEngines (List.range 64) (stopCores why (List.range 128) s)
  (List.range 512).foldl (fun s l => laneOff l s) s

def allQuiet (s : Device) : Bool :=
  (List.range 384).all (outOfService s) && coresQuiet s (List.range 128)
    && (List.range 512).all fun l => (pmaShell s l).st = .idle || (pmaShell s l).st = .fault

/-- Step 5, and the reply: bit 0 BIST_RUN, bit 1 BIST_ABORTED. -/
def finishShutdown (flags : Nat) (s : Device) : Device :=
  match progressOf 0x0103 s with
  | none => s
  | some p =>
    let s := { s with mgmt := { s.mgmt with dev := .shutdown } }
    finish p stOk (leBytes 4 flags) (doneRec 0x0103 0x01 0 0 (first8 (Config.sha384 p.pkt.payload)) s)

/-- SHUTDOWN goes on once everything has stopped: to BIST, or to the SHUTDOWN state. -/
def settleShutdown (s : Device) : Device :=
  match progressOf 0x0103 s with
  | none => s
  | some p =>
    if s.bist.run.isSome ∨ !allQuiet s then s
    else if bitAt (leAt p.pkt.payload 0 1) 0 then
      startBist { kind := 1, repair := true, beds := (List.range 384).filter fun n => !(bedAt s n).unusable, first := 0, count := 0,
                  start := devNs s, before := (softOn s).length, hist := s.flt.histRun, saves := [] } s
    else finishShutdown 0 s

/-- SHUTDOWN. DEDUCED (log 92). -/
def opShutdown : OpSpec where
  code := 0x0103
  plenOk := (· = 4)
  session := true
  early := false
  late := never
  refusal := fun c s =>
    if 2 ≤ leAt c.pl 0 1 ∨ !zeroAt c.pl 1 3 then some stBadParam
    else if c.plot ≠ 0 then some stNotAuth
    else if s.mem.tillers.any (fun t => t.op ≠ .idle) ∨ !(entries s).isEmpty ∨ anyHeld c s then some stBusy
    else if bitAt (leAt c.pl 0 1) 0 ∧ !s.bist.condOk then some stBist
    else none
  records := fun _ _ => 1
  run := fun c s =>
    { st := settleShutdown (quiesce' 1 (defer c [.device] (cmdRecPayload c 0x01 0 s))), reply := none }

/-- BIST_COMPLETE. -/
def bistComplete (fs : List Finding) (bad : List BedId) (s : Device) : Device :=
  match s.bist.run with
  | none => s
  | some r =>
    let s := bistEnd fs (bad.map (·.val)) s
    if r.kind = 1 then finishShutdown 1 s else s

/-- BIST_CONDITION_CHECK: what the monitors of R561 measure; a failure aborts a BIST. -/
def bistCheck (ok : Bool) (s : Device) : Device :=
  let s := { s with bist := { s.bist with condOk := ok } }
  match s.bist.run with
  | none => s
  | some r =>
    if ok then s
    else
      let s := bistAbort s
      if r.kind = 1 then finishShutdown 3 s else s

/-! ## PLOT_RESET (R443) -/

def settleResets (s : Device) : Device :=
  (s.mgmt.progress.filter fun p => p.opcode = 0x0104).foldl (fun s p =>
    if coresQuiet s (plotCores s (leAt p.pkt.payload 0 1)) then finish p stOk [] s else s) s

def opPlotReset : OpSpec where
  code := 0x0104
  plenOk := (· = 4)
  session := true
  early := false
  late := never
  refusal := fun c s =>
    let p := leAt c.pl 0 1
    if 15 < p ∨ !plotExists s p ∨ !zeroAt c.pl 1 3 then some stBadParam
    else if c.plot ≠ p ∧ c.plot ≠ 0 then some stNotAuth
    else if heldByOther c (.plot p :: plotObjs s p) s then some stBusy
    else none
  records := fun c s => 1 + sessionsOf (fun x => x.plot.val = leAt c.pl 0 1 && x.id ≠ c.pkt.session) s
  run := fun c s =>
    let p := leAt c.pl 0 1
    let s := defer c (plotObjs s p) (cmdRecObj c 0x0C p s)
    let s := stopEngines (plotEngines s p) (stopCores 4 (plotCores s p) s)
    let s := endPlotRakes true p s
    let s := endSessions 0x0104 false (fun x => x.plot.val = p && x.id ≠ c.pkt.session) s
    { st := settleResets s, reply := none }

/-! ## Sessions (R425 to R427) -/

/-- The request code of an SPDM message. PRESUMED (log 106). -/
def spdmCode (c : Ctx) : Nat := leAt c.pl 1 1
def isExchange (c : Ctx) : Bool := spdmCode c = 0xE4 || spdmCode c = 0xE6
def isFinish (c : Ctx) : Bool := spdmCode c = 0xE5 || spdmCode c = 0xE7

/-- The exchange still open on the instance. -/
def openingOn (c : Ctx) (s : Device) : Option (Nat × Session) :=
  s.mgmt.sessions.zipIdx.findSome? fun x => x.1.bind fun y => if y.opening && y.inst = c.inst then some (x.2, y) else none

def idTaken (s : Device) (id : Word32) : Bool := id = 0 || s.mgmt.sessions.any fun x => x.any fun y => y.id = id

/-- The SPDM session ID: the requester's half, and the responder's, a value that gives no ID in use. -/
def newSessionId (c : Ctx) (s : Device) : Word32 × Device :=
  let (v, s) := freeNat s
  let id (k : Nat) : Word32 := BitVec.ofNat 32 (leAt c.pl 4 2 + (v + k) % 65536 * 65536)
  (((List.range 64).map id).find? (fun i => !idTaken s i) |>.getD (id 0), s)

def finishAnswer (c : Ctx) (s : Device) (x : Session) : List Byte × Option (List Byte) :=
  Config.spdmFinish x.script (plotSt s x.plot.val).root (!(s.trust.lifecycle = .blank && x.plot = 0)) c.pl

/-- The exchange of this FINISH, with its answer. -/
def finishing (c : Ctx) (s : Device) : Option (Nat × Session × List Byte × Option (List Byte)) :=
  match openingOn c s with
  | some (k, x) => if isFinish c && x.plot.val = c.plot then some (k, x, finishAnswer c s x) else none
  | none => none

def opSessionOpen : OpSpec where
  code := 0x0301
  plenOk := fun n => decide (2 ≤ n)
  session := false
  early := true
  late := never
  refusal := fun c s =>
    if isExchange c && (openingOn c s).isNone && s.mgmt.sessions.all Option.isSome then some stBusy else none
  records := fun c s => if (finishing c s).any fun x => x.2.2.2.isSome then 1 else 0
  run := fun c s =>
    if isExchange c then
      let (resp, ok) := Config.spdmExchange c.pl s.trust.draws
      let s := { s with trust := { s.trust with draws := s.trust.draws + 1 } }
      let s := match openingOn c s with | some (k, _) => dropSession k s | none => s
      if ok then
        let (id, s) := newSessionId c s
        let k := s.mgmt.sessions.findIdx Option.isNone
        let x : Session := { id, opening := true, plot := Fin.ofNat 16 c.plot, inst := c.inst, win := SeqWin.reset,
                             script := c.pl ++ resp, secret := [] }
        { st := { s with mgmt := { s.mgmt with sessions := modAt s.mgmt.sessions k fun _ => some x } }, reply := some (stOk, resp) }
      else { st := s, reply := some (stOk, resp) }
    else match finishing c s with
      | some (k, x, resp, some secret) =>
        let y : Session := { x with opening := false, script := [], secret }
        let s := { s with mgmt := { s.mgmt with sessions := modAt s.mgmt.sessions k fun _ => some y } }
        { st := sessionRec (instOrigin c.inst) (c.plot + y.id.toNat % 2 ^ 16 * 2 ^ 16) 0x0301 y s, reply := some (stOk, resp) }
      | some (k, _, resp, none) => { st := dropSession k s, reply := some (stOk, resp) }
      | none => { st := s, reply := some (stOk, Config.spdmOther c.pl) }

/-- The session that a SESSION_CLOSE names. -/
def closing (c : Ctx) (s : Device) : Option (Nat × Session) :=
  let id := leAt c.pl 0 4
  (findSession s (if id = 0 then c.pkt.session else BitVec.ofNat 32 id)).filter fun x => x.2.id ≠ 0 && !x.2.opening

def opSessionClose : OpSpec where
  code := 0x0302
  plenOk := (· = 4)
  session := true
  early := true
  late := never
  refusal := fun c s =>
    match closing c s with
    | none => some stBadParam
    | some (_, x) => if c.plot ≠ 0 ∧ x.plot.val ≠ c.plot then some stNotAuth else none
  records := fun _ _ => 1
  run := fun c s =>
    match closing c s with
    | none => { st := s, reply := none }
    | some (k, x) =>
      let s := sessionRec (instOrigin c.inst) (principalOf c) 0x0302 x s
      { st := dropSession k (answerCmd true c stOk 0 [] s), reply := none }

/-! ## The opcode table (R439) -/

/-- The command of an opcode; `x` is what its transfers meet outside the block. -/
def specOf (x : NetIn) : Nat → Option OpSpec
  | 0x0101 => some opIdentify | 0x0102 => some opGetStatus | 0x0103 => some opShutdown | 0x0104 => some opPlotReset
  | 0x0201 => some opCfgBegin | 0x0202 => some opCfgData | 0x0203 => some opCfgCommit | 0x0204 => some opCfgAbort
  | 0x0205 => some opBedFallow | 0x0206 => some opBedRelease | 0x0207 => some (opReadback x.fail) | 0x0208 => some opGoldenLoad
  | 0x0301 => some opSessionOpen | 0x0302 => some opSessionClose | 0x0303 => some opAttestGet | 0x0304 => some opPlotCreate
  | 0x0305 => some opPlotDestroy | 0x0306 => some opKeyInstall | 0x0307 => some opKeyRotate | 0x0308 => some opKeyRetire
  | 0x0309 => some (opPolicyLoad x) | 0x030A => some opLifecycle
  | 0x0401 => some opRegionInit | 0x0402 => some opRake | 0x0403 => some opSelfRefresh | 0x0404 => some opMapSet
  | 0x0501 => some opLaneRefresh | 0x0502 => some opLaneCalibrate | 0x0503 => some opLaneRetire | 0x0504 => some opLinkStatus
  | 0x0601 => some opTbSet | 0x0602 => some opTbAdjust | 0x0603 => some opTbRoute | 0x0604 => some opStartAt
  | 0x0701 => some opFaultRead | 0x0702 => some opFaultClear | 0x0703 => some opErrpinRelease | 0x0704 => some opHistoryMode
  | 0x0801 => some opBistRun | 0x0802 => some opBistResult | 0x0803 => some (opRepairCommit [])
  | 0x0901 => some opAlmRead | 0x0902 => some opAlmSeal | 0x0903 => some (opAlmExport x.fail)
  | _ => none

/-- A packet of any opcode. -/
def runOpcode (x : NetIn) (op : Nat) (inst : Inst) (pkt : Packet) (s : Device) : Device :=
  match specOf x op with
  | some o => mgmtRun o inst pkt s
  | none => mgmtUnknown op inst pkt s

/-- The command pair runs again: parked packets are taken in order (R593). One whose fetch must wait stays. -/
def unpark (s : Device) : Device :=
  let q := s.mgmt.parked
  q.foldl (fun s x =>
    let take := runOpcode .calm x.2.1 x.1 x.2.2
    if (take s).trl.stuck then park x.1 x.2.1 x.2.2 (orWait take s) else take s) { s with mgmt := { s.mgmt with parked := [] } }

/-! ## Commands that wait -/

/-- Commands in progress go on as far as the state lets them. -/
def settleAll (s : Device) : Device := settleShutdown (settleResets (settleRma (settlePlots (settleReadback none (settleFallow s)))))

def settle (s : Device) : Device :=
  let s := if s.rakes.isEmpty then s else settleRakes s
  let s := if s.mgmt.progress.isEmpty then s else settleAll s
  if s.mgmt.parked.isEmpty || cmdHalted s then s else unpark s

/-! ## CMD registers (R444) -/

def cmdWidth (off : Nat) : Option (Nat × Nat) :=
  if off < 12 then some (off / 4 * 4, 32)
  else if 0x100 ≤ off ∧ off < 0x300 ∧ off % 16 < 12 then some (off / 4 * 4, 32)
  else none

def sesInfo (x : Session) : Nat :=
  1 + bit x.opening 1 + place x.plot.val 4 + place (instOrigin x.inst) 8
    + (match x.inst with | .mailbox n => place n.val 16 | .doe n => place n.val 16 | _ => 0)

def cmdCfg (s : Device) : Nat := s.mgmt.tmo.toNat + place s.mgmt.fpPoll.toNat 16

def cmdRead (s : Device) (off : Nat) : Nat :=
  if off = 0 then devStateNo s.mgmt.dev + place (s.mgmt.sessions.filter Option.isSome).length 3
  else if off = 4 then cmdCfg s
  else if off = 8 then s.mgmt.authFail.toNat + place s.mgmt.replay.toNat 16 + place s.mgmt.near.toNat 24
  else match s.mgmt.sessions.getD ((off - 0x100) / 16) none with
    | none => 0
    | some x => if off % 16 = 0 then x.id.toNat else if off % 16 = 4 then sesInfo x else x.win.high.toNat

/-- CMD_CFG; the other registers are read only. -/
def cmdWrite (i : InitId) (blk off v : Nat) (s : Device) : Device :=
  if off = 4 then
    let old := cmdCfg s
    let s := { s with mgmt := { s.mgmt with tmo := BitVec.ofNat 16 v, fpPoll := BitVec.ofNat 8 (v / 65536) } }
    csrRecord i (blk + 4) old (cmdCfg s) s
  else s

end Sys2Proof.Machine
end

