-- ==== Sys2Proof/Machine/Cxl.lean ====
section
/-! DEFINITION. The CXL port (chapter "CXL attachment"): host requests to device memory, snoops, resets of the port and its
logical devices, IDE, binding, the CXL-defined mailbox commands, the DOE mailbox, and the CXL block of registers. -/
namespace Sys2Proof.Machine
open Sys2Proof

/-! ## Host requests to device memory (R406, R410) -/

/-- The device address of a host physical address, by the first decoder of the logical device that holds it. -/
def hdmMap (s : Device) (ld hpa : Nat) : Option Nat :=
  (List.range 4).findSome? fun k =>
    match s.cxl.hdm.get none (ld * 4 + k) with
    | some d =>
      if d.base ≤ hpa ∧ hpa < d.base + d.size then
        let o := hpa - d.base
        some (d.dpa + o / (d.ways * d.gran) * d.gran + o % d.gran)
      else none
    | none => none


/-- How a result at MW or ME is returned to the host (R410). -/
def memDeliver (ld : Nat) (opc : Opc) (a : Nat) (rc : Byte) (data : List Byte) (s : Device) : Device :=
  let s := if rc = rcDenied ∨ rc = rcDecode then cxlNote a s else s
  match opc with
  | .read => sendHost (.memData ld (if isErr rc then [] else data) (isErr rc)) s
  | _ => sendHost (.memCmp ld) s

/-- How the completion of a BAR0 access is returned (R407). -/
def barDeliver (ld : Nat) (opc : Opc) (rc : Byte) (data : List Byte) (s : Device) : Device :=
  match opc with
  | .read => sendHost (if !isErr rc then .barRead ld data else if rc = rcDecode ∨ rc = rcBad then .unsupported ld else .abort ld) s
  | _ => s

def cxlDeliver (ld : Nat) (opc : Opc) (a : Nat) (rc : Byte) (data : List Byte) (s : Device) : Device :=
  if csrBase ≤ a then barDeliver ld opc rc data s else memDeliver ld opc a rc data s

/-- A CXL.mem request of one line: it enters the Trellis as initiator 0x810 + n and reaches MW or ME (R405, R410). DEDUCED (log 80). -/
def hostLine (frozen : Bool) (ld hpa : Nat) (opc : Opc) (data : List Byte) (s : Device) : Device :=
  if !s.cxl.linkUp || !memPasses s then s
  else if !ldLive s ld then memDeliver ld opc hpa rcDenied [] s
  else match hdmMap s ld hpa with
    | none => memDeliver ld opc hpa rcDecode [] s
    | some a =>
      let r : TrlReq := { init := cxlInit ld, tag := none, enters := false, odd := none, addr := BitVec.ofNat 48 (a / 64 * 64), len := 0, bcnt := 63, data,
                          opA := 0, opB := 0 }
      match issue frozen opc .xload r s with
      | none => s
      | some (s, p) => memRequest [] p s

def memRd (frozen : Bool) (ld hpa : Nat) (s : Device) : Device := hostLine frozen ld hpa .read [] s
def memWr (frozen : Bool) (ld hpa : Nat) (data : List Byte) (s : Device) : Device := hostLine frozen ld hpa .write data s

/-! ## Snoops (R411 to R413) -/

def hostSnoop (s : Device) : Device := if s.cxl.linkUp && memPasses s then sendHost .snoopRsp s else s

/-- CXL_CACHE_RESPONSE: the host's answer to a RdCurr or WrCur gives the response of its request (R413). -/
def cacheResponse (i : InitId) (tag : BitVec 10) (data : List Byte) (s : Device) : Device :=
  match s.cxl.hostReqs.find? fun p => p.init = i && p.tag = tag with
  | none => s
  | some p =>
    if !s.cxl.linkUp ∨ !memPasses s ∨ (p.opc = .read ∧ data.length ≠ p.bcnt.toNat + 1) then s
    else
      let s := { s with cxl := { s.cxl with hostReqs := s.cxl.hostReqs.erase p } }
      respond p rcOkay (if p.opc = .read then data else []) s

/-! ## Resets (R417, R427) -/

/-- A record of the device itself for an object that has a state (R510). -/
def selfRecObj (cls id action : Nat) (s : Device) : Device :=
  let (b, s) := freshDigest s
  let (a, s) := freshDigest s
  selfRec cls id action 0 b a s

/-- Requests at the CXL stop, answered once the link is down (R413). -/
def failHostReqs (s : Device) : Device :=
  let ps := s.cxl.hostReqs
  ps.foldl (fun s p => respond p rcNoRoute [] (noteAccess p.init p.addr.toNat s)) { s with cxl := { s.cxl with hostReqs := [] } }

def linkOff (s : Device) : Device := failHostReqs { s with cxl := { s.cxl with linkUp := false, speed := 0, width := 0 } }

def ofLd (p : Nat → Bool) : Inst → Bool
  | .mailbox n => p n.val
  | .doe n => p n.val
  | _ => false

/-- Configuration space, MSI-X tables and mailboxes of logical devices are reset; their sessions end. -/
def resetLds (p : Nat → Bool) (s : Device) : Device :=
  let keep (w : Word16) : Word16 := w &&& BitVec.ofNat 16 (maskOf ((List.range 16).map fun n => !p n))
  let s := { s with
    cxl := { s.cxl with cacheEn := keep s.cxl.cacheEn }
    msix := { s.msix with entries := s.msix.entries.filterCells fun k _ => !p (k / 128)
                          enable := keep s.msix.enable, fmask := keep s.msix.fmask }
    mgmt := { s.mgmt with replies := s.mgmt.replies.filter fun x => !ofLd p x.1
                          progress := s.mgmt.progress.map fun x => if ofLd p x.inst then { x with mute := true } else x } }
  endSessions 0x800E true (fun x => ofLd p x.inst) s

def clearDecoders (p : Nat → Bool) (s : Device) : Device :=
  { s with cxl := { s.cxl with hdm := s.cxl.hdm.filterCells fun k _ => !p (k / 4) } }

/-- The session was begun over the CXL port (R459). -/
def overCxl (e : CfgSes) : Bool := e.path ≠ 3 && ofLd (fun _ => true) e.inst

/-- A session begun over the port is aborted as CFG_ABORT would end it; a commit that waits for it ends with BUSY. -/
def abortStaging (s : Device) : Device :=
  (entries s).foldl (fun s e =>
    if !overCxl e.2 ∨ abortBarred s e.2 then s
    else
      let s := match commitCmd s e.1 with
        | some p => finish p stBusy [] s
        | none => s
      abortSes e.1 s) s

def everyLd : Nat → Bool := fun _ => true

/-- What PERST_N and a hot reset do, without their record. -/
def portDown (s : Device) : Device :=
  let s := clearDecoders everyLd (linkOff s)
  let s := { s with cxl := { s.cxl with ide := .empty, filterW := [], filterE := [] } }
  let s := wake (fun w => match w with | .snoop _ _ => true | _ => false) (fun _ => []) s
  abortStaging (resetLds everyLd s)

/-- PERST_N low, or a hot reset. DEDUCED (log 83). -/
def portReset (s : Device) : Device := portDown (selfRecObj 0x01 0 0x800F s)

def functionReset (n : Nat) (s : Device) : Device := resetLds (· = n) (selfRecObj 0x12 n 0x800F s)

/-- A CXL reset of logical device n. -/
def cxlReset (n : Nat) (s : Device) : Device :=
  let s := clearDecoders (· = n) (functionReset n s)
  let mine := (s.cxl.filterW ++ s.cxl.filterE).filter fun e => e.2 = n
  let s := snoopAll mine s
  { s with cxl := { s.cxl with filterW := s.cxl.filterW.filter fun e => e.2 ≠ n, filterE := s.cxl.filterE.filter fun e => e.2 ≠ n
                               memActive := s.cxl.memActive &&& ~~~(BitVec.ofNat 16 (2 ^ n)) } }

/-! ## The link (R404, R418) -/

def widthOk (w : BitVec 5) : Bool := w = 1 || w = 2 || w = 4 || w = 8 || w = 16

/-- CXL_LINK_UP: after start-up training, and not once C4 has taken the link down (R418). DESIGN CHOICE (log 86). -/
def cxlLinkUp (speed : BitVec 3) (width : BitVec 5) (port : BitVec 12) (s : Device) : Device :=
  if s.cxl.linkUp ∨ !s.start.trained ∨ s.flt.fsafe = .c4 ∨ speed = 0 ∨ 4 < speed.toNat ∨ !widthOk width then s
  else { s with cxl := { s.cxl with linkUp := true, speed, width, portId := port } }

/-- CXL_LINK_DOWN: down, or trained to a narrower width. -/
def cxlLinkDown (narrow : Option (BitVec 5)) (s : Device) : Device :=
  if !s.cxl.linkUp then s
  else match narrow with
    | none => linkOff s
    | some w => if widthOk w ∧ w.toNat < s.cxl.width.toNat then { s with cxl := { s.cxl with width := w } } else s

/-! ## IDE (R332) -/

def setIde (k : Nat) (x : Ide) (s : Device) : Device := { s with cxl := { s.cxl with ide := s.cxl.ide.set Ide.reset k x } }

def ideFails (k : Nat) (s : Device) : Device :=
  if (ideAt s k).running then securityEvent 4 0 (setIde k { ideAt s k with running := false, insecure := true } s) else s

/-- An IDE_KM or CXL_IDE_KM message, over a secured session of the DOE mailbox: a new key is programmed beside the one in use, which it
replaces when it is started. -/
def ideKm (ld k : Nat) (op : IdeOp) (s : Device) : Device :=
  let x := ideAt s k
  if !s.cxl.linkUp ∨ !(s.mgmt.sessions.any fun y => y.any fun z => !z.opening && ofLd (· = ld) z.inst && instOrigin z.inst = 2) then s
  else match op with
    | .program key => if key.length = 32 then setIde k { x with next := some key } s else s
    | .go => match x.next with
      | some key => setIde k { key, next := none, running := true, insecure := false } s
      | none => if x.key.isEmpty then s else setIde k { x with running := true, insecure := false } s
    | .stop => setIde k { x with running := false } s

/-! ## Binding (R414) -/

/-- A record of binding: the manual gives it no ACTION code, which is a free value. -/
def bindRec (n : Nat) (s : Device) : Device :=
  let (v, s) := freeNat s
  let (b, s) := freshDigest s
  let (a, s) := freshDigest s
  almMake { origin := 2, principal := 0, objClass := 0x12, objId := n, action := v % 2 ^ 16, status := 0, before := b, after := a }
    (some n) s

/-- BIND and UNBIND; one whose record the almanac cannot take is refused (R517). -/
def bind (n : Nat) (on : Bool) (s : Device) : Device :=
  if !s.cxl.linkUp ∨ s.cxl.bound.getLsbD n = on ∨ !almRoom 1 s then s
  else
    let b := BitVec.ofNat 16 (2 ^ n)
    bindRec n { s with cxl := { s.cxl with bound := if on then s.cxl.bound ||| b else s.cxl.bound &&& ~~~b } }

/-! ## Configuration space and MSI-X (R410, R413, R416) -/

/-- Pending vectors of logical device n whose mask is lifted are sent. -/
def msixFlush (n : Nat) (s : Device) : Device :=
  (List.range 128).foldl (fun s v =>
    let e := msixEntry s n v
    if e.pending && s.msix.enable.getLsbD n && !s.msix.fmask.getLsbD n && !e.mask then
      raiseMsix n v (setMsix n v { e with pending := false } s)
    else s) s

def putBit (w : Word16) (n : Nat) (on : Bool) : Word16 :=
  if on then w ||| BitVec.ofNat 16 (2 ^ n) else w &&& ~~~(BitVec.ofNat 16 (2 ^ n))

def waysOk (n : Nat) : Bool := n = 1 || n = 2 || n = 4 || n = 8 || n = 16
/-- The granularities of an HDM decoder. DEDUCED (log 81). -/
def granOk (n : Nat) : Bool := (List.range 7).any fun k => n = 256 * 2 ^ k

def cfgSpaceWrite (n : Nat) (w : CfgSpace) (s : Device) : Device :=
  if !s.cxl.linkUp then s
  else match w with
    | .cacheEnable on => { s with cxl := { s.cxl with cacheEn := putBit s.cxl.cacheEn n on } }
    | .decoder k on base size dpa ways gran =>
      if !on then { s with cxl := { s.cxl with hdm := s.cxl.hdm.set none (n * 4 + k.val) none } }
      else if waysOk ways && granOk gran then
        { s with cxl := { s.cxl with hdm := s.cxl.hdm.set none (n * 4 + k.val) (some { base, size, dpa, ways, gran }) } }
      else s
    | .msixControl enable mask =>
      msixFlush n { s with msix := { s.msix with enable := putBit s.msix.enable n enable, fmask := putBit s.msix.fmask n mask } }
    | .msixEntry v mask addr data =>
      msixFlush n (setMsix n v.val { msixEntry s n v.val with mask, addr, data } s)

/-- A write of MSIX_TRIGGER (R416); vectors 0 and 1 are ignored. -/
def msixTrigger (n v : Nat) (s : Device) : Device := if 2 ≤ v ∧ v < 128 then raiseMsix n v s else s

/-! ## CXL-defined mailbox commands (R408) -/

/-- The port returns a payload under a CXL return code, and vector 0 signals it (R416). -/
def mailboxDone (n code : Nat) (payload : List Byte) (s : Device) : Device := raiseMsix n 0 (sendHost (.mailbox n code payload) s)

/-- A command of a logical device without a plot is rejected with NOT_AUTHORISED (R406). DEDUCED (log 79). -/
def mailboxCmd (n : Nat) (payload : Device → List Byte × Device) (s : Device) : Device :=
  if !s.cxl.linkUp then s
  else if !ldLive s n then mailboxDone n stNotAuth [] s
  else
    let (b, s) := payload s
    mailboxDone n 0 b s

/-- Identify Memory Device: the capacity in units of 256 MiB; firmware revision and log sizes are not stated. PRESUMED (log 84). -/
def memIdentity (s : Device) : List Byte × Device :=
  let (rev, s) := freeBytes 16 s
  let (logs, s) := freeBytes 8 s
  let cap := fittedBytes s / 2 ^ 28
  (rev ++ leBytes 8 cap ++ leBytes 8 cap ++ leBytes 8 0 ++ leBytes 8 0 ++ logs ++ leBytes 4 0 ++ leBytes 3 0 ++ leBytes 2 0 ++ leBytes 2 0, s)

/-- The Command Effects Log identifier, and its entries: the commands of R408. -/
def effectsUuid : List Byte :=
  [0x0D, 0xA9, 0xC0, 0xB5, 0xBF, 0x41, 0x4B, 0x78, 0x8F, 0x79, 0x96, 0xB1, 0x62, 0x3B, 0x3F, 0x17]

def effectsLog (s : Device) : List Byte × Device :=
  let (fx, s) := freeBytes 2 s
  (leBytes 2 0x0013 ++ leBytes 2 0 ++ leBytes 2 0x0400 ++ leBytes 2 0 ++ leBytes 2 0x0401 ++ leBytes 2 0 ++ leBytes 2 0x4000 ++ leBytes 2 0
    ++ leBytes 2 0xC000 ++ fx, s)

def supportedLogs (s : Device) : List Byte × Device := (leBytes 2 1 ++ leBytes 6 0 ++ effectsUuid ++ leBytes 4 20, s)

/-- Get Log: a part of the Command Effects Log; any other log is an invalid log (CXL return code 0x17). -/
def getLog (n : Nat) (uuid : List Byte) (off len : Nat) (s : Device) : Device :=
  if s.cxl.linkUp && ldLive s n && uuid ≠ effectsUuid then mailboxDone n 0x17 [] s
  else mailboxCmd n (fun s => let (b, s) := effectsLog s; (sliceBytes b off (Nat.min len (20 - off)), s)) s

/-- No command of the mailbox runs in the background. -/
def backgroundStatus (s : Device) : List Byte × Device := (leBytes 8 0, s)

/-! ## The DOE mailbox (R415, R483, R495) -/

def doeSend (n : Nat) (b : List Byte) (s : Device) : Device := if s.cxl.linkUp then sendHost (.doe n b) s else s

/-- Measurement blocks: their number (operation 0), one of them, or all (operation 0xFF). -/
def getMeasurements (n : Nat) (op : Byte) (s : Device) : Device :=
  let i := op.toNat
  doeSend n (if i = 0 then [6] else if i ≤ 6 then measurement' s n i
    else if i = 255 then (List.range 6).flatMap fun k => measurement' s n (k + 1) else []) s

/-- A part of the certificate chain of a slot. -/
def getCertificate (n slot off len : Nat) (s : Device) : Device :=
  let chain := if slot = 0 then Config.certChain else if slot = 1 then s.trust.slot1 else []
  doeSend n (sliceBytes chain off (Nat.min len (chain.length - off))) s

/-- END_SESSION over the transport of the session (R427). -/
def endSpdm (inst : Inst) (id : Word32) (s : Device) : Device :=
  match findSession s id with
  | some (k, x) => if x.inst = inst ∧ !x.opening ∧ s.mgmt.up then endSession 0x800E false k s else s
  | none => s

/-- One DSLBIS entry: data type, base unit and figure. -/
def dslbis (kind unit v : Nat) : List Byte :=
  leBytes 1 1 ++ leBytes 1 0 ++ leBytes 2 24 ++ leBytes 1 0 ++ leBytes 1 0 ++ leBytes 1 kind ++ leBytes 1 0 ++ leBytes 8 unit
    ++ leBytes 2 v ++ leBytes 2 0 ++ leBytes 2 0 ++ leBytes 2 0

/-- The entries of the CDAT table: DSMAS over the fitted capacity, and read and write latency (ps) and bandwidth (MB/s). -/
def cdatEntries (s : Device) : List Byte :=
  (leBytes 1 0 ++ leBytes 1 0 ++ leBytes 2 24 ++ leBytes 1 0 ++ leBytes 1 0x10 ++ leBytes 2 0 ++ leBytes 8 0 ++ leBytes 8 (fittedBytes s))
    ++ dslbis 1 1000 180 ++ dslbis 2 1000 200 ++ dslbis 4 1000 110 ++ dslbis 5 1000 110

def cdatTable (s : Device) : List Byte :=
  let e := cdatEntries s
  let head (sum : Nat) : List Byte := leBytes 4 (16 + e.length) ++ leBytes 1 1 ++ leBytes 1 sum ++ leBytes 6 0 ++ leBytes 4 0
  let t := ((head 0 ++ e).map (·.toNat)).sum
  head (256 - t % 256) ++ e

/-! ## Registers (R419) -/

def cxlWidth (off : Nat) : Option (Nat × Nat) :=
  if off < 4 then some (0, 32)
  else if 8 ≤ off ∧ off < 12 then some (8, 32)
  else if 0x10 ≤ off ∧ off < 0x50 then some (off / 4 * 4, 32)
  else if 0x1000 ≤ off ∧ off < 0x1040 then some (off / 4 * 4, 32)
  else none

def stagingOpen (s : Device) (n : Nat) : Bool := (entries s).any fun e => e.2.path = 0 && e.2.inst = .mailbox (Fin.ofNat 16 n)

/-- MSIX_TRIGGER is write only and reads as 0. -/
def cxlRead (s : Device) (off : Nat) : Nat :=
  if off = 0 then
    bit s.cxl.linkUp 0 + place s.cxl.speed.toNat 1 + place s.cxl.width.toNat 4 + bit s.cxl.viral 9 + place s.cxl.portId.toNat 10
  else if off = 8 then s.cxl.stageDrop.toNat
  else if off < 0x50 then
    let n := (off - 0x10) / 4
    bit (s.cxl.bound.getLsbD n) 0 + bit (s.cxl.cacheEn.getLsbD n) 1 + bit (s.cxl.memActive.getLsbD n) 2 + bit (stagingOpen s n) 3
  else 0

end Sys2Proof.Machine
end

