-- ==== Sys2Proof/Machine/PortOps.lean ====
section
/-! DEFINITION. Port engines at work: frames sent and received, time-stamps, one-step updates, engine registers (R377 to R381,
R397, R398). -/
namespace Sys2Proof.Machine
open Sys2Proof

/-! ## Frame check sequence (IEEE 802.3) -/

def crc32Bit (c : Word32) : Word32 := if c.getLsbD 0 then (c >>> 1) ^^^ 0xEDB88320 else c >>> 1
def crc32Byte (c : Word32) (b : Byte) : Word32 :=
  (List.range 8).foldl (fun c _ => crc32Bit c) (c ^^^ b.setWidth 32)
/-- The four FCS bytes as they leave the subport. -/
def fcsOf (frame : List Byte) : List Byte := leBytes 4 (~~~(frame.foldl crc32Byte 0xFFFFFFFF)).toNat

/-! ## Stamps (R397) -/

/-- Units of 2^−48 ns in a latency of `ps` picoseconds. -/
def psUnits (ps : Nat) : Int := ((ps * 2 ^ 48 / 1000 : Nat) : Int)

/-- The 96-bit stamp of base `b` on the die of engine `e`; `pos` is the LANE_POS of the lane that carries the delimiter. -/
def portStamp (s : Device) (e k b pos : Nat) (tx : Bool) : Nat :=
  let lat := match (subLanes s e k).find? fun l => enPos (laneAt s l).entry = pos with
    | some l => let p := (laneAt s l).pmaLat; if tx then psUnits (p.extractLsb' 0 16).toNat else -psUnits (p.extractLsb' 16 16).toNat
    | none => 0
  TimeBase.value96 { TimeBase.reset with val := wrapTb ((hubUnits s b : Int) + (replica s (e / 8) b).off + lat) }

/-- TBI (R397). -/
def stampTbi (s : Device) (e b : Nat) : Nat := b + bit (replica s (e / 8) b).holdover 7

/-! ## One-step (R398) -/

def beAt (bs : List Byte) (off n : Nat) : Nat := ofLe ((bs.drop off).take n).reverse
def beBytes (n v : Nat) : List Byte := (leBytes n v).reverse

/-- The offset after the Ethernet header's EtherType, behind up to two VLAN tags, and the EtherType. -/
def etherType (f : List Byte) : Nat × Nat :=
  let tag (t : Nat) : Bool := t = 0x8100 || t = 0x88A8
  if tag (beAt f 12 2) then (if tag (beAt f 16 2) then (22, beAt f 20 2) else (18, beAt f 16 2)) else (14, beAt f 12 2)

/-- Where a PTP event message lies in a frame: its offset, and the offset of its UDP header if it has one. PRESUMED (log 75). -/
def ptpAt (f : List Byte) : Option (Nat × Option (Nat × Bool)) :=
  let (o, t) := etherType f
  let event (p : Nat) (u : Option (Nat × Bool)) : Option (Nat × Option (Nat × Bool)) :=
    if p + 34 ≤ f.length ∧ leAt f p 1 % 16 ≤ 3 ∧ (leAt f p 1 % 16 ≠ 0 ∨ p + 44 ≤ f.length) then some (p, u) else none
  if t = 0x88F7 then event o none
  else if t = 0x0800 then
    let h := leAt f o 1 % 16 * 4
    if leAt f (o + 9) 1 = 17 ∧ beAt f (o + h + 2) 2 = 319 then event (o + h + 8) (some (o + h, true)) else none
  else if t = 0x86DD then
    if leAt f (o + 6) 1 = 17 ∧ beAt f (o + 42) 2 = 319 then event (o + 48) (some (o + 40, false)) else none
  else none

/-- A 96-bit time in units of 2^−16 ns. -/
def units16 (v : Nat) : Int := ((v / 2 ^ 48 * (10 ^ 9 * 2 ^ 16) + v % 2 ^ 48 : Nat) : Int)

/-- correctionField after an addition (R398). -/
def addCorrection (old : Nat) (d : Int) : Nat :=
  let v := toSigned 64 old + d
  if 2 ^ 63 - 1 < v then 2 ^ 63 - 1 else ofSigned 64 v

/-- Sum of the 16-bit words of a range, in ones' complement arithmetic. -/
def onesSum (bs : List Byte) (off n : Nat) : Nat := ((List.range (n / 2)).map fun i => beAt bs (off + 2 * i) 2).sum

def foldOnes (x : Nat) : Nat := let y := x % 65536 + x / 65536; let z := y % 65536 + y / 65536; z % 65536 + z / 65536

/-- The UDP checksum after `n` bytes at `off` have changed. -/
def udpUpdate (old new : List Byte) (off n : Nat) (u : Nat × Bool) : List Byte :=
  let c := beAt old (u.1 + 6) 2
  if u.2 ∧ c = 0 then new
  else
    let minus := (n / 2) * 65535 - onesSum old off n
    let v := 65535 - foldOnes (65535 - c + minus + onesSum new off n)
    spliceBytes new (u.1 + 6) (beBytes 2 (if v = 0 then 65535 else v))

/-- The frame after the one-step update; `none` where it is not recognised. -/
def oneStep (f : List Byte) (stamp ref : Nat) : Option (List Byte) :=
  match ptpAt f with
  | none => none
  | some (p, u) =>
    let corr := beAt f (p + 8) 8
    let g := if leAt f p 1 % 16 = 0 then
        let g := spliceBytes f (p + 34) (beBytes 6 (stamp / 2 ^ 48) ++ beBytes 4 (stamp / 2 ^ 16 % 2 ^ 32))
        spliceBytes g (p + 8) (beBytes 8 (addCorrection corr ((stamp % 2 ^ 16 : Nat) : Int)))
      else spliceBytes f (p + 8) (beBytes 8 (addCorrection corr (units16 stamp - units16 ref)))
    some (match u with
      | some u => udpUpdate f g (p + 8) 36 u
      | none => g)

/-! ## Descriptors (R378) -/

/-- Writes back STATUS, or the fields of a completed descriptor; the response is not awaited by the ring. -/
def putDesc (e addr : Nat) (d : List Byte) (s : Device) : Device := (busWrite (engineInit e) (engineOwner s e) addr d s).1

def maxFrame (x : Subport) : Nat := Nat.max (x.ctl.extractLsb' 16 14).toNat 64

/-- A frame reaches the subport's receive side (R377, R378, R397): stamped, and written to a buffer or dropped. DEDUCED (log 74). -/
def receiveFrame (e k pos : Nat) (frame : List Byte) (x : NetIn) (s : Device) : Device :=
  let p := subAt s e k
  let plot := engineOwner s e
  let i := engineInit e
  let n := frame.length
  let good := decide (4 ≤ n) && fcsOf (frame.take (n - 4)) = frame.drop (n - 4)
  let p := { p with rxFrames := satAdd 64 p.rxFrames 1, rxBytes := satAdd 64 p.rxBytes n,
                    fcsErr := if good then p.fcsErr else satAdd 32 p.fcsErr 1 }
  let b := s.time.rxBase.get 0 (subKey e k)
  let stamp := portStamp s e k b pos false
  if p.rxr.empty then setSub e k { p with rxDrop := satAdd 32 p.rxDrop 1 } s
  else
    let at' := p.rxr.descAddr (p.rxr.idx p.rxr.head)
    let s := setSub e k { p with rxr := p.rxr.advance } s
    match busRead i plot x at' 32 s with
    | (s, rc, d, _) =>
      if isErr rc then putDesc e (at' + 11) [3] s
      else
        let data := if p.ctl.getLsbD 1 ∧ 4 ≤ n then frame.take (n - 4) else frame
        let cap := leAt d 8 2
        let long := decide (maxFrame p < n) || decide (n < 64) || decide (cap < data.length)
        match busWrite i plot (leAt d 0 8 % 2 ^ 48) (data.take cap) s with
        | (s, rc) =>
          let st := if isErr rc then 3 else if long then 2 else if good then 0 else 1
          putDesc e (at' + 8) (leBytes 2 data.length ++ [0, BitVec.ofNat 8 st] ++ leBytes 4 0 ++ leBytes 12 stamp
            ++ leBytes 1 (stampTbi s e b)) s

/-- FRAME_RECEIVE. DESIGN CHOICE (log 76). -/
def frameReceive (e k pos : Nat) (frame : List Byte) (x : NetIn) (s : Device) : Device :=
  if ringsRun s e k && linkUp s e k && !(subAt s e k).ctl.getLsbD 2 then receiveFrame e k pos frame x s else s

/-- FRAME_TRANSMITTED: the descriptor at HEAD is served (R377, R378, R397, R398). -/
def frameTransmitted (e k pos : Nat) (x : NetIn) (s : Device) : Device :=
  let p := subAt s e k
  let plot := engineOwner s e
  let i := engineInit e
  if !ringsRun s e k || p.txr.empty then s
  else
    let at' := p.txr.descAddr (p.txr.idx p.txr.head)
    let s := setSub e k { p with txr := p.txr.advance } s
    match busRead i plot x at' 32 s with
    | (s, rc, d, x) =>
      if isErr rc then putDesc e (at' + 11) [3] s
      else if !linkUp s e k && !p.ctl.getLsbD 2 then putDesc e (at' + 11) [4] s
      else
        let n := leAt d 8 2
        let ctl := leAt d 10 1
        if n + 4 < 64 ∨ maxFrame p < n + 4 then putDesc e (at' + 11) [2] s
        else match busRead i plot x (leAt d 0 8 % 2 ^ 48) n s with
          | (s, rc, f, x) =>
            if isErr rc then putDesc e (at' + 11) [3] s
            else
              let b := bitsAt ctl 2 3
              let stamp := portStamp s e k b pos true
              let (f, s) := if bitAt ctl 1 then
                  match oneStep f stamp (leAt d 16 12) with
                  | some g => (g, s)
                  | none => (f, { s with time := { s.time with onestep := BitVec.ofNat 32 (satAdd 32 s.time.onestep.toNat 1) } })
                else (f, s)
              let out := f ++ fcsOf f
              let s := modSub e k (fun (p : Subport) =>
                { p with wire := out, txFrames := satAdd 64 p.txFrames 1, txBytes := satAdd 64 p.txBytes out.length }) s
              let s := if bitAt ctl 0 then putDesc e (at' + 16) (leBytes 12 stamp ++ leBytes 1 (stampTbi s e b)) s else s
              let s := putDesc e (at' + 11) [0] s
              if p.ctl.getLsbD 2 then receiveFrame e k pos out x s else s

/-! ## Link status (R380) -/

def pcsChange (e k : Nat) (r : PcsReport) (s : Device) : Device :=
  if subMapped s e k && subLanesUp s e k then
    modSub e k (fun (x : Subport) =>
      { x with aligned := r.aligned, local' := r.local', remote := r.remote, fecLock := r.fecLock,
               fecCorr := satAdd 32 x.fecCorr r.corr.toNat, fecUnc := satAdd 32 x.fecUnc r.unc.toNat }) s
  else s

/-! ## Engine registers (R381) -/

def engWidth (off : Nat) : Option (Nat × Nat) :=
  if off = 0 then some (0, 32)
  else if 0x1000 ≤ off ∧ off < 0x1800 then
    let r := off % 0x100
    if r = 0 ∨ r = 4 then some (off, 32)
    else if 8 ≤ r ∧ r < 0x10 ∨ 0x20 ≤ r ∧ r < 0x28 ∨ 0x40 ≤ r ∧ r < 0x60 then some (off / 8 * 8, 64)
    else if r = 0x10 ∨ r = 0x14 ∨ r = 0x18 ∨ r = 0x28 ∨ r = 0x2C ∨ r = 0x30 then some (off, 32)
    else if r = 0x60 ∨ r = 0x64 ∨ r = 0x68 ∨ r = 0x6C then some (off, 32)
    else none
  else none

def engStatus (s : Device) (e : Nat) : Nat :=
  let pm := ((engineLanes e).find? fun l => enMapped (laneAt s l).entry).map fun l => enPortMode (laneAt s l).entry
  pm.getD 0 + maskOf ((List.range 8).map fun k => subMapped s e k) * 2 ^ 8 + place (engineOwner s e) 16

def spStatus (s : Device) (e k : Nat) : Nat :=
  let x := subAt s e k
  bit (linkUp s e k) 0 + bit x.aligned 1 + bit x.local' 2 + bit x.remote 3 + bit x.fecLock 4
    + bit (subEn x && subStopping s e k) 5

def engRead (s : Device) (e off : Nat) : Nat :=
  if off = 0 then engStatus s e
  else
    let k := (off - 0x1000) / 0x100
    let x := subAt s e k
    match off % 0x100 with
    | 0x00 => x.ctl.toNat
    | 0x04 => spStatus s e k
    | 0x08 => x.txr.base
    | 0x10 => x.txr.size.toNat
    | 0x14 => x.txr.tail.toNat
    | 0x18 => x.txr.head.toNat
    | 0x20 => x.rxr.base
    | 0x28 => x.rxr.size.toNat
    | 0x2C => x.rxr.tail.toNat
    | 0x30 => x.rxr.head.toNat
    | 0x40 => x.txFrames
    | 0x48 => x.txBytes
    | 0x50 => x.rxFrames
    | 0x58 => x.rxBytes
    | 0x60 => x.fcsErr
    | 0x64 => x.rxDrop
    | 0x68 => x.fecCorr
    | 0x6C => x.fecUnc
    | _ => 0

def spMask : Nat := 0x3FFF000F

/-- A write to SP_CTL (R381, R41, R44). -/
def spCtlWrite (i : InitId) (e k v : Nat) (s : Device) : Device :=
  let x := subAt s e k
  let new := v &&& spMask
  let en := bitAt v 0
  let off := engineOff e + 0x1000 + k * 0x100
  let defers := en && !subEn x && subStopping s e k
  let s := if defers then csrDeferred i off x.ctl.toNat new s else csrRecord i off x.ctl.toNat new s
  let s := if !en && ringsRun s e k then stopSubport e k s else s
  modSub e k (fun (x : Subport) => { x with ctl := BitVec.ofNat 32 new, deferral := defers || (en && x.deferral) }) s

/-- A ring base or size is written while the rings are off; otherwise it is ignored with a C0 note (R381). -/
def ringWrite (i : InitId) (e k off old new : Nat) (f : Subport → Subport) (s : Device) : Device :=
  if subEn (subAt s e k) then noteAccess i (csrBase + engineOff e + off) s
  else csrRecord i (engineOff e + off) old new (modSub e k f s)

def engWrite (i : InitId) (e off v m : Nat) (s : Device) : Device :=
  if off < 0x1000 then s
  else
    let k := (off - 0x1000) / 0x100
    let x := subAt s e k
    let base (old : Nat) : Nat := maskWrite old v m &&& 0xFFFFFFFFFFE0
    match off % 0x100 with
    | 0x00 => spCtlWrite i e k v s
    | 0x08 => ringWrite i e k off x.txr.base (base x.txr.base) (fun x => { x with txr := { x.txr with base := base x.txr.base } }) s
    | 0x10 => ringWrite i e k off x.txr.size.toNat (v % 32) (fun x => { x with txr := { x.txr with size := BitVec.ofNat 5 v } }) s
    | 0x14 => modSub e k (fun (x : Subport) => { x with txr := { x.txr with tail := BitVec.ofNat 16 v } }) s
    | 0x20 => ringWrite i e k off x.rxr.base (base x.rxr.base) (fun x => { x with rxr := { x.rxr with base := base x.rxr.base } }) s
    | 0x28 => ringWrite i e k off x.rxr.size.toNat (v % 32) (fun x => { x with rxr := { x.rxr with size := BitVec.ofNat 5 v } }) s
    | 0x2C => modSub e k (fun (x : Subport) => { x with rxr := { x.rxr with tail := BitVec.ofNat 16 v } }) s
    | _ => s

end Sys2Proof.Machine
end

