-- ==== Sys2Proof/Machine/Csr.lean ====
section
/-! DEFINITION. The CSR window (R9 to R12, R31 to R35): where each block lies, who may reach it, and reads and writes of its
registers; the registers of the rings, the spine and the initiator windows (R263 to R265) and of the DBG block (R598). -/
namespace Sys2Proof.Machine
open Sys2Proof

/-! ## The map (R33, R34) -/

/-- A block of registers. -/
inductive Blk where
  | hub | cmd | cfg | sec | alm | flt | tim | dbg
  | mem (c : Nat) | enc | trl | d2d | cxl
  | bed (b : Nat) | core (c : Nat) | quad (q : Nat) | engine (e : Nat) | gpio (d : Nat) | rings (d : Nat)
  /-- Offsets of a compute die's block in no sub-block. -/
  | hole
  deriving DecidableEq, Repr

/-- The block that holds an offset from the CSR base, and the block's own offset; `none` is no block. -/
def blkOf (o : Nat) : Option (Blk × Nat) :=
  if o < 0x80000 then
    some (match o / 0x10000 with
      | 0 => .hub | 1 => .cmd | 2 => .cfg | 3 => .sec | 4 => .alm | 5 => .flt | 6 => .tim | _ => .dbg, o / 0x10000 * 0x10000)
  else if 0x100000 ≤ o ∧ o < 0x118000 then some (.mem ((o - 0x100000) / 0x1000), o / 0x1000 * 0x1000)
  else if 0x200000 ≤ o ∧ o < 0x300000 then some (.enc, 0x200000)
  else if 0x300000 ≤ o ∧ o < 0x400000 then some (.trl, 0x300000)
  else if 0x400000 ≤ o ∧ o < 0x500000 then some (.d2d, 0x400000)
  else if 0x500000 ≤ o ∧ o < 0x600000 then some (.cxl, 0x500000)
  else if 0x1000000 ≤ o ∧ o < 0x9000000 then
    let d := (o - 0x1000000) / 0x1000000
    let x := o % 0x1000000
    some (if x < 0x30000 then (.bed (d * 48 + x / 0x1000), o / 0x1000 * 0x1000)
      else if 0x100000 ≤ x ∧ x < 0x200000 then (.core (d * 16 + (x - 0x100000) / 0x10000), o / 0x10000 * 0x10000)
      else if 0x200000 ≤ x ∧ x < 0x210000 then (.quad (d * 16 + (x - 0x200000) / 0x1000), o / 0x1000 * 0x1000)
      else if 0x300000 ≤ x ∧ x < 0x380000 then (.engine (d * 8 + (x - 0x300000) / 0x10000), o / 0x10000 * 0x10000)
      else if 0x400000 ≤ x ∧ x < 0x410000 then (.gpio d, o / 0x10000 * 0x10000)
      else if 0x500000 ≤ x ∧ x < 0x510000 then (.rings d, o / 0x10000 * 0x10000)
      else (.hole, o))
  else none

/-! ## Who reaches a block (R31, R361) -/

/-- The plot owns the part of a quad at this offset (R361). DEDUCED (log 20). -/
def ownsQuad (s : Device) (plot q off : Nat) : Bool :=
  let mine (i : Nat) : Bool := laneOwner s (q * 4 + i) = plot
  if 0x100 ≤ off ∧ off < 0x200 then mine ((off - 0x100) / 0x40)
  else if 0x200 ≤ off ∧ off < 0x240 then mine ((off - 0x200) / 0x10)
  else if 0x800 ≤ off ∧ off < 0xA00 then mine ((off - 0x800) / 0x80)
  else (List.range 4).any mine

/-- R31, for a request of this initiator with this plot. DEDUCED (log 19). -/
def csrOpen (s : Device) (i : InitId) (plot : Nat) (b : Blk) (off : Nat) : Bool :=
  isMgmtCore i || plot = 0 || match b with
    | .bed n => bedOwner s n = plot
    | .core c => coreOwner s c = plot
    | .quad q => ownsQuad s plot q off
    | .engine e => engineOwner s e = plot
    | .cxl => off / 4 * 4 = 0x1000 + plot * 4
    | _ => false

/-! ## Rings and initiator windows (R263 to R265) -/

def ringCtl (r : Rings) : Nat := r.starve.toNat + place r.promote.toNat 16

/-- The initiator of a window; `none` where R239 lists none. -/
def winInit (d local' : Nat) : Option InitId :=
  let i : InitId := BitVec.ofNat 12 (d * 256 + local')
  if initKind i = .none then none else some i

/-- The initiator and window offset that an offset of a ring sub-block (base 0x8000) or of TRL (base 0x80000) names. -/
def winAt (d base lim off : Nat) : Option (InitId × Nat) :=
  if base ≤ off ∧ off < base + lim * 0x100 then (winInit d ((off - base) / 0x100)).map fun i => (i, off % 0x100) else none

def winWidth (r : Nat) : Option (Nat × Nat) :=
  if r < 0x10 ∨ (0x80 ≤ r ∧ r < 0x84) then some (r / 4 * 4, 32)
  else if 0x88 ≤ r ∧ r < 0x98 then some (r / 8 * 8, 64)
  else if (0x98 ≤ r ∧ r < 0xB0) ∨ 0xC0 ≤ r then some (r / 4 * 4, 32)
  else none

def initCfg (s : Device) (i : InitId) : Nat :=
  (win s i).weight.toNat + place (initPri s i).toNat 4 + place (initOutst i) 16

def tagsIn (w : InitWin) (x : TagState) : Nat := (w.tags.cells.filter fun t => t.2.st = x).length

def winRead (s : Device) (i : InitId) (r : Nat) : Nat :=
  let w := win s i
  let st := w.stats
  match r with
  | 0x00 => initCfg s i
  | 0x04 => w.tmo.toNat
  | 0x08 => w.taint.toNat
  | 0x0C => bit w.stalled 0 + place w.taints.length 1 + place (tagsIn w .busy) 8 + place w.expired.length 19
  | 0x80 => bit w.freeze 1
  | 0x88 => st.rdBytes
  | 0x90 => st.wrBytes
  | 0x98 => st.reqs
  | 0x9C => st.maxLat
  | 0xA0 => st.tmo
  | 0xA4 => st.near
  | 0xA8 => st.late
  | 0xAC => st.err
  | _ => st.hist.getD ((r - 0xC0) / 4) 0

/-- The class that a write of INIT_CFG.PRI stores. -/
def storedPri (i : InitId) (v : Nat) : BitVec 2 := if v % 4 = 3 ∧ !isMgmtCore i ∧ i ≠ islandInit then 2 else BitVec.ofNat 2 v

/-- A write to register `r` of the window of initiator `j`, at `blk` from the CSR base, by initiator `i`. -/
def winWrite (i : InitId) (blk : Nat) (j : InitId) (r v : Nat) (s : Device) : Device :=
  let w := win s j
  let change (f : InitWin → InitWin) (s : Device) : Device :=
    let t := setWin j (f w) s
    csrRecord i (blk + r) (winRead s j r) (winRead t j r) t
  match r with
  | 0x00 => change (fun w => { w with weight := BitVec.ofNat 4 v, pri := some (storedPri j (v / 16)) }) s
  | 0x04 => change (fun w => { w with tmo := BitVec.ofNat 30 v }) s
  | 0x08 => change (fun w => { w with taint := BitVec.ofNat 16 v }) s
  | 0x80 =>
    let s := setWin j { w with freeze := bitAt v 1 } s
    if bitAt v 0 then clearStats j s else s
  | _ => s

/-- RING_CTL, RING_LAPS and RING_FLITERR of a die's rings or of the spine. -/
def ringRead (s : Device) (site : Site) (off : Nat) : Nat :=
  let r := ringsOf s site
  if off = 0 then ringCtl r else if off = 8 then r.laps.toNat else r.corr.toNat + place r.unc.toNat 16

def ringWidth (off : Nat) : Option (Nat × Nat) :=
  if off < 4 ∨ (8 ≤ off ∧ off < 0x10) then some (off / 4 * 4, 32) else none

def ringCtlWrite (i : InitId) (blk : Nat) (site : Site) (v : Nat) (s : Device) : Device :=
  let f (r : Rings) : Rings := { r with starve := BitVec.ofNat 10 v, promote := BitVec.ofNat 12 (v / 2 ^ 16) }
  csrRecord i blk (ringCtl (ringsOf s site)) (ringCtl (f (ringsOf s site))) (setRings site f s)

def dieSite (d : Nat) : Site := .die (Fin.ofNat 8 d)

/-- Registers of a ring sub-block, windows included. -/
def ringsWidth (d off : Nat) : Option (Nat × Nat) :=
  match winAt d 0x8000 0x68 off with
  | some (_, r) => (winWidth r).map fun x => (off / 0x100 * 0x100 + x.1, x.2)
  | none => ringWidth off

def ringsRead (s : Device) (d off : Nat) : Nat :=
  match winAt d 0x8000 0x68 off with
  | some (i, r) => winRead s i r
  | none => ringRead s (dieSite d) off

def ringsWrite (i : InitId) (blk d off v : Nat) (s : Device) : Device :=
  match winAt d 0x8000 0x68 off with
  | some (j, r) => winWrite i (blk + off / 0x100 * 0x100) j r v s
  | none => if off = 0 then ringCtlWrite i blk (dieSite d) v s else s

/-- Registers of the TRL block. -/
def trlWidth (off : Nat) : Option (Nat × Nat) :=
  match winAt 8 0x80000 0x20 off with
  | some (_, r) => (winWidth r).map fun x => (off / 0x100 * 0x100 + x.1, x.2)
  | none => if 0x10 ≤ off ∧ off < 0x14 then some (0x10, 32) else ringWidth off

def trlRead (s : Device) (off : Nat) : Nat :=
  match winAt 8 0x80000 0x20 off with
  | some (i, r) => winRead s i r
  | none => if off = 0x10 then s.trl.hlUp.toNat + place s.trl.nlUp.toNat 8 else ringRead s .hub off

def trlWrite (i : InitId) (blk off v : Nat) (s : Device) : Device :=
  match winAt 8 0x80000 0x20 off with
  | some (j, r) => winWrite i (blk + off / 0x100 * 0x100) j r v s
  | none => if off = 0 then ringCtlWrite i blk .hub v s else s

/-! ## The DBG block (R590 to R595, R598) -/

def dbgWidth (off : Nat) : Option (Nat × Nat) :=
  if off < 4 ∨ (0x10 ≤ off ∧ off < 0x50) ∨ (0x100 ≤ off ∧ off < 0x104) then some (off / 4 * 4, 32)
  else if 0x1000 ≤ off ∧ off < 0x3000 then
    let r := off % 0x40
    if r < 0x10 then some (off / 4 * 4, 32) else if r < 0x20 then some (off / 8 * 8, 64) else none
  else none

def dbgStatus (s : Device) : Nat :=
  (match s.dbg.session with | some x => 1 + place x.plot.val 1 + place x.rights.toNat 5 | none => 0)
    + bit s.dbg.vprobe 10 + bit s.dbg.vstby 11 + place (s.dbg.fails % 16) 12

def coreDbgCtl (x : CoreDbg) : Nat := bit x.haltReq 0 + bit x.monReq 4 + bit x.bp0En 5 + bit x.bp1En 6

def coreDbgStat (x : CoreDbg) : Nat :=
  bit x.halted 0 + bit (x.haltReq && !x.halted && !x.halting) 1 + bit x.waited.isSome 2 + bit x.tgtReset 3 + bit x.fedErr 4
    + place x.fedCode.toNat 5 + place x.near.toNat 16

/-- MGMT_CTL; in DEPLOYED WDT_FREEZE reads 0 (R593). -/
def mgmtCtlRead (s : Device) : Nat :=
  let m := s.dbg.mgmtCtl.toNat
  (if s.trust.lifecycle = .deployed then m % 4 else m) + place (m % 4) 3

def dbgRead (s : Device) (off : Nat) : Nat :=
  if off = 0 then dbgStatus s
  else if off < 0x50 then
    let p := (off - 0x10) / 4
    (freezeCfg s p).toNat + bit (plotFrozen s p) 4
  else if off = 0x100 then mgmtCtlRead s
  else
    let x := (coreAt s ((off - 0x1000) / 0x40)).dbg
    match off % 0x40 with
    | 0x00 => coreDbgCtl x
    | 0x04 => coreDbgStat x
    | 0x08 => x.bp0.toNat
    | 0x0C => x.bp1.toNat
    | 0x10 => x.bundle.toNat % 2 ^ 64
    | _ => x.bundle.toNat / 2 ^ 64

/-- A right of the open session: 0 HALT, 1 MONITOR, 2 FREEZE, 3 RETENTION, 4 MGMT (R584). -/
def hasRight (s : Device) (k : Nat) : Bool := s.dbg.session.any fun x => x.rights.getLsbD k

/-- CORE_DBG_CTL: the fields whose right the session holds (R590 to R594). -/
def coreDbgWrite (c v : Nat) (s : Device) : Device :=
  let s := if hasRight s 1 && bitAt v 4 ≠ (coreAt s c).dbg.monReq then monReq c (bitAt v 4) s else s
  if !hasRight s 0 then s
  else
    let s := if bitAt v 0 ≠ (coreAt s c).dbg.haltReq then haltReqWrite c (bitAt v 0) s else s
    let s := modCore c (fun x => { x with dbg := { x.dbg with bp0En := bitAt v 5, bp1En := bitAt v 6 } }) s
    let s := if bitAt v 1 then coreResume c s else s
    let s := if bitAt v 2 then coreStep c s else s
    if bitAt v 3 then coreExec c s else s

/-- MGMT_CTL needs MGMT (R593); packets that waited for the command pair are taken when it runs again. -/
def mgmtCtlWrite (v : Nat) (s : Device) : Device :=
  if !hasRight s 4 then s
  else
    let was := cmdHalted s
    let s := { s with dbg := { s.dbg with mgmtCtl := BitVec.ofNat 3 v } }
    if was && !cmdHalted s then unpark s else s

/-- A write by the island to a register of the DBG block. DEDUCED (log 21). -/
def dbgWrite (off v m : Nat) (s : Device) : Device :=
  let s := if 0x10 ≤ off ∧ off < 0x50 then
      { s with dbg := { s.dbg with freezeCfg := s.dbg.freezeCfg.set 4 ((off - 0x10) / 4) (BitVec.ofNat 4 v) } }
    else if off = 0x100 then mgmtCtlWrite v s
    else if 0x1000 ≤ off then
      let c := (off - 0x1000) / 0x40
      let upd (f : CoreDbg → CoreDbg) : Device := modCore c (fun x => { x with dbg := f x.dbg }) s
      match off % 0x40 with
      | 0x00 => coreDbgWrite c v s
      | 0x04 => upd fun x => { x with tgtReset := x.tgtReset && !bitAt v 3, fedErr := x.fedErr && !bitAt v 4 }
      | 0x08 => upd fun x => { x with bp0 := BitVec.ofNat 16 (v &&& 0xFFF0) }
      | 0x0C => upd fun x => { x with bp1 := BitVec.ofNat 16 (v &&& 0xFFF0) }
      | 0x10 => upd fun x => { x with bundle := BitVec.ofNat 128 (maskWrite x.bundle.toNat v (m % 2 ^ 64)) }
      | 0x18 => upd fun x => { x with bundle := BitVec.ofNat 128 (maskWrite x.bundle.toNat (v * 2 ^ 64) (m % 2 ^ 64 * 2 ^ 64)) }
      | _ => s
    else s
  freezeBeds s

/-! ## GPIO sub-blocks -/

/-- The bank at an offset of a die's GPIO sub-block; CD1, CD2, CD5 and CD6 have none (R34, R608). -/
def bankAt (d off : Nat) : Option Nat :=
  if off < 0x4000 then (if d = 0 then some 0 else if d = 3 then some 4 else if d = 4 then some 8 else if d = 7 then some 12 else none).map (· + off / 0x1000)
  else none

def inBank (off : Nat) (w : Nat → Option (Nat × Nat)) : Option (Nat × Nat) := (w (off % 0x1000)).map fun x => (off / 0x1000 * 0x1000 + x.1, x.2)

/-! ## Widths and values -/

/-- The register at an offset of a block, and its width. -/
def blkWidth (b : Blk) (off : Nat) : Option (Nat × Nat) :=
  match b with
  | .hub => if off < 8 then some (0, 64) else none
  | .cmd => cmdWidth off
  | .cfg => cfgWidth off
  | .sec => secWidth off
  | .alm => almWidth off
  | .flt => fltWidth off
  | .tim => timWidth off
  | .dbg => dbgWidth off
  | .mem _ => if 0x100 ≤ off ∧ off < 0x114 then some (off / 4 * 4, 32) else memWidth off
  | .enc => encWidth off
  | .trl => trlWidth off
  | .d2d => d2dWidth off
  | .cxl => cxlWidth off
  | .bed _ => bedWidth off
  | .core _ => coreWidth off
  | .quad _ => quadWidth off
  | .engine _ => engWidth off
  | .gpio d => if (bankAt d off).isSome then inBank off gpioWidth else none
  | .rings d => ringsWidth d off
  | .hole => none

/-- The value of the register at an offset of a block. -/
def blkRead (s : Device) (b : Blk) (off : Nat) : Nat :=
  match b with
  | .hub => hubStepping
  | .cmd => cmdRead s off
  | .cfg => cfgRead s off
  | .sec => secRead s off
  | .alm => almRead s off
  | .flt => fltRead s off
  | .tim => timRead s off
  | .dbg => dbgRead s off
  | .mem c => if 0x100 ≤ off ∧ off < 0x114 then windowRead s (phyId c) (off - 0x100) else memRead s c off
  | .enc => encRead s off
  | .trl => trlRead s off
  | .d2d => d2dRead s off
  | .cxl => cxlRead s off
  | .bed n => bedRead s n off
  | .core c => coreRead s c off
  | .quad q => if 0x100 ≤ off ∧ off < 0x200 then windowRead s (pmaId (q * 4 + (off - 0x100) / 0x40)) (off % 0x40) else quadRead s q off
  | .engine e => engRead s e off
  | .gpio d => gpioRead s ((bankAt d off).getD 0) (off % 0x1000)
  | .rings d => ringsRead s d off
  | .hole => 0

/-- A write of the bits `m` of register `off`; `none` is refused as R32 states. Blocks not listed are read only. -/
def blkWrite (i : InitId) (b : Blk) (blk off v m : Nat) (s : Device) : Option Device :=
  match b with
  | .cmd => some (cmdWrite i blk off v s)
  | .cfg => some (cfgWrite i blk off v s)
  | .flt => some (fltWrite off v s)
  | .dbg => if i = islandInit then some (dbgWrite off v m s) else none
  | .mem c => some (if 0x100 ≤ off ∧ off < 0x114 then shellWrite i (phyId c) (off - 0x100) v s else memWrite i (blk + off) c off v m s)
  | .trl => some (trlWrite i blk off v s)
  | .cxl => some (if 0x1000 ≤ off ∧ off < 0x1040 then msixTrigger ((off - 0x1000) / 4) (v % 128) s else s)
  | .bed n => bedWrite i n off v s
  | .core c => some (coreWrite i c off v m s)
  | .quad q =>
    let r := off % 0x40
    some (if 0x100 ≤ off ∧ off < 0x200 ∧ (isMgmtCore i ∨ (r ≠ 0 ∧ r ≠ 4 ∧ stampPlot s i = 0))
      then shellWrite i (pmaId (q * 4 + (off - 0x100) / 0x40)) r v s else s)
  | .engine e => some (engWrite i e off v m s)
  | .gpio d =>
    match bankAt d off with
    | some g => some (gpioWrite i g (off % 0x1000) v s)
    | none => some s
  | .rings d => some (ringsWrite i blk d off v s)
  | _ => some s

/-! ## Accesses -/

/-- A read of TB_NOW, in whole or of its lower half, latches SEC, but not with the debug attribute (R14, R403). -/
def readEffect (i : InitId) (b : Blk) (off : Nat) (s : Device) : Device :=
  match b with
  | .tim => if 0x100 ≤ off ∧ off < 0x300 ∧ off % 0x40 = 8 ∧ i ≠ islandInit then tbNowLatch ((off - 0x100) / 0x40) s else s
  | _ => s

/-- A read of `size` bytes at a device address of the CSR window by an initiator with a stamped plot: its response code and
value. -/
def csrRead (i : InitId) (plot a size : Nat) (s : Device) : Device × Byte × Nat :=
  match blkOf (a - csrBase) with
  | none => (s, rcDecode, 0)
  | some (b, blk) =>
    let off := a - csrBase - blk
    if !csrOpen s i plot b off then (s, rcDenied, 0)
    else
      let r := match b with
        | .core c => coreCsrRead i c off size s
        | _ => regRead (blkWidth b) (blkRead s b) blk i off size s
      match r with
      | none => (s, rcBad, 0)
      | some (v, s) => (readEffect i b off s, rcOkay, v)

/-- A write. -/
def csrWrite (i : InitId) (plot a size v : Nat) (s : Device) : Device × Byte :=
  match blkOf (a - csrBase) with
  | none => (s, rcDecode)
  | some (b, blk) =>
    let off := a - csrBase - blk
    if !csrOpen s i plot b off then (s, rcDenied)
    else match regWrite (blkWidth b) off size v with
      | none => (s, rcBad)
      | some none => (s, rcOkay)
      | some (some (base, v, m)) =>
        if almRefuses (fun s => (blkWrite i b blk base v m s).getD s) s then (s, rcDenied)
        else match blkWrite i b blk base v m s with
        | none => (s, rcDenied)
        | some s => (s, rcOkay)

/-- A refusal of R32 raises a C0 note against the initiator. -/
def denyNote (i : InitId) (a : Nat) (rc : Byte) (s : Device) : Device := if rc = rcDenied then noteAccess i a s else s

/-- A register access of a row of its own, performed at its target and answered there. -/
def csrAccRead (x : CsrAcc) (s : Device) : Device :=
  let (s, rc, v) := csrRead x.init (stampPlot s x.init) x.addr.toNat x.size s
  { denyNote x.init x.addr.toNat rc s with answer := some (rc, BitVec.ofNat 64 v) }

def csrAccWrite (x : CsrAcc) (s : Device) : Device :=
  let (s, rc) := csrWrite x.init (stampPlot s x.init) x.addr.toNat x.size x.data.toNat s
  { denyNote x.init x.addr.toNat rc s with answer := some (rc, 0) }

/-- A write of a register at an offset from the CSR base, by an initiator. -/
def regRow (i : InitId) (off size v : Nat) (s : Device) : Device :=
  csrAccWrite { init := i, addr := BitVec.ofNat 48 (csrBase + off), size, data := BitVec.ofNat 64 v } s

/-- A register write to a shell by an initiator. Where the window has no address the write reaches the shell itself, from whom
R31 lets reach what no plot owns. -/
def shellRow (i : InitId) (id : ShellId) (r v : Nat) (s : Device) : Device :=
  if !shellHidden id then regRow i (shellOff id + r) 4 v s
  else if !(isMgmtCore i || stampPlot s i = 0) || almRefuses (shellWrite i id r v) s then
    { noteAccess i (csrBase + shellOff id + r) s with answer := some (rcDenied, 0) }
  else { shellWrite i id r v s with answer := some (rcOkay, 0) }

end Sys2Proof.Machine
end

