-- ==== Sys2Proof/Machine/Target.lean ====
section
/-! DEFINITION. Requests at their targets, and responses at their initiators (R27 to R32, R234, R236, R241 to R257, R413): the
commands of the Trellis family. -/
namespace Sys2Proof.Machine
open Sys2Proof

/-! ## Targets -/

/-- A register (R9, R31, R245). -/
def csrRequest (p : Pkt) (s : Device) : Device :=
  let a := p.addr.toNat
  match p.opc with
  | .atomic => failReq p rcBad s
  | .read =>
    let (s, rc, v) := csrRead p.init p.plot.val a (pktSize p) s
    if isErr rc then failReq p rc (denyNote p.init a rc s) else respond p rc (leBytes (pktSize p) v) s
  | o =>
    let (s, rc) := csrWrite p.init p.plot.val a (pktSize p) (ofLe p.data) s
    if isErr rc then failReq p rc (if o = .pwrite then s else denyNote p.init a rc s) else respond p rc [] s

/-- A request at its target stop. -/
def atTarget (p : Pkt) (s : Device) : Device :=
  if tooOld s p then s
  else if !formOk p then failReq p rcBad s
  else match spotOf p.addr.toNat with
    | .lpddr => memRequest [] p s
    | .host => hostRequest p s
    | .bed b => bedRequest b p s
    | .core c cls off => coreRequest c cls off p s
    | .csr => csrRequest p s
    | .nothing => failReq p rcDecode s

/-- A request crosses the network and reaches its target, or the bridge at which no route exists (R236). -/
def throughNet (p : Pkt) (s : Device) : Device :=
  match route s (initSite p.init) (targetSite p.addr.toNat) with
  | none => let b := stuckAt s p; noRouteAt b.1 b.2 p s
  | some _ => atTarget p s

/-! ## Requests as commands -/

/-- The data of a write, one byte for each that the request names. -/
def fitReq (opc : Opc) (r : TrlReq) : TrlReq :=
  let n := r.bcnt.toNat + 1
  { r with data := if opc = .write ∨ opc = .pwrite then (r.data ++ List.replicate (n - r.data.length) 0).take n else [] }

/-- The part of BAR0 beyond the CSR window (R407), as the device addresses that its offsets would reach. DEDUCED (log 55). -/
def barHole (a : Nat) : Bool := csrBase + 0x9000000 ≤ a && a < csrBase + 0x10000000

/-- A BAR0 access of a logical device that carries no traffic ends with Unsupported Request (R406). One beyond the CSR
window is answered at the port: reads return 0 and writes are ignored (R11, R407). -/
def barred (opc : Opc) (r : TrlReq) (s : Device) : Option Device :=
  match initKind r.init with
  | .cxl ld =>
    if r.tag.isSome then none
    else if !s.cxl.linkUp || !ioPasses s then some s
    else if !ldLive s ld then some (sendHost (.unsupported ld) s)
    else if barHole r.addr.toNat then
      some (if opc = .read then sendHost (.barRead ld (List.replicate (r.bcnt.toNat + 1) 0)) s else s)
    else none
  | _ => none

/-- The opcode and atomic type that a request carries: those of its row, or the reserved ones that a bed's user logic presents (R244). -/
def presented (opc : Opc) (at' : AtType) (r : TrlReq) : Opc × AtType :=
  match r.odd, initKind r.init with
  | some (o, t), .bed _ => if carriesRsp o.toNat then (opc, at') else (opcOf o.toNat, atypeOf t.toNat)
  | _, _ => (opc, at')

/-- A request of a row: issued by its initiator if it is new, else taken from the network; then performed or refused. A new one that only
enters its stop's queue is carried by the rings. DESIGN CHOICE (log 56). -/
def requestRow (opc : Opc) (at' : AtType) (r : TrlReq) (s : Device) : Device :=
  match barred opc r s with
  | some s => s
  | none =>
    let c := presented opc at' r
    match takeReq (initFrozen s r.init) c.1 c.2 (fitReq c.1 r) s with
    | none => s
    | some (s, p) =>
      if r.enters && r.tag.isNone then enterAt (.req p) (siteNo (initSite p.init)) (initStop p.init) none s
      else settle (throughNet p s)

/-! ## Responses -/

/-- A response, or the stop's own TIMEOUT, is delivered to its initiator, unless that is a bed out of service (R259). -/
def deliverRsp (i : InitId) (tag : Nat) (opc : Opc) (a : Nat) (rc : Byte) (data : List Byte) (s : Device) : Device :=
  match initKind i with
  | .ls c =>
    match (coreAt s c).hold with
    | .excl => modCore c (fun x => { x with hold := .answered rc (BitVec.ofNat 64 (ofLe data)) }) s
    | _ => s
  | .dma c ch => dmaResponse c ch tag rc data s
  | .island =>
    match s.dbg.request with
    | some (t, _) => if t = tag then { s with dbg := { s.dbg with request := none, rcode := rc, data := BitVec.ofNat 64 (ofLe data) } } else s
    | none => s
  | .cxl ld => cxlDeliver ld opc a rc data s
  | .none => s
  | .bed b => if (bedAt s b).st.holdsConfig then { s with answer := some (rc, BitVec.ofNat 64 (leAt data 0 8)) } else s
  | _ => { s with answer := some (rc, BitVec.ofNat 64 (leAt data 0 8)) }

/-- A response at its initiator's stop (R254, R257). -/
def responseHere (r : Rsp) (s : Device) : Device :=
  let i := r.req.init
  let (s, ok) := arrive (initFrozen s i) r s
  if ok then settle (deliverRsp i r.req.tag.toNat r.req.opc r.req.addr.toNat r.rcode r.data s) else s

/-- A response crosses the network. One that finds no route is lost, and the timeout completes its request. -/
def responseAt (r : Rsp) (s : Device) : Device :=
  match route s (rspSite s r) (initSite r.req.init) with
  | none => s
  | some _ => responseHere r s

def keyOf (k : RspKey) (p : Pkt) : Bool := p.init = k.init && p.tag = k.tag && p.gen = k.gen

/-- What a bed's answer carries: as many bytes as a read asked for. -/
def userRsp (p : Pkt) (rc : Byte) (d : List Byte) : Rsp :=
  { req := p, rcode := rc, data := if p.opc = .read ∧ !isErr rc then sliceBytes d 0 (pktSize p) else [] }

/-- A request at a bed's access point that the bed does not answer: it is completed with DECODE_ERROR (R30). A request that the bed has
accepted is, only once the bed is CUT. -/
def bedRefuses (s : Device) (w : Waiting) : Bool :=
  match w.why with
  | .bed b => !bedAnswers s b
  | .taken b => decide ((bedAt s b).st = .cut)
  | _ => false

/-- TRELLIS_RESPONSE: the response with this tag and generation; `user` is what a bed's user logic does with a request in its target
window. DEDUCED (log 51), DEDUCED (log 52). -/
def trellisResponse (k : RspKey) (user : Option UserLogic) (s : Device) : Device :=
  match s.trl.rsps.find? fun r => keyOf k r.req with
  | some r => responseAt r { s with trl := { s.trl with rsps := s.trl.rsps.erase r } }
  | none =>
    match user, s.trl.waiting.find? fun w => keyOf k w.pkt && (match w.why with | .bed _ | .taken _ => true | _ => false) with
    | some u, some w =>
      let gone : Device := { s with trl := { s.trl with waiting := s.trl.waiting.erase w } }
      let queued : Bool := match w.why with | .bed _ => true | _ => false
      if queued && tooOld s w.pkt then gone
      else if bedRefuses s w then failReq w.pkt rcDecode gone
      else match u with
        | .accept => match w.why with
          | .bed b => { gone with trl := { gone.trl with waiting := gone.trl.waiting ++ [{ pkt := w.pkt, why := .taken b }] } }
          | _ => s
        | .answer rc d => if tooOld s w.pkt then gone else responseAt (userRsp w.pkt rc d) gone
    | _, _ => s

/-- Requests at a bed that has left service are answered with DECODE_ERROR (R30). -/
def bedQueues (s : Device) : Device :=
  let ws := s.trl.waiting.filter (bedRefuses s)
  if ws.isEmpty then s
  else ws.foldl (fun s w => failReq w.pkt rcDecode s) { s with trl := { s.trl with waiting := s.trl.waiting.filter fun w => !bedRefuses s w } }

/-- INIT_TMO: the stop delivers TIMEOUT (R253). -/
def initTmo (i : InitId) (t : Nat) (s : Device) : Device :=
  let x := tagOf (win s i) t
  match expire (initFrozen s i) i t s with
  | none => s
  | some s => settle (deliverRsp i t x.opc x.addr rcTimeout [] s)

/-! ## Bridges -/

/-- A packet at a bridge: a dead one is discarded (R248); else the bridge chooses its path (R236, R237): over its own link, where it waits
for flit credits, or over the rings to another bridge. -/
def bridgeTakes (site stop : Nat) (g : Leg) (s : Device) : Device :=
  let s := freeFlits g.src (parcelCls g.body) (g.body.flits - g.sent) (dropLeg g.id s)
  if tooOld s g.body.pkt then leaveNet g.body s
  else match bridgeFor s site (boundFor s g.body).1 with
    | none => match g.body with
      | .req p => noRouteAt site stop p (leaveNet g.body s)
      | .rsp _ => leaveNet g.body s
    | some b =>
      if b = stop then
        match bridgeLink site stop with
        | some (l, d) => fillStrands l d (addLeg { g with id := s.trl.serial, site, stop, dst := stop, stage := .bridge l d, head := none, src := none } s)
        | none => leaveNet g.body s
      else addLeg (newLeg s (ringCycles s.time.ticks) g.body site stop none) s

/-- The leg of a packet of the network; one that has none stands at its first stop. -/
def legOf (x : Parcel) (s : Device) : Leg :=
  match s.trl.legs.find? fun g => g.body = x with
  | some g => g
  | none => let b := boundFrom s x; newLeg s (ringCycles s.time.ticks) x b.1 b.2 none

/-- BRIDGE_FORWARD: a packet of the network that stands on a site, bound for another, reaches the bridge that takes it on. -/
def bridgeForward (site : Site) (response : Bool) (k : RspKey) (s : Device) : Device :=
  let x : Option Parcel :=
    if response then (s.trl.rsps.find? fun r => keyOf k r.req).map .rsp else (s.trl.net.find? (keyOf k)).map .req
  match x with
  | none => s
  | some x =>
    let g := legOf x s
    let waits : Bool := match g.stage with | .bridge _ _ => true | _ => false
    if g.site ≠ siteNo site || g.final || waits then s
    else
      let path := (route s site (siteAt (boundFor s x).1)).getD []
      bridgeTakes g.site g.dst g { s with trl := { s.trl with lastRoute := path } }

/-- Packets of age 31 or more go, wherever they wait; requests that a target has begun stay (R248). -/
def begun (w : Waiting) : Bool := match w.why with | .taken _ => true | _ => false

/-- PACKET_AGE_DISCARD (R248). -/
def ageDiscard (s : Device) : Device :=
  { s with trl := { s.trl with net := s.trl.net.filter fun p => !tooOld s p
                               waiting := s.trl.waiting.filter fun w => begun w || !tooOld s w.pkt
                               rsps := s.trl.rsps.filter fun r => !tooOld s r.req } }

end Sys2Proof.Machine
end

