-- ==== Sys2Proof/Machine/Rings.lean ====
section
/-! DEFINITION. The rings: insertion and arbitration at the stops, movement, ejection, marks and reserved slots (R230 to R235, R249 to
R252). -/
namespace Sys2Proof.Machine
open Sys2Proof

/-! ## Legs and packets -/

/-- Legs of the packets that are still in the network, each packet with one, and the legs that are left over. -/
def matchLegs : List Parcel → List Leg → List Leg × List Parcel × List Leg
  | [], ls => ([], [], ls)
  | x :: xs, ls =>
    match ls.find? fun g => g.body = x with
    | some g => let r := matchLegs xs (ls.erase g); (g :: r.1, r.2.1, r.2.2)
    | none => let r := matchLegs xs ls; (r.1, x :: r.2.1, r.2.2)

/-- A slot whose flit is gone is empty; it travels on reserved if it was marked (R252). -/
def Slot.freed (x : Slot) : Slot := { x with flit := none, mark := none, resv := x.mark.or x.resv }

/-- The slot is worth keeping in the list. -/
def Slot.used (x : Slot) : Bool := x.flit.isSome || x.resv.isSome

/-- Packets that have come since the last cycle join the queues of their stops; those that have left the network leave their places and
give back the buffers they held. -/
def reconcile (s : Device) : Device :=
  let (kept, fresh, gone) := matchLegs (s.trl.net.map .req ++ s.trl.rsps.map .rsp) s.trl.legs
  let live := kept.map (·.id)
  let s := { s with trl := { s.trl with
    legs := s.trl.legs.filter fun g => live.contains g.id
    slots := (s.trl.slots.map fun (x : Slot) => if x.flit.all fun f => live.contains f.leg then x else x.freed).filter Slot.used } }
  let s := gone.foldl (fun s g => freeFlits g.src (parcelCls g.body) (g.body.flits - g.sent) s) s
  fresh.foldl (fun s x => let b := boundFrom s x; addLeg (newLeg s (ringCycles s.time.ticks) x b.1 b.2 none) s) s

/-! ## Stops -/

def stopKey (site stop : Nat) : Nat := site * 128 + stop
def stopAt (s : Device) (site stop : Nat) : StopSt := s.trl.stops.get .reset (stopKey site stop)
def setStop (site stop : Nat) (x : StopSt) (s : Device) : Device :=
  { s with trl := { s.trl with stops := s.trl.stops.set .reset (stopKey site stop) x } }

/-- The packet is a request of an initiator of this stop, and stands in that initiator's queue. -/
def Leg.own (g : Leg) : Bool :=
  match g.body with
  | .req p => g.src.isNone && siteNo (initSite p.init) = g.site && initStop p.init = g.stop
  | .rsp _ => false

def Leg.init (g : Leg) : InitId := g.body.pkt.init
def Leg.waits (g : Leg) (site stop : Nat) : Bool := g.stage = .queue && g.site = site && g.stop = stop

/-- Packets that wait at a stop and may be chosen: the head of each initiator's queue, and every other packet. -/
def choices (s : Device) (site stop : Nat) : List Leg :=
  let q := s.trl.legs.filter fun g => g.waits site stop
  q.filter fun g => !g.own || (q.find? fun h => h.own && h.init = g.init).map (·.id) = some g.id

/-- PROMOTE × 16 cycles at the head of its initiator's queue (R250). -/
def promoteDue (s : Device) (cycle : Nat) (g : Leg) : Bool :=
  let p := (ringsOf s (siteAt g.site)).promote.toNat
  g.own && decide (g.body.pkt.pri.toNat ≤ 1) && p ≠ 0 && (match g.head with | some h => decide (h + 16 * p ≤ cycle) | none => false)

/-- The class in which a packet competes (R249, R250). -/
def effClass (s : Device) (g : Leg) : Nat :=
  if g.own && (win s g.init).promoted && decide (g.body.pkt.pri.toNat ≤ 1) then 2 else g.body.pkt.pri.toNat

def maxClass (s : Device) (gs : List Leg) : Nat := gs.foldl (fun m g => Nat.max m (effClass s g)) 0

def weightOf (s : Device) (i : InitId) : Nat := Nat.max 1 (win s i).weight.toNat
def roundKey (cls : Nat) (i : InitId) : Nat := cls * 256 + initLocal i

/-- The initiator's packet that the round of its class takes next: the lowest local index with packets left in the round, or, in a new
round, the lowest. -/
def roundPick (s : Device) (x : StopSt) (cls : Nat) (gs : List Leg) : Option (Leg × Bool) :=
  let least (ys : List Leg) : Option Leg :=
    ys.foldl (fun m g => match m with | none => some g | some h => if initLocal g.init < initLocal h.init then some g else some h) none
  match least (gs.filter fun g => x.round.get 0 (roundKey cls g.init) < weightOf s g.init) with
  | some g => some (g, false)
  | none => (least gs).map fun g => (g, true)

/-- The next packet that a stop puts on a ring (R249, R251), and whether it begins a new round. -/
def pickLeg (s : Device) (site stop ring : Nat) : Option (Leg × Bool) :=
  let x := stopAt s site stop
  let all := choices s site stop
  let mine := all.filter fun g => g.ring = ring
  let lower := all.any fun g => decide (effClass s g < 3)
  let mine := if lower && x.recent.any id then mine.filter fun g => decide (effClass s g < 3) else mine
  let m := maxClass s mine
  let top := mine.filter fun g => effClass s g = m
  match top.find? fun g => g.body.isRsp with
  | some g => some (g, false)
  | none =>
    match top.find? fun g => !g.own with
    | some g => some (g, false)
    | none => roundPick s x m top

/-- A stop has chosen a packet: its round and its latest insertions. -/
def noteChoice (site stop : Nat) (g : Leg) (fresh : Bool) (s : Device) : Device :=
  let x := stopAt s site stop
  let c := effClass s g
  let round := if fresh then x.round.mapCells 0 (fun k n => if k / 256 = c then 0 else n) else x.round
  let key := roundKey c g.init
  let s := setStop site stop { x with round := if g.own then round.set 0 key (round.get 0 key + 1) else round
                                      recent := (decide (c = 3) :: x.recent).take 3 } s
  if g.own then setWin g.init { win s g.init with promoted := false } s else s

/-- The packet of which a stop is putting flits on a ring. -/
def sending (s : Device) (site stop ring : Nat) : Option Leg :=
  s.trl.legs.find? fun g => g.stage = .ring && g.site = site && g.stop = stop && g.ring = ring && decide (g.sent < g.body.flits)

def slotHere (s : Device) (site ring pos : Nat) : Option Slot := s.trl.slots.find? fun x => x.site = site && x.ring = ring && x.pos = pos
def putSlot (x : Slot) (s : Device) : Device :=
  let rest := s.trl.slots.filter fun y => !(y.site = x.site && y.ring = x.ring && y.pos = x.pos)
  { s with trl := { s.trl with slots := if x.used then rest ++ [x] else rest } }

def dropMark (site stop ring : Nat) (s : Device) : Device :=
  setRings (siteAt site) (fun r => { r with marks := r.marks.filter (· ≠ (stop, ring)) }) s

/-- A mark of the stop stands on a slot of the ring. -/
def markPlaced (s : Device) (site stop ring : Nat) : Bool :=
  s.trl.slots.any fun x => x.site = site && x.ring = ring && (x.mark = some stop || x.resv = some stop)

/-- One flit of a packet goes onto a ring; the flit buffer that it held at a bridge is free again (R344). -/
def insertFlit (site stop ring : Nat) (g : Leg) (s : Device) : Device :=
  let x : Slot := { site, ring, pos := stop, flit := some { leg := g.id, idx := g.sent }, mark := none, resv := none }
  let s := freeFlits g.src (parcelCls g.body) 1 (setLeg { g with stage := .ring, sent := g.sent + 1 } (putSlot x s))
  if markPlaced s site stop ring then s else dropMark site stop ring s

def starveWait (s : Device) (site : Nat) : Nat := Nat.max 16 (ringsOf s (siteAt site)).starve.toNat

/-- The stop has had a flit ready for the ring for STARVE cycles without a slot (R252). -/
def starved (s : Device) (site stop ring cycle : Nat) : Bool :=
  match (stopAt s site stop).ready.get 0 ring with
  | 0 => false
  | r + 1 => decide (r + starveWait s site ≤ cycle)

/-- A stop's turn at a ring in one cycle: it inserts a flit into a slot that is empty and not reserved for another stop, or waits, and in
time marks the next full slot (R249, R252). A reserved slot that comes back unneeded is released. -/
def ringTurn (cycle : Nat) (s : Device) (at' : Nat × Nat × Nat) : Device :=
  let site := at'.1
  let stop := at'.2.1
  let ring := at'.2.2
  let slot := slotHere s site ring stop
  let mine : Bool := slot.any fun x => x.flit.isNone && x.resv = some stop
  let free : Bool := slot.isNone || mine
  let s := if mine then dropMark site stop ring s else s
  let waitFrom (r : Nat) (s : Device) : Device :=
    let x := stopAt s site stop
    setStop site stop { x with ready := x.ready.set 0 ring r } s
  let next : Option (Leg × Device) := match sending s site stop ring with
    | some g => some (g, s)
    | none => (pickLeg s site stop ring).map fun p => (p.1, if free then noteChoice site stop p.1 p.2 s else s)
  match next with
  | none => waitFrom 0 (if mine then putSlot { (slot.getD ⟨site, ring, stop, none, none, none⟩) with resv := none } s else s)
  | some (g, s) =>
    if free then waitFrom 0 (insertFlit site stop ring g s)
    else
      let s := if (stopAt s site stop).ready.get 0 ring = 0 then waitFrom (cycle + 1) s else s
      let held := (ringsOf s (siteAt site)).marks.contains (stop, ring)
      let s := if starved s site stop ring cycle && !held then
          setRings (siteAt site) (fun r => { r with marks := r.marks ++ [(stop, ring)] }) s else s
      match slot with
      | some x =>
        if (ringsOf s (siteAt site)).marks.contains (stop, ring) && !markPlaced s site stop ring && x.flit.isSome && x.mark.isNone then
          putSlot { x with mark := some stop } s
        else s
      | none => s

/-! ## Ejection (R234) -/

/-- Requests that a stop has accepted in part, and the one that it holds its next buffer for. -/
def claims (s : Device) (g : Leg) : List Pkt :=
  (s.trl.legs.filter fun h => h.id ≠ g.id && h.site = g.site && h.dst = g.dst && !h.body.isRsp && h.stage = .ring &&
    (decide (0 < h.got) || (ringsOf s (siteAt g.site)).refused.contains (h.dst, h.ring, h.init))).map (·.body.pkt)

/-- Room at the LPDDR6 channels for a request beside others (R278). -/
def memRoom (s : Device) (ps : List Pkt) : Bool :=
  let spans := ps.map fun p => match memWindow s p.addr.toNat with | some w => (p, spansOf w p) | none => (p, [])
  (List.range 24).all fun ch =>
    let c := chAt s ch
    let mine (f : Pkt → Span → Bool) : Nat := (spans.flatMap fun x => x.2.filter fun y => y.chan = ch && f x.1 y).length
    decide (c.rd.length + mine (fun p y => !carriesData p.opc || !y.whole) ≤ 64)
      && decide (c.wr.length + mine (fun p _ => !readsOnly p) ≤ 64)

/-- The stop has room for the whole request: an LPDDR6 stop in its channels' queues, a bridge in the flit credits of its link; the other
stops have no limit. DEDUCED (log 134). -/
def hasRoom (s : Device) (g : Leg) : Bool :=
  let ps := claims s g
  if !g.final then
    match bridgeLink g.site g.dst with
    | some (l, d) =>
      let waiting := ((s.trl.legs.filter fun h => h.stage = .bridge l d && !h.body.isRsp).map (·.body.flits)).sum
      decide (g.body.flits + waiting + (ps.map fun p => (Parcel.req p).flits).sum ≤ flitCredits (linkAt s l) d 0)
    | none => true
  else if g.site = 8 ∧ g.body.pkt.addr.toNat < 0x00C000000000 ∧ s.mem.trained then memRoom s (g.body.pkt :: ps)
  else true

/-- The whole packet has been ejected: at a bridge it is routed on, at its destination it is performed or delivered. -/
def arriveLeg (g : Leg) (s : Device) : Device :=
  if !g.final then bridgeTakes g.site g.dst g s
  else
    let s := dropLeg g.id (leaveNet g.body s)
    match g.body with
    | .req p => settle (atTarget p s)
    | .rsp r => responseHere r s

/-- A flit stands at its packet's destination stop: it is ejected, or its packet stays on the ring (R234). -/
def ejectFlit (s : Device) (x : Slot) : Device :=
  match x.flit with
  | none => s
  | some f =>
    match s.trl.legs.find? fun g => g.id = f.leg with
    | none => putSlot x.freed s
    | some g =>
      if g.dst ≠ x.pos then s
      else
        let site := siteAt g.site
        let me := (g.dst, g.ring, g.init)
        let first := f.idx = 0
        let take : Bool := if first then g.body.isRsp || hasRoom s g else decide (0 < g.got)
        if take then
          let s := if first then setRings site (fun r => { r with refused := r.refused.filter (· ≠ me) }) s else s
          let g := { g with got := g.got + 1 }
          let s := setLeg g (putSlot x.freed s)
          if g.got = g.body.flits then arriveLeg g s else s
        else if first then
          setRings site (fun r => { r with
            laps := BitVec.ofNat 32 (satAdd 32 r.laps.toNat 1)
            refused := if r.refused.any (·.1 = g.dst) then r.refused else r.refused ++ [me] }) s
        else s

/-! ## A cycle -/

/-- The head of each initiator's queue takes its time, and is promoted when its wait is over. -/
def headTimes (cycle : Nat) (s : Device) : Device :=
  let heads := s.trl.legs.filter fun g => g.stage = .queue && g.own &&
    (s.trl.legs.find? fun h => h.stage = .queue && h.own && h.init = g.init).map (·.id) = some g.id
  heads.foldl (fun s g =>
    let g := { g with head := g.head.or (some cycle) }
    let s := setLeg g s
    if promoteDue s cycle g then setWin g.init { win s g.init with promoted := true } s else s) s

/-- One cycle of every ring (R230, R233): the slots move, the stops insert, flits at their stop are ejected. DESIGN CHOICE (log 133). -/
def ringCycle (cycle : Nat) (s : Device) : Device :=
  let s := headTimes cycle s
  let s := { s with trl := { s.trl with slots := s.trl.slots.map fun (x : Slot) => { x with pos := nextPos x.site x.ring x.pos } } }
  let turns := (s.trl.legs.filterMap fun (g : Leg) => if g.stage = .queue || (g.stage = .ring && g.sent < g.body.flits) then some (g.site, g.stop, g.ring) else none)
    ++ s.trl.slots.filterMap fun (x : Slot) => if x.resv = some x.pos then some (x.site, x.pos, x.ring) else none
  let s := (turns.eraseDups).foldl (ringTurn cycle) s
  s.trl.slots.foldl ejectFlit s

/-- The ring cycles of one tick, 5 for each 2 ticks. -/
def ringsTick (s : Device) : Device :=
  let t := s.time.ticks
  let n := ringCycles t - ringCycles (t - 1)
  let s := { s with trl := { s.trl with rings := s.trl.rings.map (fun r => { r with refused := r.refused.filter fun x => s.trl.net.any fun p => p.init = x.2.2 })
                                        spine := { s.trl.spine with refused := s.trl.spine.refused.filter fun x => s.trl.net.any fun p => p.init = x.2.2 } } }
  (List.range n).foldl (fun s i => ringCycle (ringCycles (t - 1) + i) (reconcile s)) s

/-! ## Events of the family -/

/-- PROMOTE: the packet at the head of an initiator's queue has waited PROMOTE × 16 cycles and competes as class 2 (R250). -/
def promote (i : InitId) (s : Device) : Device :=
  match s.trl.legs.find? fun g => g.stage = .queue && g.own && g.init = i with
  | none => s
  | some g => if promoteDue s (ringCycles s.time.ticks) g then setWin i { win s i with promoted := true } s else s

/-- STARVE_MARK: the initiator's stop has waited STARVE cycles for a ring and marks its next full slot, one mark for each ring at a time
(R252). DEDUCED (log 53). -/
def starveMark (i : InitId) (ring : Fin 8) (s : Device) : Device :=
  let site := siteNo (initSite i)
  let stop := initStop i
  if initKind i = .none ∨ (ringsOf s (siteAt site)).marks.contains (stop, ring.val) ∨ !starved s site stop ring.val (ringCycles s.time.ticks) then s
  else setRings (siteAt site) (fun r => { r with marks := r.marks ++ [(stop, ring.val)] }) s

def ringSource : Site → Source
  | .die d => .die d
  | .hub => .hub 9

/-- A word of the flit at a position of a ring is upset: one bit is corrected and counted, two bits cost the packet (R235). -/
def ringUpset (site ring pos : Nat) (double : Bool) (s : Device) : Device :=
  match (slotHere s site ring pos).bind (·.flit) with
  | none => s
  | some f =>
    let at' := siteAt site
    if !double then
      raise (ringSource at') 1 0x09 (place pos 1) (setRings at' (fun r => { r with corr := BitVec.ofNat 16 (satAdd 16 r.corr.toNat 1) }) s)
    else
      let s := setRings at' (fun r => { r with unc := BitVec.ofNat 16 (satAdd 16 r.unc.toNat 1) }) s
      let s := raise (ringSource at') 2 0x09 (1 + place pos 1) s
      match s.trl.legs.find? fun g => g.id = f.leg with
      | some g => reconcile (leaveNet g.body s)
      | none => s

end Sys2Proof.Machine
end

