-- ==== Sys2Proof/Machine/Transport.lean ====
section
/-! DEFINITION. The byte transports: the slave ports (R454, R455), the packet timer (R434) and the fabric port (R424). -/
namespace Sys2Proof.Machine
open Sys2Proof

/-! ## Packets as bytes (R420) -/

/-- A word count's bytes, rounded up to whole words. -/
def padded (n : Nat) : Nat := (n + 3) / 4 * 4

/-- The packet in these bytes: the payload keeps PLEN bytes where the padding agrees, else what was delivered. -/
def packetOf (b : List Byte) : Packet :=
  let plen := leAt b 10 2
  let rest := b.drop 32
  { flags := BitVec.ofNat 16 (leAt b 2 2), seq := BitVec.ofNat 32 (leAt b 4 4), plot := BitVec.ofNat 8 (leAt b 8 1),
    rsvd := BitVec.ofNat 8 (leAt b 9 1), plen := BitVec.ofNat 16 plen, session := BitVec.ofNat 32 (leAt b 12 4), mac := sliceBytes b 16 16,
    payload := if rest.length = plen ∨ rest.length = padded plen then rest.take plen else rest }

def runBytes (x : NetIn) (inst : Inst) (b : List Byte) (s : Device) : Device := runOpcode x (leAt b 0 2) inst (packetOf b) s

def arrivingOn (inst : Inst) (s : Device) : Option Arriving := s.mgmt.partials.find? (·.inst = inst)

def dropArriving (inst : Inst) (s : Device) : Device :=
  { s with mgmt := { s.mgmt with partials := s.mgmt.partials.filter (·.inst ≠ inst) } }

/-- CMD_CFG.TMO in ns; 0 counts as 1 ms. -/
def packetTmo (s : Device) : Nat := (if s.mgmt.tmo = 0 then 1 else s.mgmt.tmo.toNat) * 1000000

/-- The last byte of a packet has come: at the instant of expiry it still counts, and NEAR with it (R258, R434). -/
def packetDone (inst : Inst) (x : NetIn) (a : Arriving) (s : Device) : Device :=
  let s := dropArriving inst s
  let s := if devNs s = a.start + packetTmo s then { s with mgmt := { s.mgmt with near := BitVec.ofNat 8 (satAdd 8 s.mgmt.near.toNat 1) } } else s
  runBytes x inst a.bytes s

/-- CMD_PACKET_TIMEOUT: the bytes are discarded and the reply is TIMEOUT; the header is echoed as received. -/
def packetTimeout (inst : Inst) (s : Device) : Device :=
  match arrivingOn inst s with
  | none => s
  | some a =>
    if devNs s < a.start + packetTmo s then s
    else
      let s := dropArriving inst s
      let p := packetOf (sliceBytes a.bytes 0 32)
      holdReply inst (mkReply false { inst, op := leAt a.bytes 0 2, pkt := p } stTimeout 0 [] s) s

/-! ## The slave ports -/

/-- A CMD transaction on a slave port: COUNT of the control word, and the words that moved. DEDUCED (log 89). -/
def cmdRow (inst : Inst) (cnt : Nat) (words : List Word32) (x : NetIn) (s : Device) : Device :=
  if !portEnabled s inst ∨ instBusy inst s ∨ words.isEmpty then s
  else
    let a : Arriving := { inst, bytes := words.flatMap fun w => leBytes 4 w.toNat, start := devNs s }
    if cnt ≤ words.length ∧ 8 ≤ words.length then packetDone inst x a s
    else
      let s := dropReply inst (dropArriving inst s)
      { s with mgmt := { s.mgmt with partials := s.mgmt.partials ++ [a] } }

def zeroPad (n : Nat) (b : List Byte) : List Byte := b ++ List.replicate (n - b.length) 0

/-- A REPLY transaction: the host reads the held reply, or zeros. -/
def replyRow (inst : Inst) (cnt : Nat) (s : Device) : Device :=
  if !portEnabled s inst ∨ !s.mgmt.up then s
  else match s.mgmt.replies.find? (·.1 = inst) with
    | some (_, r) =>
      let b := zeroPad (padded r.bytes.length) r.bytes
      let s := if b.length ≤ 4 * cnt then dropReply inst s else s
      { s with mgmt := { s.mgmt with sent := (zeroPad (4 * cnt) b).take (4 * cnt) } }
    | none => { s with mgmt := { s.mgmt with sent := List.replicate (4 * cnt) 0 } }

def pstatWord (inst : Inst) (s : Device) : Nat :=
  bit (s.mgmt.replies.any (·.1 = inst)) 0 + bit (inProgress inst s).isSome 1
    + bit ((entries s).any fun e => e.2.path = 2 && e.2.inst = inst) 2

def pstatRow (inst : Inst) (s : Device) : Device :=
  if !portEnabled s inst ∨ !s.mgmt.up then s else { s with mgmt := { s.mgmt with sent := leBytes 4 (pstatWord inst s) } }

/-- A STREAM transaction: complete words only. -/
def streamRow (inst : Inst) (words : List Word32) (s : Device) : Device := streamData inst words s

/-! ## The fabric port (R424) -/

def fabricReply (p : PlotId) (s : Device) : Device :=
  let inst : Inst := .fabric p
  match s.mgmt.replies.find? (·.1 = inst) with
  | none => s
  | some (_, r) =>
    let x := plotSt s p.val
    let s := dropReply inst s
    let (s, _) := busWrite loaderInit p.val (x.portAddr + 0x3000) r.bytes s
    (busWrite loaderInit p.val (x.portAddr + 4) (leBytes 4 x.portPost) s).1

/-- A fetch of the port receives an error response: the command is dropped with a C0 note. -/
def fabricDrop (p : PlotId) (post : Nat) (s : Device) : Device :=
  raise (.hub 1) 0 0xFF 6 (setPlot p.val (fun x => { x with portPost := post }) s)

/-- FABRIC_PORT_POLL of a plot: a finished reply is written back, then POST and DONE are read and a new packet is taken. -/
def fabricPoll (p : PlotId) (x : NetIn) (s : Device) : Device :=
  let inst : Inst := .fabric p
  let a := (plotSt s p.val).portAddr
  if !s.mgmt.up ∨ a = 0 ∨ instBusy inst s then s
  else
    let s := fabricReply p s
    let (s, rc, head, x) := busRead loaderInit p.val x a 64 s
    if isErr rc then raise (.hub 1) 0 0xFF 6 s
    else if leAt head 0 4 = leAt head 4 4 then s
    else
      let post := leAt head 0 4
      let (s, rc, hdr, x) := busRead loaderInit p.val x (a + 0x1000) 32 s
      if isErr rc then fabricDrop p post s
      else
        let n := Nat.min (leAt hdr 10 2) 4096
        let (s, rc, pl, x) := if n = 0 then (s, rcOkay, [], x) else busRead loaderInit p.val x (a + 0x1020) n s
        if isErr rc then fabricDrop p post s
        else
          let s := setPlot p.val (fun x => { x with portPost := post }) s
          let s := runBytes x inst (hdr ++ pl) s
          if (inProgress inst s).isNone then fabricReply p s else s

end Sys2Proof.Machine
end

