-- ==== Sys2Proof/Machine/Debug.lean ====
section
/-! DEFINITION. The debug island (chapter "Debug"): the TAP, the command transport on it, authentication, debug requests, the
readout of the retention SRAM, and the debug controls. One command of a TAP data register is one scan: a Capture-DR, which
loads `dr`, then an Update-DR. -/
namespace Sys2Proof.Machine
open Sys2Proof

def modDbg (f : Dbg → Dbg) (s : Device) : Device := { s with dbg := f s.dbg }
def dbgSrc : Source := .hub 7

/-- A C0 note of the island; none is taken while VCCAUX is down (R575, R583, R587). -/
def islandNote (cause detail : Nat) (s : Device) : Device := if s.dbg.vccaux then raise dbgSrc 0 cause detail s else s

/-- One of the island's three sources is present (R575). -/
def islandOn (s : Device) : Bool := s.dbg.vccaux || s.dbg.vstby || s.dbg.vprobe

/-! ## The TAP (R576, R579) -/

def idcode : Nat := 0x208A11C3

def tapIdcode (s : Device) : Device := modDbg (fun d => { d with ir := 0x01, dr := idcode }) s

/-- BYPASS: its register captures 0. -/
def tapBypass (s : Device) : Device := modDbg (fun d => { d with ir := 0xFF, dr := 0 }) s

/-- SAMPLE/PRELOAD: the pins sampled are a free value, since the cells of the boundary register are not described. -/
def tapSample (v : Nat) (s : Device) : Device :=
  let (x, s) := freeNat s
  modDbg (fun d => { d with ir := 0x02, boundary := v, dr := x }) s

/-- EXTEST drives the boundary register in START and READY, and otherwise acts as BYPASS. -/
def tapExtest (v : Nat) (s : Device) : Device :=
  if (s.mgmt.dev = .start ∨ s.mgmt.dev = .ready) ∧ s.flt.fsafe ≠ .c4 then
    let (x, s) := freeNat s
    modDbg (fun d => { d with ir := 0x03, boundary := v, dr := x }) s
  else tapBypass s

/-- The TAP is reset and the debug session ends. PRESUMED (log 49). -/
def tapReset (s : Device) : Device :=
  modDbg (fun d => { d with ir := 0x01, stage := .idle, words := [], offers := [], ioStage := .idle, ioOut := [], dr := 0 })
    (endDebug false s)

/-! ## CMD_IO (R580, R434) -/

def wordsOf (n : Nat) (b : List Byte) : List Word32 := (List.range n).map fun i => BitVec.ofNat 32 (leAt b (4 * i) 4)

/-- The control word of a transaction; a command on a busy instance, a STREAM and unknown operations move no data. -/
def ioControl (w : Nat) (s : Device) : Device :=
  let n := w / 256
  let skip (k : Nat) (out : List Word32) (s : Device) : Device :=
    modDbg (fun d => { d with ioStage := if k = 0 then .idle else .skip k, ioOut := out }) s
  match w % 16 with
  | 1 =>
    if instBusy .jtag s ∨ n = 0 then skip n [] s
    else modDbg (fun d => { d with ioStage := .command n, ioOut := [] }) (dropReply .jtag (dropArriving .jtag s))
  | 2 =>
    match s.mgmt.replies.find? (·.1 = .jtag) with
    | some (_, r) =>
      let b := zeroPad (padded r.bytes.length) r.bytes
      skip n (wordsOf n b) (if b.length ≤ 4 * n then dropReply .jtag s else s)
    | none => skip n [] s
  | 4 => skip 1 [BitVec.ofNat 32 (pstatWord .jtag s)] s
  | _ => skip n [] s

/-- A word of a command; the first starts the packet timer. -/
def ioCommand (left : Nat) (w : Word32) (x : NetIn) (s : Device) : Device :=
  let a : Arriving := match arrivingOn .jtag s with
    | some a => { a with bytes := a.bytes ++ leBytes 4 w.toNat }
    | none => { inst := .jtag, bytes := leBytes 4 w.toNat, start := devNs s }
  let s := modDbg (fun d => { d with ioStage := if left ≤ 1 then .idle else .command (left - 1) }) s
  if left ≤ 1 ∧ 32 ≤ a.bytes.length then packetDone .jtag x a s
  else
    let s := dropArriving .jtag s
    { s with mgmt := { s.mgmt with partials := s.mgmt.partials ++ [a] } }

/-- One scan of CMD_IO. -/
def cmdIo (w : Word32) (x : NetIn) (s : Device) : Device :=
  let s := if s.dbg.ir = 0x10 then s else modDbg (fun d => { d with ir := 0x10, ioStage := .idle, ioOut := [] }) s
  let live := s.dbg.vccaux && s.mgmt.up
  let s := modDbg (fun d => { d with dr := if live then ((d.ioOut.head?).map (·.toNat)).getD 0 else 0, ioOut := d.ioOut.drop 1 }) s
  if !live then s
  else match s.dbg.ioStage with
    | .idle => ioControl w.toNat s
    | .command n => ioCommand n w x s
    | .skip n => modDbg (fun d => { d with ioStage := if n ≤ 1 then .idle else .skip (n - 1) }) s

/-- CMD_PACKET_TIMEOUT: on JTAG the rest of the transaction is ignored. -/
def packetTimeoutRow (inst : Inst) (s : Device) : Device :=
  let t := packetTimeout inst s
  if inst = .jtag ∧ (arrivingOn inst s).isSome ∧ (arrivingOn inst t).isNone then
    modDbg (fun d => { d with ioStage := match d.ioStage with | .command n => .skip n | y => y }) t
  else t

/-! ## Authentication (R581 to R584) -/

def certBytes (d : Dbg) : List Byte := d.words.flatMap fun w => leBytes 4 w.toNat
def certBody (d : Dbg) : List Byte := (certBytes d).take 2848
def certPlot (b : List Byte) : Nat := leAt b 6 1

/-- Magic, format and reserved bytes (R581). -/
def certForm (b : List Byte) : Bool :=
  b.take 4 = [0x4B, 0x56, 0x44, 0x43] && leAt b 4 2 = 1 && decide (leAt b 6 1 < 16) && decide (leAt b 7 1 < 32) && zeroAt b 2834 14

def anchorOk (b : List Byte) (a : Option (List Byte)) : Bool := a = some (Config.sha384 (sliceBytes b 48 2689))

def certSigned (d : Dbg) : Bool :=
  let b := certBody d
  let g := Config.sha384 b
  Config.ecdsaOk (sliceBytes b 48 97) g (sliceBytes (certBytes d) 2848 96)
    && Config.mldsaOk (sliceBytes b 145 2592) g (sliceBytes (certBytes d) 2944 4627)

/-- The status of a certificate (R451, R582, R583); 0 where it verifies. -/
def certVerdict (s : Device) : Device × Nat :=
  let b := certBody s.dbg
  if !certForm b then (s, stBadParam)
  else if !plotExists s (certPlot b) then (s, stNotAuth)
  else if namesDevice b 8 = false then (s, stWrongDevice)
  else
    let (s, v) := retValid s
    let (s, a) := if bitAt v 5 then retRead (0x100 + 48 * certPlot b) 48 s else (s, none)
    if !anchorOk b a || !certSigned s.dbg then (s, stAuthFail)
    else if !zeroAt (certBytes s.dbg) (2848 + 4723) 13 then (s, stBadParam)
    else (s, stOk)

def lockNs : Nat := 10 ^ 9

/-- A failure: noted and counted; from the fourth in a row DBG_AUTH is locked for 1 s (R583). -/
def authFailed (st : Nat) (s : Device) : Device :=
  let s := islandNote 0x1A 5 s
  let n := satAdd 4 s.dbg.fails 1
  modDbg (fun d => { d with stage := .idle, words := [], fails := n, offers := [BitVec.ofNat 32 st],
                            lockout := if 4 ≤ n then some (devNs s + lockNs) else d.lockout }) s

/-- The rights that a session holds (R584, R585). -/
def grantedRights (s : Device) (p : Nat) (asked : BitVec 5) : BitVec 5 :=
  let early := s.trust.lifecycle = .blank ∨ s.trust.lifecycle = .provisioned ∨ s.trust.lifecycle = .rma
  let sealed' : Bool := if p = 0 then s.trust.lifecycle = .deployed else (plotSt s p).sealed
  let hf : BitVec 5 := if !sealed' ∨ early then 5 else 0
  let m : BitVec 5 := hf ||| 2 ||| (if p = 0 then 8 else 0) ||| (if p = 0 ∧ early then 16 else 0)
  asked &&& m &&& (if s.flt.fsafe = .c4 then 8 else 31)

/-- What the debugger signs. -/
def debugDigest (d : Dbg) : List Byte :=
  Config.sha384 (asciiBytes "kv debug" ++ d.challenge ++ deviceIdBytes ++ Config.sha384 (certBody d))

/-- The session opens (R584, R597). -/
def openDebug (s : Device) : Device :=
  let b := certBody s.dbg
  let p := certPlot b
  let (x, s) := freshDigest s
  let s := debugRec false p 0x0301 x (first8 (Config.sha384 b)) s
  let rights := grantedRights s p (BitVec.ofNat 5 (leAt b 7 1))
  modDbg (fun d => { d with session := some { plot := Fin.ofNat 16 p, rights }, stage := .idle, words := [], fails := 0,
                            offers := [BitVec.ofNat 32 stOk] }) s

/-- The 24 words of the response have come after the 1,896 of the certificate. -/
def authResponse (s : Device) : Device :=
  let b := certBody s.dbg
  let g := (s.dbg.words.drop 1896).flatMap fun w => leBytes 4 w.toNat
  if Config.ecdsaOk (sliceBytes b 2737 97) (debugDigest s.dbg) g then
    if plotExists s (certPlot b) then openDebug s else authFailed stNotAuth s
  else authFailed stAuthFail s

def authLocked (s : Device) : Bool := s.dbg.lockout.any fun t => decide (devNs s < t)

/-- A word of the exchange; it is taken while nothing is offered. -/
def authWord (w : Word32) (s : Device) : Device :=
  match s.dbg.stage with
  | .idle =>
    if w.toNat = 7584 then modDbg (fun d => { d with stage := .certificate, words := [] }) (endDebug false s)
    else authFailed stBadParam s
  | .certificate =>
    let ws := s.dbg.words ++ [w]
    modDbg (fun d => { d with words := ws, stage := if ws.length = 1896 then .verifying else .certificate }) s
  | .verifying => s
  | .challenge => s
  | .response =>
    let ws := s.dbg.words ++ [w]
    let s := modDbg (fun d => { d with words := ws }) s
    if ws.length = 1920 then authResponse s else s

/-- One scan of DBG_AUTH. -/
def dbgAuth (w : Word32) (s : Device) : Device :=
  if s.trust.lifecycle = .decommissioned then tapBypass s
  else match s.dbg.offers with
    | o :: rest =>
      modDbg (fun d => { d with ir := 0x20, dr := o.toNat, offers := rest,
                                stage := if rest.isEmpty ∧ d.stage = .challenge then .response else d.stage }) s
    | [] =>
      let s := modDbg (fun d => { d with ir := 0x20, dr := 0 }) s
      if authLocked s then modDbg (fun d => { d with offers := [BitVec.ofNat 32 stBadParam] }) s else authWord w s

/-- DEBUG_CERT_VERIFIED: a challenge of 48 bytes from the island's own entropy source is offered. -/
def certVerified (s : Device) : Device :=
  if s.dbg.stage ≠ .verifying then s
  else
    let (s, st) := certVerdict s
    if st ≠ stOk then authFailed st s
    else
      let (c, s) := freeBytes 48 s
      modDbg (fun d => { d with stage := .challenge, challenge := c, offers := wordsOf 12 c }) s

def lockoutEnd (s : Device) : Device := if authLocked s then s else modDbg (fun d => { d with lockout := none }) s

/-! ## DBG_ACCESS (R586 to R588, R596) -/

/-- R31 for a debug session of plot p, its own cores' DBG registers and FREEZE_CFG included. -/
def sessionCsr (s : Device) (p a : Nat) : Bool :=
  match blkOf (a - csrBase) with
  | none => true
  | some (b, blk) =>
    let off := a - csrBase - blk
    if b = .dbg then
      p = 0 || decide (off < 4) || (0x10 ≤ off && off < 0x50 && (off - 0x10) / 4 = p)
        || (0x1000 ≤ off && off < 0x3000 && coreOwner s ((off - 0x1000) / 0x40) = p)
    else if p = 0 then true
    else csrOpen s islandInit p b off

def dbgBlock (a : Nat) : Bool := decide (csrBase + 0x70000 ≤ a ∧ a < csrBase + 0x80000)

/-- The monitor mailbox of a core of the plot (R594). -/
def inMailbox (s : Device) (p a n : Nat) : Bool :=
  match spotOf a with
  | .core c 2 off => coreOwner s c = p && decide (0x1FF00 ≤ off) && decide (off + n ≤ 0x20000)
  | _ => false

/-- A DBG register of a core of the plot. -/
def inCoreDbg (s : Device) (p a : Nat) : Bool :=
  dbgBlock a && decide (csrBase + 0x71000 ≤ a ∧ a < csrBase + 0x73000) && coreOwner s ((a - csrBase - 0x71000) / 0x40) = p

/-- The island's check (R587). DEDUCED (log 118). -/
def islandOk (s : Device) (write : Bool) (a n : Nat) : Bool :=
  match s.dbg.session with
  | none => false
  | some x =>
    let p := x.plot.val
    if !s.dbg.vccaux then false
    else if s.flt.fsafe ≠ .none && !dbgBlock a then false
    else if !x.rights.getLsbD 0 then inMailbox s p a n || inCoreDbg s p a
    else match spotOf a with
      | .lpddr => (match verdict s islandInit p (!write) a with | .plain => true | .go _ => true | _ => false)
      | .host => hostOpen s p
      | .bed b => bedOwner s b = p
      | .core c _ _ => coreOwner s c = p
      | .csr => sessionCsr s p a
      | .nothing => true

/-- A request that the island does not issue. -/
def islandRefuse (a : Nat) (s : Device) : Device :=
  islandNote 0x0B a (modDbg (fun d => { d with rcode := 0xFD, data := 0, request := none }) s)

/-- A checked request of the island is issued as initiator 0x803. -/
def islandIssue (write : Bool) (a n : Nat) (data : Word64) (s : Device) : Device :=
  if !islandOk s write a n then islandRefuse a s
  else
    let r : TrlReq := { init := islandInit, tag := none, enters := false, odd := none, addr := BitVec.ofNat 48 a, len := 0, bcnt := BitVec.ofNat 8 (n - 1),
                        data := if write then leBytes n data.toNat else [], opA := 0, opB := 0 }
    match issue (initFrozen s islandInit) (if write then .write else .read) .xload r s with
    | none => modDbg (fun d => { d with rcode := 0xFE }) s
    | some (s, p) => throughNet p (modDbg (fun d => { d with rcode := 0xFE, request := some (p.tag.toNat, decide (n = 8)) }) s)

/-- One scan of DBG_ACCESS: bits [115:52] and [123:116] are captured, then OP, SIZE, ADDR and DATA act. DEDUCED (log 119). -/
def dbgAccess (op : BitVec 2) (eight : Bool) (a : BitVec 48) (data : Word64) (s : Device) : Device :=
  if s.dbg.session.isNone then tapBypass s
  else
    let s := modDbg (fun d => { d with ir := 0x21, dr := place d.data.toNat 52 + place d.rcode.toNat 116 }) s
    if (op ≠ 1 ∧ op ≠ 2) ∨ s.dbg.request.isSome then s
    else settle (islandIssue (op = 2) a.toNat (if eight then 8 else 4) data s)

/-! ## RET_READ (R589) -/

/-- The word at an index of the retention SRAM and its class. -/
def retWordAt (s : Device) (i : Nat) : Nat :=
  let l := (arrayAt s 6 0).readBytes (i * 8) 8
  ofLe (dataOf l) + place (if anyBad l then 2 else if anyCorrected l then 1 else 0) 64

/-- One scan of RET_READ: a word is captured and the index advances; an Update-DR sets the index of the next read. -/
def retRow (next : Option (BitVec 13)) (s : Device) : Device :=
  if !hasRight s 3 then tapBypass s
  else modDbg (fun d => { d with ir := 0x22, dr := retWordAt s d.retIdx.toNat, retIdx := next.getD (d.retIdx + 1) }) s

/-! ## Debug controls (R590 to R595) -/

/-- A write of the session to a register of the DBG block, past the island's check. -/
def islandReg (off v : Nat) (s : Device) : Device :=
  let a := csrBase + 0x70000 + off
  if islandOk s true a 4 then settle (dbgWrite off v (2 ^ 32 - 1) s) else islandRefuse a s

/-- CORE_DBG_CTL of core c with bit k at `on`. -/
def coreCtlBit (c k : Nat) (on : Bool) (s : Device) : Device :=
  let v := coreDbgCtl (coreAt s c).dbg
  islandReg (0x1000 + c * 0x40) (v - bit (bitAt v k) k + bit on k) s

/-- MGMT_CTL with bit k at `on`. -/
def mgmtCtlBit (k : Nat) (on : Bool) (s : Device) : Device :=
  let v := s.dbg.mgmtCtl.toNat
  islandReg 0x100 (v - bit (bitAt v k) k + bit on k) s

def haltTakenRow (c : Nat) (s : Device) : Device := freezeBeds (haltTaken c s)

end Sys2Proof.Machine
end

