-- ==== Sys2Proof/Machine/SafeState.lean ====
section
/-! DEFINITION. Fault collection and the safe state (R529 to R549), and the actions of the policy engine (R503 to R505). -/
namespace Sys2Proof.Machine
open Sys2Proof

/-! ## The safe state (R541 to R544) -/

def levelNo : SafeLevel → Nat
  | .none => 0 | .c3 => 1 | .c4 => 2

/-- A die applies the safe state: beds, cores and subports stop (R541). -/
def applyDie (d : Nat) (s : Device) : Device :=
  let s := (List.range 48).foldl (fun s i => if outOfService s (d * 48 + i) then s else makeFallow false (d * 48 + i) s) s
  let s := stopCores 3 ((List.range 16).map fun i => d * 16 + i) s
  stopEngines ((List.range 8).map fun i => d * 8 + i) s

/-- The class that a die has applied rises; the beds and cores stop at the first. -/
def dieEnters (d : Nat) (l : SafeLevel) (s : Device) : Device :=
  let old := s.flt.dieSafe.getD d .none
  if levelNo l ≤ levelNo old then s
  else
    let s := { s with flt := { s.flt with dieSafe := modAt s.flt.dieSafe d fun _ => l } }
    if old = .none then applyDie d s else s

/-- FSAFE reaches a die's node collector (R543). -/
def fsafeRow (d : DieId) (s : Device) : Device := settle (dieEnters d.val s.flt.fsafe s)

/-- A golden load ends with the safe state. -/
def dropGolden (s : Device) : Device :=
  match s.cfg.load with
  | none => s
  | some g =>
    let s := match g.entry with | some k => endSes k s | none => s
    dropObjs g.holds { s with cfg := { s.cfg with load := none, loadDue := false } }

/-- Commands that FATAL does not accept end with BUSY (R544). -/
def failCommands (s : Device) : Device :=
  let s := (entries s).foldl (fun s e => if e.2.st = .applying then disturbCommit e.1 s else s) (dropGolden s)
  let s := s.mgmt.progress.foldl (fun s p =>
    if (specOf .calm p.opcode.toNat).any fun o => o.accepts .fatal then s
    else finish p stBusy [] (dropJob p.inst s)) s
  (s.beds.cells.map (·.1)).foldl (fun s n => if (bedAt s n).rbHold then releaseHold n (modBed n (fun (b : Bed) => { b with rbHold := false }) s) else s) s

/-- The hub's items of C3: FSAFE, viral, tillers, commands, BIST; DEV_STATE becomes FATAL. DEDUCED (log 115). -/
def enterC3 (s : Device) : Device :=
  if levelNo s.flt.fsafe ≠ 0 then s
  else
    let s := bistFatal s
    let s := { s with
      flt := { s.flt with fsafe := .c3, held := true, fatalAt := some (devNs s) }
      mgmt := { s.mgmt with dev := .fatal }
      cfg := { s.cfg with doneHeld := false }
      cxl := { s.cxl with viral := true }
      mem := { s.mem with tillers := s.mem.tillers.map (fun t => if t.op ≠ .idle then Tiller.reset else t)
                          renews := s.mem.renews.filter fun x => x.tiller.isNone } }
    failCommands s

/-- The additions of C4: keys zeroised, no transport answers, CXL down, the almanac tail in retention. -/
def enterC4 (s : Device) : Device :=
  if s.flt.fsafe = .c4 then s
  else
    let s := retAlmanac (zeroiseAll (enterC3 s))
    { s with
      flt := { s.flt with fsafe := .c4 }
      cxl := { s.cxl with linkUp := false }
      dbg := { s.dbg with session := s.dbg.session.map fun (x : DbgSession) => { x with rights := x.rights &&& 8 } }
      mgmt := { s.mgmt with
        up := false, progress := [], held := [], replies := [], partials := [], parked := []
        sessions := s.mgmt.sessions.map fun x => x.filter fun y => !y.opening } }

/-- A record orders the safe state. -/
def enterSafe (r : FltRec) (s : Device) : Device :=
  retLastFault r (if r.rep.cls = 4 then enterC4 s else enterC3 s)

/-! ## Collectors (R529 to R539) -/

/-- A record of this class orders the safe state: its level is not yet entered (R541, R544). -/
def orders (s : Device) (cls : Nat) : Bool := decide (levelNo s.flt.fsafe + 2 < cls)

/-- The central collector forms the record of a report (R532, R535, R536); after C4 no collector works. Only a record that orders the
safe state becomes the last-fault record: a later C3 only counts. -/
def formRecord (rep : Report) (merged : Nat) (s : Device) : Device :=
  if s.flt.fsafe = .c4 then s
  else
    let p := concerns s rep.src
    let r : FltRec := { rep, plotValid := p.isSome, plot := p.getD 0, merged, safe := orders s rep.cls.val, overflowed := false, almSeq := s.alm.next }
    let fresh := (s.flt.first.getD rep.cls.val none).isNone
    let s := if histOn s then { s with flt := pushHistory r s.flt } else s
    let s := if fresh then { s with flt := { s.flt with first := modAt s.flt.first rep.cls.val fun _ => some r } } else s
    let s := if fresh then signalFault (p.getD 0) s else s
    let s := if assertsPin s rep.cls.val then driveErrN s else s
    if r.safe then enterSafe r s else s

/-- The source word takes a report; a source whose STICKY rises signals (R534, R539). -/
def noteWord (rep : Report) (s : Device) : Device :=
  let slot := srcSlot rep.src
  let w := srcWord s slot
  let s := setWord slot (w.note rep.cls.val 1) s
  if !w.sticky ∧ s.flt.irqMin.toNat ≤ rep.cls.val then signalFault ((concerns s rep.src).getD 0) s else s

/-- A report joins those being sent: it merges into its die's newest, unless that one is of a lower class (R530, R531). -/
def joinReport (d : DieId) (rep : Report) : List Sending → List Sending
  | [] => [{ die := d, rep, merged := 0 }]
  | x :: xs =>
    if x.die = d ∧ xs.all (fun y => decide (y.die ≠ d)) ∧ rep.cls ≤ x.rep.cls then { x with merged := satAdd 8 x.merged 1 } :: xs
    else x :: joinReport d rep xs

/-- A node collector forwards a report on FREPORT, or merges it into the one being sent (R530, R531). -/
def forward (d : DieId) (rep : Report) (s : Device) : Device :=
  { s with flt := { s.flt with sending := joinReport d rep s.flt.sending } }

/-- The oldest waiting report reaches its collector. -/
def collect (s : Device) : Device :=
  match s.flt.arriving with
  | [] => s
  | rep :: rest =>
    let s := { s with flt := { s.flt with arriving := rest } }
    let w := srcWord s (srcSlot rep.src)
    let s := noteWord rep s
    match srcDie rep.src with
    | none => formRecord rep 0 s
    | some d =>
      let s := if 3 ≤ rep.cls.val then dieEnters d.val (if rep.cls = 4 then .c4 else .c3) s else s
      if !w.sticky ∨ w.maxCls < rep.cls.val ∨ 2 ≤ rep.cls.val then forward d rep s else s

/-- The central collector's own registers (R532, R533). -/
def selfRep (s : Device) : Report := { src := .hub 5, cls := 3, cause := 0x19, detail := 0, time := devNs s }

def faultReport (x : CollectorIn) (s : Device) : Device :=
  settle (match x with
    | .waiting => collect s
    | .line d =>
      match s.flt.sending.find? (·.die = d) with
      | none => s
      | some y =>
        let i := s.flt.sending.findIdx (·.die = d)
        formRecord y.rep y.merged { s with flt := { s.flt with sending := s.flt.sending.eraseIdx i } }
    | .selfCorr => { s with flt := { s.flt with selfCorr := satAdd 8 s.flt.selfCorr 1 } }
    | .selfFault =>
      let r : FltRec := { rep := selfRep s, plotValid := false, plot := 0, merged := 0, safe := true, overflowed := false, almSeq := s.alm.next }
      if s.flt.fsafe = .c4 then s else enterSafe r { s with flt := { s.flt with selfFault := true } })

/-! ## Policy actions (R503 to R505) -/

/-- The die of a sensor; `none` for the hub. -/
def sensorDie (kind inst : Nat) : Option Nat :=
  if kind = 0x01 ∨ kind = 0x02 then (if inst < 8 then some inst else none)
  else if kind = 0x03 then (if inst / 16 < 8 then some (inst / 16) else none)
  else if kind = 0x0B ∨ kind = 0x0C ∨ kind = 0x0D then some (inst / 48)
  else if kind = 0x0E then some (inst / 64)
  else none

/-- The plot that owns the sensor's bed or lane, or the region of a security event. -/
def sensorPlot (s : Device) (kind inst : Nat) (v : Int) : Nat :=
  if kind = 0x0B ∨ kind = 0x0C ∨ kind = 0x0D then bedOwner s inst
  else if kind = 0x0E then laneOwner s inst
  else (regionAt s v.toNat).owner

/-- The object of an action's record, and the source of its fault (R503, R513). DEDUCED (log 116). -/
def sensorObj (kind inst : Nat) : Nat × Nat :=
  match sensorDie kind inst with
  | some d => (0x02, d)
  | none => (0x01, 0)

def dieOrDevice (kind inst : Nat) : Source :=
  match sensorDie kind inst with
  | some d => .die (Fin.ofNat 8 d)
  | none => .device

/-- Progress commands on these objects end with BUSY (R433). -/
def stopCommandsOn (objs : List Obj) (s : Device) : Device :=
  s.mgmt.progress.foldl (fun s p => if p.holds.any objs.contains then finish p stBusy [] (dropJob p.inst s) else s) s

/-- PLOT_FALLOW of a plot (R505). -/
def plotFallow (p : Nat) (s : Device) : Device :=
  let objs := (plotBeds s p).map Obj.bed ++ (plotCores s p).map Obj.core ++ (plotLanes s p).map Obj.lane ++ (plotEngines s p).map Obj.engine
  let s := stopCommandsOn objs (disturb objs s)
  let s := (plotBeds s p).foldl (fun s n => if (bedAt s n).st = .unconfigured then s else
    modBed n (fun (b : Bed) => { b with byPolicy := true }) (makeFallow true n s)) s
  let s := stopEngines (plotEngines s p) (stopCores 4 (plotCores s p) s)
  setPlot p (fun x => { x with fallow := true }) s

/-- ZEROISE_PLOT of a plot (R505). -/
def zeroisePlot (p : Nat) (s : Device) : Device :=
  let s := bistDrop (plotBeds s p) s
  let s := retirePlot p (plotFallow p s)
  let s := setPlot p (fun x => { x with ownerKey := none, zeroised := true }) s
  stopCommandsOn ((plotKeys s p).map Obj.key ++ (plotRegions s p).map Obj.region ++ [.plot p]) (endDebugOf p s)

/-- Beds of a THROTTLE action. DEDUCED (log 90). -/
def throttleBeds (f : Fired) (kind : Nat) : List Nat :=
  if f.rule.target.toNat = 0xFFFF then
    match sensorDie kind f.inst with
    | some d => (List.range 48).map fun i => d * 48 + i
    | none => List.range 384
  else [f.rule.target.toNat]

/-- Targets that graver actions of the same occurrence have already taken (R504): plots zeroised, plots made fallow. -/
structure Acted where
  zeroised : List Nat
  fallowed : List Nat
  deriving DecidableEq, Repr

/-- What an action did: class of its fault, source, object of its record; `none` where it changes no state. -/
structure Done where
  cls : Fin 5
  src : Source
  obj : Nat × Nat
  busy : Bool

def actPlotOf (s : Device) (f : Fired) (kind : Nat) : Nat :=
  if f.rule.target.toNat = 0xFFFF then sensorPlot s kind f.inst f.val else f.rule.target.toNat % 16

/-- RETIRE_REGION: poisoned with cause 8, or retired where its key ID is 0. -/
def retireRegion (i : Nat) (s : Device) : Device × Bool :=
  let r := regionAt s i
  if r.st = .free ∨ r.st = .retiring ∨ r.st = .poisoned then (s, false)
  else
    let s := stopCommandsOn [.region i] s
    if r.keyId = 0 then (beginRetire { keyId := 0, index := i, reply := false } s, true)
    else (memSettle (poisonRegion i 8 s), true)

/-- One fired rule is carried out (R503, R504): in the worked example of R509 THROTTLE.STEP of the 48 beds of CD5. -/
def carryOut (kind : Nat) (f : Fired) (acc : Acted) (s : Device) : Device × Acted × Option Done :=
  let t := f.rule.target.toNat
  match f.rule.action.toNat with
  | 0 => (s, acc, some ⟨0, dieOrDevice kind f.inst, sensorObj kind f.inst, false⟩)
  | 1 =>
    let all := throttleBeds f kind
    let bs := all.filter fun n => !acc.fallowed.contains (bedOwner s n)
    let step := f.rule.arg.toNat
    let one := if t = 0xFFFF then (dieOrDevice kind f.inst, sensorObj kind f.inst) else (bedSource t, (0x03, t))
    if bs.isEmpty ∧ !all.isEmpty then (s, acc, some ⟨0, one.1, one.2, true⟩)
    else if bs.all fun n => (bedAt s n).clock.throttle.toNat = step then (s, acc, none)
    else (bs.foldl (fun s n => setThrottle n step s) s, acc, some ⟨if step = 0 then 0 else 1, one.1, one.2, false⟩)
  | 2 =>
    let l := if t = 0xFFFF then f.inst else t
    let d : Done := ⟨1, .lane (Fin.ofNat 512 l), (0x05, l), false⟩
    if (laneAt s l).retired then (s, acc, none)
    else if acc.zeroised.contains (laneOwner s l) then (s, acc, some { d with busy := true })
    else (retireLane l (stopCommandsOn [.lane l] s), acc, some d)
  | 3 =>
    let l := t % 16
    let dir := t / 16 % 2
    let n := t / 32 % 16
    let w := t / 512 % 64
    let x := (linkAt s l).strand dir n
    if x.st = .retired ∨ x.wire0.toNat = w ∨ x.wire1.toNat = w then (s, acc, none)
    else
      let s' := graftWires l dir n [w] s
      (s', acc, if linkAt s' l = linkAt s l then none else some ⟨1, linkSrc l, (0x07, linkObj l dir n), false⟩)
  | 4 =>
    let i := if t = 0xFFFF then f.val.toNat else t
    let d : Done := ⟨2, .region (Fin.ofNat 1024 i), (0x0A, i), false⟩
    if acc.zeroised.contains (regionAt s i).owner then (s, acc, some { d with busy := true })
    else
      let (s, ok) := retireRegion i s
      (s, acc, if ok then some d else none)
  | 5 =>
    let p := actPlotOf s f kind
    let d : Done := ⟨2, .plot (Fin.ofNat 16 p), (0x0C, p), false⟩
    if acc.zeroised.contains p ∨ acc.fallowed.contains p then (s, acc, some { d with busy := true })
    else if !plotExists s p ∨ (plotSt s p).fallow then (s, acc, none)
    else (plotFallow p s, { acc with fallowed := p :: acc.fallowed }, some d)
  | 6 =>
    let p := actPlotOf s f kind
    let d : Done := ⟨2, .plot (Fin.ofNat 16 p), (0x0C, p), false⟩
    if acc.zeroised.contains p then (s, acc, some { d with busy := true })
    else if !plotExists s p ∨ (plotSt s p).zeroised then (s, acc, none)
    else (zeroisePlot p s, { zeroised := p :: acc.zeroised, fallowed := p :: acc.fallowed }, some d)
  | _ => (zeroiseAll s, { zeroised := List.range 16, fallowed := List.range 16 }, some ⟨4, .device, (0x01, 0), false⟩)

/-- An action's record, origin 8, and its fault (R503, R514): in the worked example of R509 action 0x8101 on object class 0x02, ID 5, with
C1, or for ARG 0 with C0, against CD5. -/
def actionDone (f : Fired) (d : Done) (s : Device) : Device :=
  let code := f.rule.action.toNat
  let (b, s) := freshDigest s
  let (a, s) := freshDigest s
  let s := almMake { origin := 8, principal := 0, objClass := d.obj.1, objId := d.obj.2, action := 0x8100 + code,
                     status := if d.busy then stBusy else 0, before := b, after := a } (objPlot s d.obj.1 d.obj.2) s
  if d.busy then s
  else raise d.src d.cls 0x16 (f.idx + place code 8 + place f.rule.target.toNat 16) s

/-- An occurrence is evaluated and its actions carried out, gravest first (R502 to R504). -/
def policyAct (kind inst : Nat) (v : Int) (t : Nat) (s : Device) : Device :=
  let (s, fs) := evaluate kind inst v t s
  (fs.foldl (fun (acc : Device × Acted) f =>
    let (s, a, d) := carryOut kind f acc.2 acc.1
    (match d with | some d => actionDone f d s | none => s, a)) (s, ⟨[], []⟩)).1

/-- The warden pair has left reset and is not halted (R593). -/
def wardenRuns (s : Device) : Bool := s.mgmt.up && !s.dbg.mgmtCtl.getLsbD 1

/-- Occurrences that wait are evaluated in order (R509). -/
def drainPolicy (s : Device) : Device :=
  let q := s.policy.queue
  if q.isEmpty ∨ !wardenRuns s then s
  else settle (q.foldl (fun s x => policyAct x.1 x.2.1 x.2.2.1 x.2.2.2 s) { s with policy := { s.policy with queue := [] } })

/-- A sensor event, evaluated at once where the warden pair runs. -/
def sensorEvent (kind inst : Nat) (v : Int) (s : Device) : Device :=
  if !wardenRuns s then occur kind inst v s else settle (policyAct kind inst v (devNs s) s)

/-- AUTO_RESET is due: the seconds of R545 have passed in FATAL, and no C4 holds. -/
def autoResetDue (s : Device) : Bool :=
  match s.flt.fatalAt with
  | some t => s.mgmt.dev = .fatal && s.flt.fsafe = .c3 && s.flt.autoReset ≠ 0 && decide (t + s.flt.autoReset.toNat * 10 ^ 9 ≤ devNs s)
  | none => false

end Sys2Proof.Machine
end

