-- ==== Sys2Proof/Machine/Startup.lean ====
section
/-! DEFINITION. Power-on reset, device reset and start-up (R150, R151, R269, R273, R282, R305, R306, R352, R456, R519, R545 to R549,
R565, R575, R576, R600 to R604), and the board's monitors (R618, R619). -/
namespace Sys2Proof.Machine
open Sys2Proof

def modStart (f : Startup → Startup) (s : Device) : Device := { s with start := f s.start }

/-- The device is powered, out of reset, and its start-up has not stopped. -/
def starting (s : Device) : Bool := s.dbg.vccaux && !s.start.sysLow && !s.start.stopped

/-! ## What every reset does -/

/-- Ranges of encrypted regions and of metadata: their blank lines hold what follows from keys that are gone. -/
def cipherRanges (s : Device) : List (Nat × Nat) :=
  ((validRegions s).filter fun e => e.2.level ≠ 0 && e.2.size ≠ 0).flatMap (fun e =>
    (e.2.base, e.2.size) :: (if e.2.level = 2 then [(e.2.metaBase, e.2.metaSize)] else []))
    ++ (if s.mem.rtReady then [(s.mem.rtBase, 2 ^ 21)] else [])

/-- LPDDR6 contents survive physically; regions, keys, windows and channels do not (R297). DEDUCED (log 66). -/
def memReset (s : Device) : Mem :=
  { Mem.reset with lines := s.mem.lines, remnants := s.mem.remnants ++ cipherRanges s, lostSegs := s.mem.lostSegs }

/-- The reset values that both resets share; what the one or the other keeps is put back by its caller (R546). -/
def resetCommon (s : Device) : Device :=
  { s with
    trl := .reset
    own := .reset
    gpio := .empty
    msix := .reset
    beds := .empty
    rakes := []
    coreIo := .empty
    mem := memReset s
    cxl := .reset
    d2d := .reset
    bist := { s.bist with soft := [], run := none }
    trust := { Trust.reset with
      lifecycle := s.trust.lifecycle
      ownerBlk := s.trust.ownerBlk
      ownerInv := s.trust.ownerInv
      slot1 := s.trust.slot1
      draws := s.trust.draws
      trimLockAll := s.trust.trimLockAll }
    cfg := { Cfg.reset with others := s.cfg.others, mode := s.cfg.mode, ctl := s.cfg.ctl }
    answer := none }

/-- References as start-up classifies them (R360): the frequency code plus 1 of each input, 0 where absent. -/
def xrefOf (xs : List (Fin 5)) : Sparse Nat := xs.zipIdx.foldl (fun m x => m.set 0 x.2 x.1.val) .empty

/-! ## Device reset (R519, R545, R546) -/

/-- Sessions and the debug session end, and the almanac is copied to the retention SRAM, before the reset takes effect. -/
def beforeReset (s : Device) : Device :=
  let s := endDebug true (endSessions 0x800E true (fun _ => true) s)
  let s := closeOpen s
  let u := s.alm.recs.filter fun r => decide (s.alm.acked ≤ r.seq)
  let n := u.length - (almTail s).length
  retAlmanac (modStart (fun x => { x with lost := if n = 0 then none else some ((u.head?.map (·.seq)).getD 0, n) }) s)

/-- A core's registers after a device reset: DSTAT and the debug registers that only a power-on reset clears are kept. -/
def coreAfter (x : Core) : Core :=
  { Core.reset with
    dstat := x.dstat
    dbg := { CoreDbg.reset with
      bp0 := x.dbg.bp0, bp1 := x.dbg.bp1, bundle := x.dbg.bundle, fedErr := x.dbg.fedErr, fedCode := x.dbg.fedCode, near := x.dbg.near
      tgtReset := x.dbg.tgtReset } }

/-- A device reset takes effect. DEDUCED (log 121). -/
def deviceReset (s : Device) : Device :=
  let s := beforeReset s
  let t := resetCommon s
  { t with
    time := { Time.reset with ticks := s.time.ticks, began := devNs s, freqClass := s.time.freqClass, failed := s.time.failed, ppsIn := s.time.ppsIn }
    flt := { Faults.reset with pulse := s.flt.pulse, lastFault := s.flt.lastFault }
    policy := { Policy.reset with floor := s.policy.floor }
    alm := { Almanac.reset with lost := s.alm.lost, sealed := s.alm.exhausted, exhausted := s.alm.exhausted }
    mgmt := { Mgmt.reset with tmo := s.mgmt.tmo, fpPoll := s.mgmt.fpPoll, authFail := s.mgmt.authFail, replay := s.mgmt.replay, near := s.mgmt.near }
    shells := s.shells.mapCells Shell.reset fun _ x => { Shell.reset with trim := x.trim, trimLock := x.trimLock }
    cores := s.cores.mapCells Core.reset fun _ x => coreAfter x
    ports := { Ports.reset with xref := s.ports.xref }
    start := { Startup.reset with
      por := false, acks := s.start.acks, rails := s.start.rails, moved := s.start.moved, lost := s.start.lost, sysLow := s.start.sysLow }
    dbg := { s.dbg with session := none, request := none } }

/-- Every item of the safe state is complete on every die (R541, R544). -/
def safeEntered (s : Device) : Bool :=
  s.flt.dieSafe.all (fun l => decide (levelNo s.flt.fsafe ≤ levelNo l))
    && (List.range 384).all (outOfService s) && coresQuiet s (List.range 128)

/-- A device reset begins, or waits while the safe state is being entered (R544). -/
def requestReset (s : Device) : Device :=
  if s.flt.fsafe ≠ .none ∧ !safeEntered s then modStart (fun x => { x with due := true }) s else deviceReset s

/-- A reset that waits begins once the safe state is complete. DEDUCED (log 122). -/
def resetDue (s : Device) : Device := if s.start.due && safeEntered s then deviceReset s else s

/-- SYS_RESET_N low; ignored after C4 (R547). A low during a device reset extends it. DEDUCED (log 124). -/
def sysReset (xs : List (Fin 5)) (s : Device) : Device :=
  if s.flt.fsafe = .c4 ∨ !s.dbg.vccaux then s
  else
    let s := { s with ports := { s.ports with xref := xrefOf xs } }
    requestReset (modStart (fun x => { x with sysLow := true }) s)

def sysRelease (s : Device) : Device := modStart (fun x => { x with sysLow := false }) s

def autoReset (s : Device) : Device := if autoResetDue s then requestReset s else s

/-! ## Power-on reset (R603) and power (R547, R575, R576) -/

/-- Everything that a power-on reset clears; the debug island keeps its retention SRAM. -/
def porCommon (s : Device) : Device :=
  let s := endDebug true s
  { resetCommon s with
    time := .reset
    flt := { Faults.reset with lastFault := s.flt.lastFault }
    policy := .reset
    alm := .reset
    mgmt := .reset
    shells := .empty
    cores := .empty
    ports := .reset
    trust := { (resetCommon s).trust with trimLockAll := false }
    cfg := { (resetCommon s).cfg with ctl := Cfg.reset.ctl }
    start := .reset
    board := { s.board with smbus := none }
    dbg := { s.dbg with session := none, request := none, freezeCfg := .empty, mgmtCtl := if s.trust.lifecycle = .deployed then 0 else 4 } }

/-- The release of POR_N clears POLICY_FLOOR and anchor entries 1 to 15 (R576). -/
def clearAtPor (s : Device) : Device :=
  retWrite 0x130 (List.replicate 720 0) (retWrite 0x98 [0, 0, 0, 0] s)

/-- POR_N low for 10 µs or more and its release, with the lands that are sampled; ignored while C4 holds (R547). -/
def porRow (mode : BitVec 3) (xs : List (Fin 5)) (s : Device) : Device :=
  if s.flt.fsafe = .c4 then s
  else
    let s := clearAtPor (porCommon s)
    { s with cfg := { s.cfg with mode }, ports := { s.ports with xref := xrefOf xs }, dbg := { s.dbg with vccaux := true } }

/-- The island has lost every supply: the retention SRAM is lost, which its next reset fills. -/
def islandOff (s : Device) : Device :=
  { s with dbg := { s.dbg with vccaux := false, vstby := false, vprobe := false, session := none, request := none } }

/-- VCCAUX goes, and with it the device's main supplies (R547, R602); what else supplies the island is given. DESIGN CHOICE (log 123). -/
def vccauxOff (stby probe : Bool) (s : Device) : Device :=
  let s := porCommon s
  let s := { s with dbg := { s.dbg with vccaux := false, vstby := stby, vprobe := probe } }
  if stby || probe then s else islandOff s

/-- The supplies are those given; the island resets where there were none (R576). -/
def islandReset (aux stby probe : Bool) (s : Device) : Device :=
  if islandOn s || !(aux || stby || probe) then s
  else
    let s := setArray 6 0 (arrayAt s 6 0).fill { s with flt := { s.flt with lastFault := none } }
    { s with dbg := { Dbg.reset with vccaux := false, vstby := stby, vprobe := probe, freezeCfg := s.dbg.freezeCfg, mgmtCtl := s.dbg.mgmtCtl } }

def islandLoss (s : Device) : Device := if s.dbg.vccaux then islandOff (porCommon s) else islandOff s

/-! ## Start-up stops (R150, R352, R601) -/

/-- Start-up stops before a management core leaves reset: ERR_N as for C3, and the last-fault record. -/
def startFails (src : Source) (unit : Nat) (s : Device) : Device :=
  let rep : Report := { src, cls := 3, cause := 0x18, detail := BitVec.ofNat 64 unit, time := devNs s }
  let r : FltRec := { rep, plotValid := false, plot := 0, merged := 0, safe := false, overflowed := false, almSeq := s.alm.next }
  let s := retLastFault r (driveErrN s)
  modStart (fun x => { x with stopped := true }) { s with flt := { s.flt with held := true } }

/-- READY: start-up training has ended and the command pair runs (R437). DESIGN CHOICE (log 125). -/
def enterReady (s : Device) : Device :=
  if s.mgmt.dev = .start ∧ s.mgmt.up ∧ s.mem.trained then
    let s := { s with mgmt := { s.mgmt with dev := .ready }, cfg := { s.cfg with ready := some (devNs s) } }
    if goldenAtReady s.cfg.mode then goldenAuto s else s
  else s

/-- The management cores leave reset; in DEPLOYED every shell's TRIM.LOCK is set first (TRIM). -/
def release (s : Device) : Device :=
  if starting s ∧ !s.mgmt.up ∧ s.start.checker ∧ s.start.fill ∧ s.start.links ∧ s.start.acks = 0xFF ∧ s.flt.fsafe ≠ .c4 then
    enterReady { s with
      mgmt := { s.mgmt with up := true }
      trust := { s.trust with trimLockAll := s.trust.trimLockAll || decide (s.trust.lifecycle = .deployed) } }
  else s

/-! ## The self-test, the fill, and links -/

/-- An array's checker fails (R150). -/
def checkerFail (s : Device) (x : CheckerFail) : Device :=
  match x.cls.val with
  | 0 =>
    if x.idx.val < 18432 then
      modBed (x.idx.val / 48) (fun (b : Bed) => { b with bmBad := b.bmBad.set false (x.idx.val % 48) true, unusable := true }) s
    else s
  | 1 | 2 => if x.idx.val < 128 then setCoreIo x.idx.val { coreIoAt s x.idx.val with unusable := true } s else s
  | n => startFails (.hub (Fin.ofNat 16 (n + 9))) (n + 9) s

def checkerDone (xs : List CheckerFail) (s : Device) : Device :=
  if !starting s ∨ s.start.checker then s
  else release (xs.foldl checkerFail (modStart (fun x => { x with checker := true }) s))

/-- The almanac's tail as the hub reads it back; records that hold bad bytes are dropped (R578). -/
def readTail (n : Nat) (s : Device) : Device × List AlmRec :=
  (List.range n).foldl (fun (acc : Device × List AlmRec) i =>
    match retRead (0x4000 + 64 * i) 64 acc.1 with
    | (s, some b) => (s, acc.2 ++ [parseRec b])
    | (s, none) => (s, acc.2)) (s, [])

/-- The almanac state, where its area is valid. -/
def readAlmState (s : Device) : Device × Option (List Byte) :=
  let (s, v) := retValid s
  if bitAt v 1 && bitAt v 2 then retRead 0x80 64 s else (s, none)

/-- A new epoch: the BOOT record, BEFORE the latest CHAIN of a valid retention tail (R519). -/
def bootRecord (s : Device) : Device :=
  let (s, st) := readAlmState s
  let before := (st.map fun b => leAt b 8 8).getD 0
  let (s, e) := drawRandom 8 s
  let epoch := leAt e 0 8
  selfRec 0x14 0 0x8000 0 before epoch { s with alm := { s.alm with epoch, next := 0, chain := 0 } }

/-- Records lost: those beyond the tail, and those of the tail that were damaged (R519, R578). DEDUCED (log 112). -/
def gapOf (first n : Nat) (good : List AlmRec) (lost : Option (Nat × Nat)) : Option (Nat × Nat) :=
  let bad := (List.range n).filter fun i => !good.any fun r => r.seq = first + i
  match lost, bad with
  | none, [] => none
  | none, b :: bs => some (first + b, bs.length + 1)
  | some x, bs => some (x.1, x.2 + bs.length)

/-- The almanac comes back after the fill; a GAP record where records were lost, then the device-reset record. -/
def restoreAlmanac (s : Device) : Device :=
  let (s, st) := readAlmState s
  match st with
  | none => bootRecord s
  | some b =>
    let first := leAt b 28 8
    let n := leAt b 36 2
    let (s, rs) := readTail n s
    let good := rs.filter fun r => decide (first ≤ r.seq)
    let s := { s with
      alm := { s.alm with next := leAt b 0 8, chain := leAt b 8 8, epoch := leAt b 16 8, acked := first }
      policy := { s.policy with floor := BitVec.ofNat 32 (leAt b 24 4) } }
    let s := good.foldl (fun s r => clearSlot r.seq s.alm.recs { s with alm := { s.alm with recs := s.alm.recs ++ [r] } }) s
    let s := match gapOf first n good s.start.lost with
      | some g => selfRec 0x14 0 0x8002 0 g.1 g.2 s
      | none => s
    let (x, s) := freshDigest s
    let (y, s) := freshDigest s
    selfRec 0x01 0 0x8001 0 x y (modStart (fun x => { x with lost := none }) s)

/-- What training found takes effect once the fill and the screen are complete; a die without a route stops start-up. -/
def linksTake (s : Device) : Device :=
  match s.start.found with
  | none => s
  | some xs =>
    let s := modStart (fun x => { x with found := none, links := true }) (trainLinks (fuseGrafts s) (addCarried s xs) s)
    match cutOff s with
    | [] => s
    | d :: _ => startFails (linkSrc d) d s

/-- SRAM_FILL_COMPLETE: every byte of classes 0 to 5 is 0 (R151), the screen's findings are repaired (R560), the almanac comes
back or an epoch begins, and LPDDR6 training starts (R293). -/
def fillComplete (screen : List Finding) (s : Device) : Device :=
  if !starting s ∨ !s.start.checker ∨ s.start.fill then s
  else
    let s := modStart (fun x => { x with fill := true }) { s with arrays := s.arrays.mapCells Coded.filled fun k c => if k / 65536 = 6 then c else c.fill }
    let s := startRepairs screen s
    let s := if s.start.por then bootRecord s else restoreAlmanac s
    let s := (List.range 24).foldl (fun s c => modShell (phyId c) (fun x => Shell.ctlWrite x true 0) s) s
    release (linksTake s)

/-- The results of training for every link. DEDUCED (log 120). -/
def linksTrained (xs : List LinkTrain) (s : Device) : Device :=
  if !starting s ∨ s.start.links ∨ s.start.found.isSome then s
  else
    let s := modStart (fun x => { x with found := some xs }) s
    if s.start.fill then release (linksTake s) else s

/-- PUF_RECONSTRUCTION_COMPLETE, once in each start-up and after the screen (R560). -/
def pufRow (ok : Bool) (s : Device) : Device :=
  if !starting s ∨ !s.start.fill ∨ s.start.puf then s else pufComplete ok (modStart (fun x => { x with puf := true }) s)

/-! ## AVSBus (R601) -/

def avsAck (d : Nat) (s : Device) : Device :=
  if !starting s then s
  else release (modStart (fun x => { x with
    acks := x.acks ||| (1#8 <<< d)
    rails := if x.acks.getLsbD d then x.rails else modAt x.rails d fun _ => 700 + (Config.setpoint d).val
    moved := if x.acks.getLsbD d then x.moved else modAt x.moved d fun _ => devNs s }) s)

def avsTimeout (d : Nat) (s : Device) : Device :=
  if !starting s ∨ s.mgmt.up ∨ s.start.acks.getLsbD d then s else startFails (.die (Fin.ofNat 8 d)) d s

/-- BIST runs on the die. -/
def bistOn (s : Device) (d : Nat) : Bool := s.bist.run.any fun r => r.kind = 1 || r.beds.any fun n => n / 48 = d

def avsAdjust (d mv : Nat) (s : Device) : Device :=
  let old := s.start.rails.getD d 750
  let since := s.start.moved.getD d 0
  if s.mgmt.up ∧ 700 ≤ mv ∧ mv ≤ 800 ∧ mv ≤ old + 10 ∧ old ≤ mv + 10 ∧ since + 10000000 ≤ devNs s ∧ !bistOn s d then
    modStart (fun x => { x with rails := modAt x.rails d fun _ => mv, moved := modAt x.moved d fun _ => devNs s }) s
  else s

/-! ## Start-up training of LPDDR6 (R269, R273, R305, R306, R456, R565) -/

def trainChan (s : Device) (x : ChanTrain × Nat) : Device :=
  let c := x.2
  match x.1 with
  | .absent => modShell (phyId c) (fun y => Shell.startDone y false) s
  | .failed =>
    let s := setShell (phyId c) (Shell.macroFault (shellAt s (phyId c))) (modCh c (fun y => { y with failed := true }) s)
    selfRec 0x08 c 0x800A 0 0 0 (raise (chSource c) 2 0x0F 0 s)
  | .fitted two rate density eye =>
    let s := modCh c (fun y => { y with present := if two then 2 else 1, rate := BitVec.ofNat 3 rate.val, density := BitVec.ofNat 2 density.val, eye }) s
    modShell (phyId c) (fun y => Shell.startDone y true) s

/-- Window 0 of R273. -/
def firstWindow (s : Device) : Window :=
  match fittedList s with
  | [] => Window.off
  | c :: cs =>
    let least := cs.foldl (fun m x => Nat.min m (chAt s x).bytes) (chAt s c).bytes
    { base := 0, size := (cs.length + 1) * least, chBase := 0, mask := fittedMask s, grain := 4, hash := true, valid := true }

/-- The root of an area filled under key ID 255. -/
def deviceRoot (i : Nat) (s : Device) : Device :=
  { s with mem := { s.mem with roots := s.mem.roots.set none i (some { gen := (keySlot s 255).gen, mac := none }) } }

/-- A P2 device region with key ID 255 that the device places and fills itself. -/
def deviceRegion (i base size metaBase metaSize : Nat) (s : Device) : Device :=
  putRegion i { Region.reset with
    st := .active, level := 2, keyId := 255, keyGen := (keySlot s 255).gen, base, size, metaBase, metaSize }
    (deviceRoot i (clearArea metaBase metaSize (clearArea base size s)))

def mib : Nat := 2 ^ 20

/-- The Region Table area, and with two channels the staging and save regions. -/
def placeRegions (s : Device) : Device :=
  let w := firstWindow s
  let s := { s with mem := { s.mem with windows := w :: List.replicate 7 Window.off } }
  if !w.valid then s
  else
    let rt := w.size - 2 * mib
    let stage := rt - 384 * mib
    let save := stage - 128 * mib
    let s := deviceRoot 1024 (clearArea rt (2 * mib) s)
    let s := { s with mem := { s.mem with rtReady := true, rtBase := rt }, cxl := { s.cxl with memActive := 0xFFFF } }
    if w.k < 2 then s
    else
      deviceRegion 1017 save (64 * mib) (save - 16 * mib) (metaSizeOf (64 * mib))
        (deviceRegion 1016 stage (384 * mib) (stage - 64 * mib) 57524224 s)

def trainingDone (xs : List ChanTrain) (s : Device) : Device :=
  if !starting s ∨ !s.start.fill ∨ s.mem.trained then s
  else
    let s := placeRegions (xs.zipIdx.foldl trainChan s)
    wakeMap (enterReady { s with mem := { s.mem with trained := true }, start := { s.start with trained := true } })

/-! ## Sensors and supplies (R498, R600, R618) -/

def hotLimit : Int := 412
def coolLimit : Int := 388

/-- THERM_N: low from 103 °C, released once every sensor reads 97 °C or less (R618). -/
def thermOf (b : Board) : Bool :=
  if b.temps.cells.any fun c => decide (hotLimit ≤ c.2) then true
  else if b.temps.cells.all fun c => decide (c.2 ≤ coolLimit) then false
  else b.therm

/-- A TEMP sample, in units of 0.25 °C. -/
def tempRow (inst : Nat) (v : Int) (s : Device) : Device :=
  if !s.dbg.vccaux then s
  else
    let b : Board := { s.board with temps := s.board.temps.set (-10000) inst v }
    sensorEvent 0x03 inst v { s with board := { b with therm := thermOf b } }

/-- An event of a sensor that carries no value. -/
def eventRow (kind inst : Nat) (s : Device) : Device := if !s.dbg.vccaux then s else sensorEvent kind inst 0 s

def overTemp (inst : Nat) (s : Device) : Device :=
  if !s.dbg.vccaux then s else raise (if inst / 16 < 8 then .die (Fin.ofNat 8 (inst / 16)) else .device) 3 0xFF inst s

def supplyFault (rail : Nat) (s : Device) : Device := if !s.dbg.vccaux then s else raise .device 3 0xFF rail s

/-! ## SMBus (R619) -/

/-- The hottest of these sensors; sensors not sampled yet do not count, and with none sampled the word is a free value. -/
def hottest (p : Nat → Bool) (s : Device) : Word16 × Device :=
  match (s.board.temps.cells.filter fun c => p c.1).map (·.2) with
  | [] => let (v, s) := freeNat s; (BitVec.ofNat 16 v, s)
  | t :: ts => (BitVec.ofInt 16 (ts.foldl max t), s)

def devStateWord (s : Device) : Word16 :=
  if s.flt.fsafe = .c4 then 0x00FF else if !s.mgmt.up then 0xFFFF else BitVec.ofNat 16 (devStateNo s.mgmt.dev)

/-- SMBUS_READ_WORD: the word, or a NACK. -/
def smbusRead (cmd : Nat) (s : Device) : Device :=
  let put (w : Option Word16) (s : Device) : Device := { s with board := { s.board with smbus := w } }
  if !s.dbg.vccaux then put none s
  else if cmd = 0 then put (some (devStateWord s)) s
  else if cmd = 1 then let (w, s) := hottest (fun _ => true) s; put (some w) s
  else if cmd = 2 then let (v, s) := freeNat s; put (some (BitVec.ofNat 16 v)) s
  else if 0x10 ≤ cmd ∧ cmd ≤ 0x18 then let (w, s) := hottest (fun i => i / 16 = cmd - 0x10) s; put (some w) s
  else put none s

end Sys2Proof.Machine
end

