-- ==== Sys2Proof/WellFormed.lean ====
section
/-! DEFINITION. What a command's operands must be beyond their types. `exec` stops on a command that is not well formed. -/
namespace Sys2Proof

/-- Index and size of an on-chip array of a class (R143). -/
def sramCount : Nat → Nat
  | 0 => 18432 | 1 => 128 | 2 => 128 | _ => 1
def sramSize : Nat → Nat
  | 0 => 4096 | 1 => 65536 | 2 => 131072 | 3 => 33554432 | 4 => 4194304 | 5 => 8388608 | _ => 65536

def wfChecker (x : CheckerFail) : Bool := decide (x.idx.val < sramCount x.cls.val)

/-- Hub links 0 to 7 have 16 strands in each direction, neighbour links 8. -/
def wfStrand (l : LinkId) (n : Fin 16) : Bool := decide (l.val < 8 ∨ n.val < 8)

def wfLinkTrain (l : LinkId) (x : LinkTrain) : Bool :=
  (x.wires.all fun w => wfStrand l w.strand) && x.failed.all fun f => wfStrand l f.2

def wfLinkTrains (xs : List LinkTrain) : Bool :=
  decide (xs.length = 14) && xs.zipIdx.all fun x => wfLinkTrain (Fin.ofNat 14 x.2) x.1

/-- The units of R572: 384 beds, 128 cores, 8 dies, 128 quads, 64 engines, 14 links. -/
def wfFinding (x : Finding) : Bool :=
  match x.unit.val with
  | 1 => decide (x.index.val < 384)
  | 2 => decide (x.index.val < 128)
  | 3 => decide (x.index.val < 8)
  | 4 => decide (x.index.val < 128)
  | 5 => decide (x.index.val < 64)
  | 6 => decide (x.index.val < 14)
  | _ => false

/-- Altered bytes of a burst are 32. -/
def wfAltered (w : Option (List Byte)) : Bool := w.all fun d => decide (d.length = 32)

def wfUpset : Upset → Bool
  | .bit cls idx off _ => decide (idx.val < sramCount cls.val) && decide (off < sramSize cls.val)
  | .decoder cls idx line _ => decide (idx.val < sramCount cls.val) && decide (2 ^ line.val < sramSize cls.val)
  | .tap _ vert _ _ i _ => decide (i.val < if vert then 16 else 22)
  | .ring site ring pos _ => if site.val < 8 then decide (ring.val < 4) else decide (pos.val < 22)
  | .collector _ => true

/-- The commands whose operands name an object of the device. DESIGN CHOICE (log 3). -/
def Instr.wf : Instr → Bool
  | .porN _ xref => decide (xref.length = 32)
  | .sysResetN xref => decide (xref.length = 32)
  | .autoReset => true
  | .vccauxRemoval _ _ => true
  | .islandReset _ _ _ => true
  | .checkerSelfTestComplete bad => bad.all wfChecker
  | .sramFillComplete screen => screen.all wfFinding
  | .pufReconstructionComplete _ => true
  | .avsbusSetpointAck _ => true
  | .avsbusAckTimeout _ => true
  | .avsSetpointAdjust _ _ => true
  | .linkTrainingComplete found => wfLinkTrains found
  | .startUpTrainingComplete chans => decide (chans.length = 24)
  | .shellCtlWrite _ _ _ => true
  | .calStart _ _ _ _ => true
  | .calibrationComplete _ _ _ _ => true
  | .shellStartComplete _ _ _ => true
  | .shellStopComplete _ => true
  | .shellMacroFault _ => true
  | .shellMeasurement _ _ => true
  | .csrWrite _ => true
  | .halfRead _ _ => true
  | .tbNowRead _ _ _ => true
  | .cellHold _ _ => true
  | .cellPass _ _ => true
  | .cellAdd _ _ => true
  | .cellAddc _ _ => true
  | .cellSub _ _ => true
  | .cellSubc _ _ => true
  | .cellCmp _ _ => true
  | .cellMuls _ _ => true
  | .cellAnd _ _ => true
  | .cellOr _ _ => true
  | .cellXor _ _ => true
  | .cellSel _ _ => true
  | .cellShl _ _ => true
  | .cellShr _ _ => true
  | .cellSra _ _ => true
  | .cellRol _ _ => true
  | .boundaryComplete _ => true
  | .bedPauseTaken _ _ => true
  | .tokenArrival _ => true
  | .levelUpdateArrival _ => true
  | .creditReturn _ => true
  | .borderWaitAlarm _ => true
  | .marginFlag _ _ => true
  | .stretchRecover _ => true
  | .stretchSaturated _ => true
  | .throttle _ _ _ => true
  | .lockLost _ => true
  | .lockRegained _ => true
  | .generatorLockTimeout _ => true
  | .lineContention _ => true
  | .bmInject _ _ _ => true
  | .rake _ _ => true
  | .rakeWordSkip _ _ => true
  | .rakePriorityBoost _ _ => true
  | .rakePassEnd _ _ => true
  | .coreCtl _ _ _ => true
  | .coreStartComplete _ => true
  | .coreStopComplete _ => true
  | .interruptEntry _ => true
  | .wfiWake _ => true
  | .timer _ => true
  | .timerLoad _ _ _ => true
  | .wdtExpiry _ => true
  | .wdtService _ _ _ => true
  | .doorbell _ _ _ => true
  | .streamCtlClr _ _ _ _ _ => true
  | .dmaStart _ _ _ _ _ => true
  | .dmaDone _ _ => true
  | .streamStallEnd _ => true
  | .streamTmo _ => true
  | .nop _ _ => true
  | .vmov _ _ _ _ _ _ _ => true
  | .vbcst _ _ _ _ _ _ _ => true
  | .vsel _ _ _ _ _ _ _ => true
  | .vand _ _ _ _ _ _ _ => true
  | .vor _ _ _ _ _ _ _ => true
  | .vxor _ _ _ _ _ _ _ => true
  | .vandn _ _ _ _ _ _ _ => true
  | .vadd _ _ _ _ _ _ _ => true
  | .vsub _ _ _ _ _ _ _ => true
  | .vadds _ _ _ _ _ _ _ => true
  | .vsubs _ _ _ _ _ _ _ => true
  | .vmin _ _ _ _ _ _ _ => true
  | .vmax _ _ _ _ _ _ _ => true
  | .vabs _ _ _ _ _ _ _ => true
  | .vneg _ _ _ _ _ _ _ => true
  | .vshl _ _ _ _ _ _ _ => true
  | .vshr _ _ _ _ _ _ _ => true
  | .vsra _ _ _ _ _ _ _ => true
  | .vshrr _ _ _ _ _ _ _ => true
  | .vcmpeq _ _ _ _ _ _ _ => true
  | .vcmplt _ _ _ _ _ _ _ => true
  | .vcmple _ _ _ _ _ _ _ => true
  | .vcmpltu _ _ _ _ _ _ _ => true
  | .vzipl _ _ _ _ _ _ _ => true
  | .vziph _ _ _ _ _ _ _ => true
  | .vuzpe _ _ _ _ _ _ _ => true
  | .vuzpo _ _ _ _ _ _ _ => true
  | .vcj _ _ _ _ _ _ _ => true
  | .vconj _ _ _ _ _ _ _ => true
  | .vcvt _ _ _ _ _ _ _ => true
  | .vfma _ _ _ _ _ _ _ => true
  | .vfms _ _ _ _ _ _ _ => true
  | .vfmul _ _ _ _ _ _ _ => true
  | .vmul _ _ _ _ _ _ _ => true
  | .vmac _ _ _ _ _ _ _ => true
  | .vmsu _ _ _ _ _ _ _ => true
  | .vcmul _ _ _ _ _ _ _ => true
  | .vcmac _ _ _ _ _ _ _ => true
  | .vcmacj _ _ _ _ _ _ _ => true
  | .vsrs _ _ _ _ _ _ _ => true
  | .vacset _ _ _ _ _ _ _ => true
  | .vacz _ _ _ _ _ _ _ => true
  | .ldb _ _ _ _ _ _ => true
  | .ldbu _ _ _ _ _ _ => true
  | .ldh _ _ _ _ _ _ => true
  | .ldhu _ _ _ _ _ _ => true
  | .ldw _ _ _ _ _ _ => true
  | .ldd _ _ _ _ _ _ => true
  | .ldq _ _ _ _ _ _ => true
  | .vld _ _ _ _ _ _ => true
  | .stb _ _ _ _ _ _ => true
  | .sth _ _ _ _ _ _ => true
  | .stw _ _ _ _ _ _ => true
  | .std _ _ _ _ _ _ => true
  | .stq _ _ _ _ _ _ => true
  | .vst _ _ _ _ _ _ => true
  | .ldxW _ _ _ _ _ => true
  | .ldxD _ _ _ _ _ => true
  | .stxW _ _ _ _ _ => true
  | .stxD _ _ _ _ _ => true
  | .add _ _ _ _ _ => true
  | .sub _ _ _ _ _ => true
  | .and _ _ _ _ _ => true
  | .or _ _ _ _ _ => true
  | .xor _ _ _ _ _ => true
  | .shl _ _ _ _ _ => true
  | .shr _ _ _ _ _ => true
  | .sra _ _ _ _ _ => true
  | .mul _ _ _ _ _ => true
  | .mulh _ _ _ _ _ => true
  | .min _ _ _ _ _ => true
  | .max _ _ _ _ _ => true
  | .addi _ _ _ _ _ => true
  | .andi _ _ _ _ _ => true
  | .ori _ _ _ _ _ => true
  | .xori _ _ _ _ _ => true
  | .shli _ _ _ _ _ => true
  | .shri _ _ _ _ _ => true
  | .srai _ _ _ _ _ => true
  | .srri _ _ _ _ _ => true
  | .movil _ _ _ _ => true
  | .movih _ _ _ _ => true
  | .movx _ _ _ _ _ _ => true
  | .vget _ _ _ _ _ => true
  | .cmpeq _ _ _ _ _ => true
  | .cmplt _ _ _ _ _ => true
  | .cmpltu _ _ _ _ _ => true
  | .cmple _ _ _ _ _ => true
  | .pand _ _ _ _ _ => true
  | .por _ _ _ _ _ => true
  | .pandn _ _ _ _ _ => true
  | .pset _ _ _ => true
  | .pclr _ _ _ => true
  | .br _ _ _ => true
  | .brr _ _ _ => true
  | .call _ _ _ => true
  | .callr _ _ _ => true
  | .ret _ _ => true
  | .reti _ _ => true
  | .loop _ _ _ _ _ _ => true
  | .loope _ _ _ _ _ _ => true
  | .rpt _ _ _ _ => true
  | .lock _ _ _ _ => true
  | .swi _ _ => true
  | .trap _ _ => true
  | .wfi _ _ => true
  | .brn _ _ _ => true
  | .read _ => true
  | .write _ => true
  | .pwrite _ => true
  | .xload _ => true
  | .xstore _ => true
  | .fetchAdd _ => true
  | .swap _ => true
  | .cas _ => true
  | .trellisResponse _ _ => true
  | .bridgeForward _ _ _ => true
  | .initTmo _ _ => true
  | .taintExpiry _ _ => true
  | .packetAgeDiscard => true
  | .promote _ => true
  | .starveMark _ _ => true
  | .stCtlClr _ _ _ => true
  | .dramReadComplete _ _ _ w0 w1 => wfAltered w0 && wfAltered w1
  | .wrAgeExpiry _ => true
  | .refreshRatePoll _ _ _ => true
  | .periodicRetraining _ => true
  | .retrainingComplete _ _ => true
  | .memSelfrefreshEnter _ pkt => decide (pkt.payload.getD 4 0 ≠ 1)
  | .memSelfrefreshExit _ pkt => decide (pkt.payload.getD 4 0 = 1)
  | .selfRefreshEntryComplete => true
  | .selfRefreshExitComplete _ => true
  | .mapSet _ _ => true
  | .regionInit _ _ => true
  | .regionFillComplete _ => true
  | .keyRotate _ _ => true
  | .tillerRenewalComplete _ _ => true
  | .tillerRenewalStart _ => true
  | .keyRetire _ _ => true
  | .keyRetireComplete _ _ => true
  | .frameReceived link _ strand _ _ => wfStrand link strand
  | .replayTimeout link _ strand => wfStrand link strand
  | .ackDue link _ strand => wfStrand link strand
  | .idle _ _ _ => true
  | .ack _ _ _ => true
  | .nak _ _ _ => true
  | .cap _ _ _ => true
  | .test _ _ _ => true
  | .graft _ _ _ => true
  | .retire _ _ _ => true
  | .time _ _ => true
  | .maintenanceWindow _ _ _ => true
  | .wireTestComplete link _ strand _ => wfStrand link strand
  | .graftComplete link _ strand => wfStrand link strand
  | .linkStatus _ _ => true
  | .laneRefresh _ _ => true
  | .laneEntriesFetched _ _ => true
  | .laneCalibrate _ _ => true
  | .laneRetire _ _ => true
  | .laneCdr _ _ => true
  | .pcsLinkChange _ _ _ => true
  | .spCtl _ _ _ _ => true
  | .txrTail _ _ _ _ => true
  | .rxrTail _ _ _ _ => true
  | .frameTransmitted _ _ _ _ => true
  | .frameReceive _ _ _ _ _ => true
  | .tbSet _ _ => true
  | .tbAdjust _ _ => true
  | .tbRoute _ _ => true
  | .startAt _ _ => true
  | .startAtFire => true
  | .radjChange _ => true
  | .timeBroadcast _ => true
  | .holdover _ _ => true
  | .timePpsIn _ => true
  | .ppsEdgeTimeout _ => true
  | .timePpsOut _ => true
  | .timeFreqIn _ => true
  | .slewEnd _ => true
  | .memrd _ _ => true
  | .memwr _ _ data => decide (data.length = 64)
  | .birsp _ _ dirty _ => dirty.all (fun d => d.length = 64)
  | .hostSnoop => true
  | .perstN => true
  | .hotReset => true
  | .functionLevelReset _ => true
  | .cxlReset _ => true
  | .cxlLinkUp _ _ _ => true
  | .ideCheckFailure _ => true
  | .msixTrigger _ _ _ => true
  | .bind _ => true
  | .unbind _ => true
  | .identifyMemoryDevice _ => true
  | .getSupportedLogs _ => true
  | .getLog _ uuid _ _ => decide (uuid.length = 16)
  | .backgroundOperationStatus _ => true
  | .getMeasurements _ _ => true
  | .getCertificate _ _ _ _ => true
  | .endSession _ _ => true
  | .cdat _ => true
  | .stagingWrite _ _ _ => true
  | .cmd _ _ _ _ => true
  | .reply _ _ => true
  | .stream _ _ => true
  | .pstat _ => true
  | .cmdPacketTimeout _ => true
  | .fabricPortPoll _ _ => true
  | .identify _ _ => true
  | .getStatus _ _ => true
  | .shutdown _ _ => true
  | .plotReset _ _ => true
  | .sessionOpen _ _ => true
  | .sessionClose _ _ => true
  | .cfgBegin _ _ => true
  | .cfgData _ _ => true
  | .signatureVerifyComplete _ => true
  | .cfgCommit _ _ => true
  | .commitPoint _ => true
  | .cfgAbort _ _ => true
  | .sessionIdleTimeout _ => true
  | .doneHigh => true
  | .initWaitExpiry => true
  | .goldenLoad _ _ => true
  | .bedFallow _ _ => true
  | .bedRelease _ _ => true
  | .readback _ _ _ => true
  | .attestGet _ _ => true
  | .plotCreate _ _ => true
  | .plotDestroy _ _ => true
  | .keyInstall _ _ => true
  | .policyLoad _ _ _ => true
  | .lifecycleAdvance _ _ => true
  | .faultRead _ _ => true
  | .faultClear _ _ => true
  | .errpinRelease _ _ => true
  | .historyMode _ _ => true
  | .bistRun _ _ => true
  | .bistComplete found _ => found.all wfFinding
  | .bistConditionCheck _ => true
  | .bistResult _ _ => true
  | .repairCommit _ _ _ => true
  | .almRead _ _ => true
  | .almSeal _ _ => true
  | .almExport _ _ _ => true
  | .recordClose => true
  | .tamper => true
  | .mesh => true
  | .vglitch _ => true
  | .clkmon _ => true
  | .temp _ _ => true
  | .overtemperature _ => true
  | .supplyFault _ => true
  | .faultReport _ => true
  | .fsafe _ => true
  | .errNPulseEnd => true
  | .idcode => true
  | .samplePreload _ => true
  | .extest _ => true
  | .bypass => true
  | .testLogicReset => true
  | .cmdIo _ _ => true
  | .dbgAuth _ => true
  | .debugCertVerified => true
  | .debugAuthLockoutEnd => true
  | .dbgAccess _ _ _ _ => true
  | .retRead _ => true
  | .haltReq _ _ => true
  | .haltTaken _ => true
  | .lockDeadline _ => true
  | .resume _ => true
  | .step _ => true
  | .exec _ => true
  | .monReq _ _ => true
  | .bp0En _ _ => true
  | .bp1En _ _ => true
  | .haltCmd _ => true
  | .haltWarden _ => true
  | .freezeCfg _ _ => true
  | .smbusReadWord _ => true
  | .blockMemoryPortAccess _ _ => true
  | .upset hit => wfUpset hit
  | .refreshDue _ _ _ => true
  | .cxlCacheResponse _ _ _ => true
  | .configurationSpaceWrite _ _ => true
  | .ideKm _ _ _ => true
  | .cxlLinkDown _ => true
  | .cdrLockAcquired _ => true
  | .prbsLockChange _ _ _ => true
  | .ppsPulseEnd _ => true
  | .recoveryFlashReadComplete ptr _ => decide (ptr.length = 64)
  | .doneLineChange _ => true
  | .sysResetNRelease => true
  | .islandSupplyLoss => true

end Sys2Proof
end

