-- ==== Sys2Proof/Machine/RowOps.lean ====
section
/-! DEFINITION. Operations that commands of several families use: where registers with rows of their own lie, upsets, and the tick
that an empty queue stands for. -/
namespace Sys2Proof.Machine
open Sys2Proof

/-! ## A command acts on the device -/

/-- Fuses are burnt, never restored (R485, R573): whatever a command does, the lifecycle state does not move back, and burnt
blocks and record slots stay burnt. DEDUCED (log 113). -/
def fuseHold (old new : Device) : Device :=
  { new with
    trust := { new.trust with
      lifecycle := if lifecycleNo old.trust.lifecycle ≤ lifecycleNo new.trust.lifecycle then new.trust.lifecycle else old.trust.lifecycle
      ownerBlk := old.trust.ownerBlk.or new.trust.ownerBlk
      ownerInv := old.trust.ownerInv || new.trust.ownerInv }
    bist := { new.bist with fuses := if old.bist.fuses.isPrefixOf new.bist.fuses then new.bist.fuses else old.bist.fuses } }

/-- The effect of a command: the device changes, the queue does not. -/
def onDevice (f : Device → Device) (s : State) : State := { s with dev := fuseHold s.dev (f s.dev) }

/-- The window of an initiator, from the CSR base (R263, R265). -/
def winOff (i : InitId) : Nat :=
  if initDie i < 8 then dieOff (initDie i) + 0x508000 + initLocal i * 0x100 else 0x380000 + initLocal i * 0x100

def cxlOff : Nat := 0x500000
def timOff : Nat := 0x60000

/-- A read of TB_NOW, whole or its lower half (R403). -/
def tbNowAcc (init : InitId) (tb : TbId) (whole : Bool) : CsrAcc :=
  { init, addr := BitVec.ofNat 48 (csrBase + timOff + 0x108 + 0x40 * tb.val), size := if whole then 8 else 4, data := 0 }

/-- A TIME message comes to a compute die over its hub link, or from the die next to it where that has failed; a message of which no
copy is good is dropped (R337, R338, R394). -/
def timeRow (d : Nat) (m : SbMsg) (s : Device) : Device :=
  match hubPath s d with
  | some [l] => if sbGood s l 1 7 m then timeMessage d m.body.toNat s else s
  | some (l :: n :: _) => if sbGood s l (if n < d then 0 else 1) 7 m then timeMessage d m.body.toNat s else s
  | _ => s

/-- UPSET (R90, R148, R149, R235, R474, R532, R533). -/
def upsetRow (x : Upset) (s : Device) : Device :=
  match x with
  | .bit cls idx off pos => setArray cls.val idx.val ((arrayAt s cls.val idx.val).upset off pos.val) s
  | .decoder cls idx line stuck =>
    let c := arrayAt s cls.val idx.val
    setArray cls.val idx.val { c with dec := c.dec ++ [(line.val, stuck)] } s
  | .tap bed vert x l i k =>
    if vert && decide (16 ≤ i.val) then s else modBed bed.val (upsetTap vert x.val l.val i.val k.val) s
  | .ring site ring pos double => ringUpset site.val ring.val pos.val double s
  | .collector ok => resetDue (faultReport (if ok then .selfCorr else .selfFault) s)

/-! ## The tick -/

/-- One Fraelm core's part of a tick: two of its cycles, and its DMA channels (R160). -/
def coreTick (s : Device) (c : Nat) : Device :=
  let f := initFrozen s (lsInit c)
  let g := initFrozen s (dmaInit c 0)
  let s := coreCycle f c (coreCycle f c s)
  dmaTick g c 1 (dmaTick g c 0 s)

/-- A management core reads or writes a word of the hub SRAM, or does not (R148): its program is not the spec's, so which is free, and
shows only where the array holds an error. A bad byte is a bus error to the core. DESIGN CHOICE (log 159). -/
def hubSram (s : Device) : Device :=
  let c := arrayAt s 3 0
  if !s.mgmt.up || (c.syn.cells.isEmpty && c.dec.isEmpty) then s
  else
    let (x, s) := freeNat s
    let off := x / 3 % (arraySize 3 / 8) * 8
    match x % 3 with
    | 0 => s
    | 1 => reportRead 3 0 off (c.readBytes off 8) s
    | _ => setArray 3 0 (c.writeBytes off (leBytes 8 (x / 2 ^ 32))) s

/-- One tick of 1.25 ns (R383): time, cores, bed clocks, memory channels, and what waits for the warden. -/
def tick (s : Device) : Device :=
  if !s.dbg.vccaux then s
  else
    let s := { s with time := s.time.tick }
    let s := hubSram (ringsTick s)
    let s := (s.cores.cells.map (·.1)).foldl coreTick s
    let s := rakesTick ((s.beds.cells.map (·.1)).foldl bedTick s)
    let s := memSettle (storeDue ((s.mem.chans.cells.map (·.1)).foldl chanTick s))
    resetDue (settle (bedQueues (freezeBeds (drainPolicy s))))

end Sys2Proof.Machine
end

