-- ==== Sys2Proof/Machine/CmdAlmanac.lean ====
section
/-! DEFINITION. The almanac: what each command of the family does. -/
namespace Sys2Proof.Machine
open Sys2Proof

/-- ALM_READ (R521). -/
def execAlmRead (inst : Inst) (pkt : Packet) (s : State) : Out := .next (onDevice (fun s => settle (mgmtRun opAlmRead inst pkt s)) s)

/-- ALM_SEAL (R520). -/
def execAlmSeal (inst : Inst) (pkt : Packet) (s : State) : Out := .next (onDevice (fun s => settle (mgmtRun opAlmSeal inst pkt s)) s)

/-- ALM_EXPORT (R522). -/
def execAlmExport (inst : Inst) (pkt : Packet) (fail : Option Byte) (s : State) : Out := .next (onDevice (fun s => settle (mgmtRun (opAlmExport fail) inst pkt s)) s)

/-- RECORD_CLOSE (R516). -/
def execRecordClose (s : State) : Out := .next (onDevice (fun s => recordClose s) s)

end Sys2Proof.Machine
end

