-- ==== Sys2Proof/Machine/CmdBist.lean ====
section
/-! DEFINITION. Self-test and repair: what each command of the family does. -/
namespace Sys2Proof.Machine
open Sys2Proof

/-- BIST_RUN (R566). -/
def execBistRun (inst : Inst) (pkt : Packet) (s : State) : Out := .next (onDevice (fun s => settle (mgmtRun opBistRun inst pkt s)) s)

/-- BIST_COMPLETE (R569). -/
def execBistComplete (found : List Finding) (unread : List BedId) (s : State) : Out :=
  if found.all wfFinding then .next (onDevice (fun s => settle (bistComplete found unread s)) s) else .fault (.illFormed "BIST_COMPLETE")

/-- BIST_CONDITION_CHECK (R561). -/
def execBistConditionCheck (ok : Bool) (s : State) : Out := .next (onDevice (fun s => settle (bistCheck ok s)) s)

/-- BIST_RESULT (R570). -/
def execBistResult (inst : Inst) (pkt : Packet) (s : State) : Out := .next (onDevice (fun s => settle (mgmtRun opBistResult inst pkt s)) s)

/-- REPAIR_COMMIT (R573). -/
def execRepairCommit (inst : Inst) (pkt : Packet) (bad : List Bool) (s : State) : Out := .next (onDevice (fun s => settle (mgmtRun (opRepairCommit bad) inst pkt s)) s)

end Sys2Proof.Machine
end

