-- ==== Sys2Proof/Machine/CmdBoard.lean ====
section
/-! DEFINITION. Power, reset and start-up: what each command of the family does. -/
namespace Sys2Proof.Machine
open Sys2Proof

/-- POR_N (R603). -/
def execPorN (mode : BitVec 3) (xref : List (Fin 5)) (s : State) : Out :=
  if decide (xref.length = 32) then .next (onDevice (fun s => porRow mode xref s) s) else .fault (.illFormed "POR_N")

/-- SYS_RESET_N (R604). -/
def execSysResetN (xref : List (Fin 5)) (s : State) : Out :=
  if decide (xref.length = 32) then .next (onDevice (fun s => sysReset xref s) s) else .fault (.illFormed "SYS_RESET_N")

/-- AUTO_RESET (R545). -/
def execAutoReset (s : State) : Out := .next (onDevice (fun s => autoReset s) s)

/-- VCCAUX_REMOVAL (R547). -/
def execVccauxRemoval (stby : Bool) (probe : Bool) (s : State) : Out := .next (onDevice (fun s => vccauxOff stby probe s) s)

/-- ISLAND_RESET (R576). -/
def execIslandReset (aux : Bool) (stby : Bool) (probe : Bool) (s : State) : Out := .next (onDevice (fun s => islandReset aux stby probe s) s)

/-- CHECKER_SELF_TEST_COMPLETE (R150). -/
def execCheckerSelfTestComplete (bad : List CheckerFail) (s : State) : Out :=
  if bad.all wfChecker then .next (onDevice (fun s => checkerDone bad s) s) else .fault (.illFormed "CHECKER_SELF_TEST_COMPLETE")

/-- SRAM_FILL_COMPLETE (R151). -/
def execSramFillComplete (screen : List Finding) (s : State) : Out :=
  if screen.all wfFinding then .next (onDevice (fun s => settle (fillComplete screen s)) s) else .fault (.illFormed "SRAM_FILL_COMPLETE")

/-- PUF_RECONSTRUCTION_COMPLETE (R480). -/
def execPufReconstructionComplete (ok : Bool) (s : State) : Out := .next (onDevice (fun s => pufRow ok s) s)

/-- AVSBUS_SETPOINT_ACK (R601). -/
def execAvsbusSetpointAck (die : DieId) (s : State) : Out := .next (onDevice (fun s => avsAck die.val s) s)

/-- AVSBUS_ACK_TIMEOUT (R601). -/
def execAvsbusAckTimeout (die : DieId) (s : State) : Out := .next (onDevice (fun s => avsTimeout die.val s) s)

/-- AVS_SETPOINT_ADJUST (R601). -/
def execAvsSetpointAdjust (die : DieId) (mv : Nat) (s : State) : Out := .next (onDevice (fun s => avsAdjust die.val mv s) s)

/-- LINK_TRAINING_COMPLETE (R352). -/
def execLinkTrainingComplete (found : List LinkTrain) (s : State) : Out :=
  if wfLinkTrains found then .next (onDevice (fun s => linksTrained found s) s) else .fault (.illFormed "LINK_TRAINING_COMPLETE")

/-- START_UP_TRAINING_COMPLETE (R282). -/
def execStartUpTrainingComplete (chans : List ChanTrain) (s : State) : Out :=
  if decide (chans.length = 24) then .next (onDevice (fun s => trainingDone chans s) s) else .fault (.illFormed "START_UP_TRAINING_COMPLETE")

/-- SYS_RESET_N_RELEASE (R604). -/
def execSysResetNRelease (s : State) : Out := .next (onDevice (fun s => sysRelease s) s)

/-- ISLAND_SUPPLY_LOSS (R575). -/
def execIslandSupplyLoss (s : State) : Out := .next (onDevice (fun s => islandLoss s) s)

end Sys2Proof.Machine
end

