-- ==== Sys2Proof/Machine/CmdCell.lean ====
section
/-! DEFINITION. Micro-instructions of the word cell: what each command of the family does. -/
namespace Sys2Proof.Machine
open Sys2Proof

/-- CELL_HOLD (R54). -/
def execCellHold (cell : CellRef) (m : Micro) (s : State) : Out := .next (onDevice (fun s => cellRow 0x00 cell m s) s)

/-- CELL_PASS (R54). -/
def execCellPass (cell : CellRef) (m : Micro) (s : State) : Out := .next (onDevice (fun s => cellRow 0x01 cell m s) s)

/-- CELL_ADD (R54). -/
def execCellAdd (cell : CellRef) (m : Micro) (s : State) : Out := .next (onDevice (fun s => cellRow 0x02 cell m s) s)

/-- CELL_ADDC (R54). -/
def execCellAddc (cell : CellRef) (m : Micro) (s : State) : Out := .next (onDevice (fun s => cellRow 0x03 cell m s) s)

/-- CELL_SUB (R54). -/
def execCellSub (cell : CellRef) (m : Micro) (s : State) : Out := .next (onDevice (fun s => cellRow 0x04 cell m s) s)

/-- CELL_SUBC (R54). -/
def execCellSubc (cell : CellRef) (m : Micro) (s : State) : Out := .next (onDevice (fun s => cellRow 0x05 cell m s) s)

/-- CELL_CMP (R57). -/
def execCellCmp (cell : CellRef) (m : Micro) (s : State) : Out := .next (onDevice (fun s => cellRow 0x06 cell m s) s)

/-- CELL_MULS (R56). -/
def execCellMuls (cell : CellRef) (m : Micro) (s : State) : Out := .next (onDevice (fun s => cellRow 0x07 cell m s) s)

/-- CELL_AND (R54). -/
def execCellAnd (cell : CellRef) (m : Micro) (s : State) : Out := .next (onDevice (fun s => cellRow 0x08 cell m s) s)

/-- CELL_OR (R54). -/
def execCellOr (cell : CellRef) (m : Micro) (s : State) : Out := .next (onDevice (fun s => cellRow 0x09 cell m s) s)

/-- CELL_XOR (R54). -/
def execCellXor (cell : CellRef) (m : Micro) (s : State) : Out := .next (onDevice (fun s => cellRow 0x0A cell m s) s)

/-- CELL_SEL (R55). -/
def execCellSel (cell : CellRef) (m : Micro) (s : State) : Out := .next (onDevice (fun s => cellRow 0x0B cell m s) s)

/-- CELL_SHL (R54). -/
def execCellShl (cell : CellRef) (m : Micro) (s : State) : Out := .next (onDevice (fun s => cellRow 0x0C cell m s) s)

/-- CELL_SHR (R54). -/
def execCellShr (cell : CellRef) (m : Micro) (s : State) : Out := .next (onDevice (fun s => cellRow 0x0D cell m s) s)

/-- CELL_SRA (R54). -/
def execCellSra (cell : CellRef) (m : Micro) (s : State) : Out := .next (onDevice (fun s => cellRow 0x0E cell m s) s)

/-- CELL_ROL (R54). -/
def execCellRol (cell : CellRef) (m : Micro) (s : State) : Out := .next (onDevice (fun s => cellRow 0x0F cell m s) s)

end Sys2Proof.Machine
end

