-- ==== Sys2Proof/Machine/CmdConfig.lean ====
section
/-! DEFINITION. Loading the fabric: what each command of the family does. -/
namespace Sys2Proof.Machine
open Sys2Proof

/-- CFG_BEGIN (R457). -/
def execCfgBegin (inst : Inst) (pkt : Packet) (s : State) : Out := .next (onDevice (fun s => settle (mgmtRun opCfgBegin inst pkt s)) s)

/-- CFG_DATA (R458). -/
def execCfgData (inst : Inst) (pkt : Packet) (s : State) : Out := .next (onDevice (fun s => settle (mgmtRun opCfgData inst pkt s)) s)

/-- SIGNATURE_VERIFY_COMPLETE (R461). -/
def execSignatureVerifyComplete (ses : Fin 4) (s : State) : Out := .next (onDevice (fun s => settle (verifyComplete ses.val s)) s)

/-- CFG_COMMIT (R462). -/
def execCfgCommit (inst : Inst) (pkt : Packet) (s : State) : Out := .next (onDevice (fun s => settle (mgmtRun opCfgCommit inst pkt s)) s)

/-- COMMIT_POINT (R463). -/
def execCommitPoint (ses : Fin 4) (s : State) : Out := .next (onDevice (fun s => settle (commitPoint ses.val s)) s)

/-- CFG_ABORT (R467). -/
def execCfgAbort (inst : Inst) (pkt : Packet) (s : State) : Out := .next (onDevice (fun s => settle (mgmtRun opCfgAbort inst pkt s)) s)

/-- SESSION_IDLE_TIMEOUT (R459). -/
def execSessionIdleTimeout (ses : Fin 4) (s : State) : Out := .next (onDevice (fun s => settle (sesIdle ses.val s)) s)

/-- DONE_HIGH (R465). -/
def execDoneHigh (s : State) : Out := .next (onDevice (fun s => doneHighRow s) s)

/-- INIT_WAIT_EXPIRY (R470). -/
def execInitWaitExpiry (s : State) : Out := .next (onDevice (fun s => initWait s) s)

/-- GOLDEN_LOAD (R472). -/
def execGoldenLoad (inst : Inst) (pkt : Packet) (s : State) : Out := .next (onDevice (fun s => settle (mgmtRun opGoldenLoad inst pkt s)) s)

/-- BED_FALLOW (R473). -/
def execBedFallow (inst : Inst) (pkt : Packet) (s : State) : Out := .next (onDevice (fun s => settle (mgmtRun opBedFallow inst pkt s)) s)

/-- BED_RELEASE (R475). -/
def execBedRelease (inst : Inst) (pkt : Packet) (s : State) : Out := .next (onDevice (fun s => settle (mgmtRun opBedRelease inst pkt s)) s)

/-- READBACK (R476). -/
def execReadback (inst : Inst) (pkt : Packet) (fail : Option Byte) (s : State) : Out := .next (onDevice (fun s => settle (mgmtRun (opReadback fail) inst pkt s)) s)

/-- RECOVERY_FLASH_READ_COMPLETE (R471). -/
def execRecoveryFlashReadComplete (ptr : List Byte) (image : Option (List Byte)) (s : State) : Out :=
  if decide (ptr.length = 64) then .next (onDevice (fun s => settle (flashDone ptr image s)) s) else .fault (.illFormed "RECOVERY_FLASH_READ_COMPLETE")

/-- DONE_LINE_CHANGE (R465). -/
def execDoneLineChange (others : Bool) (s : State) : Out := .next (onDevice (fun s => doneLine others s) s)

end Sys2Proof.Machine
end

