-- ==== Sys2Proof/Machine/CmdCore.lean ====
section
/-! DEFINITION. The life of a Fraelm core: what each command of the family does. -/
namespace Sys2Proof.Machine
open Sys2Proof

/-- CORE_CTL (R192). -/
def execCoreCtl (init : InitId) (core : CoreId) (en : Bool) (s : State) : Out := .next (onDevice (fun s => settle (regRow init (coreOff core.val) 4 (bit en 0) s)) s)

/-- CORE_START_COMPLETE (R192). -/
def execCoreStartComplete (core : CoreId) (s : State) : Out := .next (onDevice (fun s => coreStarted core.val s) s)

/-- CORE_STOP_COMPLETE (R192). -/
def execCoreStopComplete (core : CoreId) (s : State) : Out := .next (onDevice (fun s => resetDue (settle (coreStopped core.val s))) s)

/-- INTERRUPT_ENTRY (R185). -/
def execInterruptEntry (core : CoreId) (s : State) : Out := .next (onDevice (fun s => interruptRow core.val s) s)

/-- WFI_WAKE (R217). -/
def execWfiWake (core : CoreId) (s : State) : Out := .next (onDevice (fun s => wfiWake core.val s) s)

/-- TIMER (R193). -/
def execTimer (core : CoreId) (s : State) : Out := .next (onDevice (fun s => timerRow core.val s) s)

/-- TIMER_LOAD (R193). -/
def execTimerLoad (init : InitId) (core : CoreId) (v : Word32) (s : State) : Out := .next (onDevice (fun s => regRow init (coreOff core.val + 0x24) 4 v.toNat s) s)

/-- WDT_EXPIRY (R195). -/
def execWdtExpiry (core : CoreId) (s : State) : Out := .next (onDevice (fun s => settle (wdtRow core.val s)) s)

/-- WDT_SERVICE (R194). -/
def execWdtService (init : InitId) (core : CoreId) (v : Word32) (s : State) : Out := .next (onDevice (fun s => settle (regRow init (coreOff core.val + 0x3C) 4 v.toNat s)) s)

/-- DOORBELL (R183). -/
def execDoorbell (init : InitId) (core : CoreId) (v : Word16) (s : State) : Out := .next (onDevice (fun s => regRow init (coreOff core.val + 0x18) 4 v.toNat s) s)

/-- STREAM_CTL_CLR (R203). -/
def execStreamCtlClr (init : InitId) (core : CoreId) (enL : Bool) (enU : Bool) (tmo : Word16) (s : State) : Out := .next (onDevice (fun s => regRow init (coreOff core.val + 0x48) 4 (bit enL 0 + bit enU 1 + 4 + place tmo.toNat 16) s) s)

/-- DMA_START (R199). -/
def execDmaStart (init : InitId) (core : CoreId) (ch : Fin 2) (smode : BitVec 3) (irq : Bool) (s : State) : Out := .next (onDevice (fun s => regRow init (coreOff core.val + 0x114 + 0x40 * ch.val) 4 (1 + place smode.toNat 1 + bit irq 4) s) s)

/-- DMA_DONE (R199). -/
def execDmaDone (core : CoreId) (ch : Fin 2) (s : State) : Out := .next (onDevice (fun s => dmaEnd core.val ch.val s) s)

/-- STREAM_STALL_END (R202). -/
def execStreamStallEnd (core : CoreId) (s : State) : Out := .next (onDevice (fun s => streamStallEnd core.val s) s)

/-- STREAM_TMO (R202). -/
def execStreamTmo (core : CoreId) (s : State) : Out := .next (onDevice (fun s => streamTmo core.val s) s)

end Sys2Proof.Machine
end

