-- ==== Sys2Proof/Machine/CmdCxl.lean ====
section
/-! DEFINITION. The CXL port: what each command of the family does. -/
namespace Sys2Proof.Machine
open Sys2Proof

/-- MEMRD (R410). -/
def execMemrd (ld : PlotId) (hpa : Nat) (s : State) : Out := .next (onDevice (fun s => settle (memRd (initFrozen s (cxlInit ld.val)) ld.val hpa s)) s)

/-- MEMWR (R410). -/
def execMemwr (ld : PlotId) (hpa : Nat) (data : List Byte) (s : State) : Out :=
  if decide (data.length = 64) then .next (onDevice (fun s => settle (memWr (initFrozen s (cxlInit ld.val)) ld.val hpa data s)) s) else .fault (.illFormed "MEMWR")

/-- BIRSP (R411). -/
def execBirsp (ld : PlotId) (line : Nat) (dirty : Option (List Byte)) (shared : Bool) (s : State) : Out :=
  if dirty.all (fun d => d.length = 64) then .next (onDevice (fun s => settle (birsp ld.val line dirty shared s)) s) else .fault (.illFormed "BIRSP")

/-- HOST_SNOOP (R413). -/
def execHostSnoop (s : State) : Out := .next (onDevice (fun s => hostSnoop s) s)

/-- PERST_N (R417). -/
def execPerstN (s : State) : Out := .next (onDevice (fun s => settle (portReset s)) s)

/-- HOT_RESET (R417). -/
def execHotReset (s : State) : Out := .next (onDevice (fun s => settle (portReset s)) s)

/-- FUNCTION_LEVEL_RESET (R417). -/
def execFunctionLevelReset (ld : PlotId) (s : State) : Out := .next (onDevice (fun s => settle (functionReset ld.val s)) s)

/-- CXL_RESET (R417). -/
def execCxlReset (ld : PlotId) (s : State) : Out := .next (onDevice (fun s => settle (cxlReset ld.val s)) s)

/-- CXL_LINK_UP (R418). -/
def execCxlLinkUp (speed : BitVec 3) (width : BitVec 5) (port : BitVec 12) (s : State) : Out := .next (onDevice (fun s => cxlLinkUp speed width port s) s)

/-- IDE_CHECK_FAILURE (R332). -/
def execIdeCheckFailure (stream : Fin 6) (s : State) : Out := .next (onDevice (fun s => drainPolicy (ideFails stream.val s)) s)

/-- MSIX_TRIGGER (R416). -/
def execMsixTrigger (init : InitId) (ld : PlotId) (vec : BitVec 7) (s : State) : Out := .next (onDevice (fun s => regRow init (cxlOff + 0x1000 + 4 * ld.val) 4 vec.toNat s) s)

/-- BIND (R414). -/
def execBind (ld : PlotId) (s : State) : Out := .next (onDevice (fun s => bind ld.val true s) s)

/-- UNBIND (R414). -/
def execUnbind (ld : PlotId) (s : State) : Out := .next (onDevice (fun s => settle (bind ld.val false s)) s)

/-- IDENTIFY_MEMORY_DEVICE (R408). -/
def execIdentifyMemoryDevice (ld : PlotId) (s : State) : Out := .next (onDevice (fun s => mailboxCmd ld.val memIdentity s) s)

/-- GET_SUPPORTED_LOGS (R408). -/
def execGetSupportedLogs (ld : PlotId) (s : State) : Out := .next (onDevice (fun s => mailboxCmd ld.val supportedLogs s) s)

/-- GET_LOG (R408). -/
def execGetLog (ld : PlotId) (uuid : List Byte) (off : Nat) (len : Nat) (s : State) : Out :=
  if decide (uuid.length = 16) then .next (onDevice (fun s => getLog ld.val uuid off len s) s) else .fault (.illFormed "GET_LOG")

/-- BACKGROUND_OPERATION_STATUS (R408). -/
def execBackgroundOperationStatus (ld : PlotId) (s : State) : Out := .next (onDevice (fun s => mailboxCmd ld.val backgroundStatus s) s)

/-- GET_MEASUREMENTS (R495). -/
def execGetMeasurements (ld : PlotId) (op : Byte) (s : State) : Out := .next (onDevice (fun s => getMeasurements ld.val op s) s)

/-- GET_CERTIFICATE (R483). -/
def execGetCertificate (ld : PlotId) (slot : Fin 8) (off : Nat) (len : Nat) (s : State) : Out := .next (onDevice (fun s => getCertificate ld.val slot.val off len s) s)

/-- END_SESSION (R427). -/
def execEndSession (inst : Inst) (id : Word32) (s : State) : Out := .next (onDevice (fun s => settle (endSpdm inst id s)) s)

/-- CDAT (R415). -/
def execCdat (ld : PlotId) (s : State) : Out := .next (onDevice (fun s => doeSend ld.val (cdatTable s) s) s)

/-- STAGING_WRITE (R628). -/
def execStagingWrite (ld : PlotId) (off : Nat) (data : List Byte) (s : State) : Out := .next (onDevice (fun s => if s.cxl.linkUp && ioPasses s then settle (stagingWrite ld off data s) else s) s)

/-- CXL_CACHE_RESPONSE (R413). -/
def execCxlCacheResponse (init : InitId) (tag : BitVec 10) (data : List Byte) (s : State) : Out := .next (onDevice (fun s => settle (cacheResponse init tag data s)) s)

/-- CONFIGURATION_SPACE_WRITE (R413). -/
def execConfigurationSpaceWrite (ld : PlotId) (w : CfgSpace) (s : State) : Out := .next (onDevice (fun s => cfgSpaceWrite ld.val w s) s)

/-- IDE_KM (R332). -/
def execIdeKm (ld : PlotId) (stream : Fin 6) (op : IdeOp) (s : State) : Out := .next (onDevice (fun s => ideKm ld.val stream.val op s) s)

/-- CXL_LINK_DOWN (R404). -/
def execCxlLinkDown (narrow : Option (BitVec 5)) (s : State) : Out := .next (onDevice (fun s => cxlLinkDown narrow s) s)

end Sys2Proof.Machine
end

