-- ==== Sys2Proof/Machine/CmdDebug.lean ====
section
/-! DEFINITION. The debug island: what each command of the family does. -/
namespace Sys2Proof.Machine
open Sys2Proof

/-- IDCODE (R579). -/
def execIdcode (s : State) : Out := .next (onDevice (fun s => if islandOn s then tapIdcode s else s) s)

/-- SAMPLE_PRELOAD (R579). -/
def execSamplePreload (cells : Nat) (s : State) : Out := .next (onDevice (fun s => if islandOn s then tapSample cells s else s) s)

/-- EXTEST (R579). -/
def execExtest (cells : Nat) (s : State) : Out := .next (onDevice (fun s => if islandOn s then tapExtest cells s else s) s)

/-- BYPASS (R579). -/
def execBypass (s : State) : Out := .next (onDevice (fun s => if islandOn s then tapBypass s else s) s)

/-- TEST_LOGIC_RESET (R576). -/
def execTestLogicReset (s : State) : Out := .next (onDevice (fun s => if islandOn s then settle (tapReset s) else s) s)

/-- CMD_IO (R580). -/
def execCmdIo (w : Word32) (net : NetIn) (s : State) : Out := .next (onDevice (orWait fun s => if islandOn s then settle (cmdIo w net s) else s) s)

/-- DBG_AUTH (R583). -/
def execDbgAuth (w : Word32) (s : State) : Out := .next (onDevice (fun s => if islandOn s then settle (dbgAuth w s) else s) s)

/-- DEBUG_CERT_VERIFIED (R582). -/
def execDebugCertVerified (s : State) : Out := .next (onDevice (fun s => if islandOn s then certVerified s else s) s)

/-- DEBUG_AUTH_LOCKOUT_END (R583). -/
def execDebugAuthLockoutEnd (s : State) : Out := .next (onDevice (fun s => if islandOn s then lockoutEnd s else s) s)

/-- DBG_ACCESS (R586). -/
def execDbgAccess (op : BitVec 2) (eight : Bool) (addr : BitVec 48) (data : Word64) (s : State) : Out := .next (onDevice (fun s => if islandOn s then dbgAccess op eight addr data s else s) s)

/-- RET_READ (R589). -/
def execRetRead (next : Option (BitVec 13)) (s : State) : Out := .next (onDevice (fun s => if islandOn s then retRow next s else s) s)

/-- HALT_REQ (R590). -/
def execHaltReq (core : CoreId) (on : Bool) (s : State) : Out := .next (onDevice (fun s => if islandOn s then coreCtlBit core.val 0 on s else s) s)

/-- HALT_TAKEN (R590). -/
def execHaltTaken (core : CoreId) (s : State) : Out := .next (onDevice (fun s => haltTakenRow core.val s) s)

/-- LOCK_DEADLINE (R591). -/
def execLockDeadline (core : CoreId) (s : State) : Out := .next (onDevice (fun s => lockDeadline core.val s) s)

/-- RESUME (R592). -/
def execResume (core : CoreId) (s : State) : Out := .next (onDevice (fun s => if islandOn s then coreCtlBit core.val 1 true s else s) s)

/-- STEP (R592). -/
def execStep (core : CoreId) (s : State) : Out := .next (onDevice (fun s => if islandOn s then coreCtlBit core.val 2 true s else s) s)

/-- EXEC (R592). -/
def execExec (core : CoreId) (s : State) : Out := .next (onDevice (fun s => if islandOn s then coreCtlBit core.val 3 true s else s) s)

/-- MON_REQ (R594). -/
def execMonReq (core : CoreId) (on : Bool) (s : State) : Out := .next (onDevice (fun s => if islandOn s then coreCtlBit core.val 4 on s else s) s)

/-- BP0_EN (R592). -/
def execBp0En (core : CoreId) (on : Bool) (s : State) : Out := .next (onDevice (fun s => if islandOn s then coreCtlBit core.val 5 on s else s) s)

/-- BP1_EN (R592). -/
def execBp1En (core : CoreId) (on : Bool) (s : State) : Out := .next (onDevice (fun s => if islandOn s then coreCtlBit core.val 6 on s else s) s)

/-- HALT_CMD (R593). -/
def execHaltCmd (on : Bool) (s : State) : Out := .next (onDevice (fun s => if islandOn s then mgmtCtlBit 0 on s else s) s)

/-- HALT_WARDEN (R593). -/
def execHaltWarden (on : Bool) (s : State) : Out := .next (onDevice (fun s => if islandOn s then mgmtCtlBit 1 on s else s) s)

/-- FREEZE_CFG (R595). -/
def execFreezeCfg (plot : PlotId) (v : BitVec 4) (s : State) : Out := .next (onDevice (fun s => if islandOn s then islandReg (0x10 + 4 * plot.val) v.toNat s else s) s)

end Sys2Proof.Machine
end

