-- ==== Sys2Proof/Machine/CmdFabric.lean ====
section
/-! DEFINITION. Borders, bed clocks, block memories and rakes: what each command of the family does. -/
namespace Sys2Proof.Machine
open Sys2Proof

/-- BOUNDARY_COMPLETE (R113). -/
def execBoundaryComplete (bed : BedId) (s : State) : Out := .next (onDevice (fun s => boundaryRow bed.val s) s)

/-- BED_PAUSE_TAKEN (R102). -/
def execBedPauseTaken (bed : BedId) (fail : Option Byte) (s : State) : Out := .next (onDevice (fun s => settle (bedPauseTaken bed.val fail s)) s)

/-- TOKEN_ARRIVAL (R124). -/
def execTokenArrival (src : ChanEnd) (s : State) : Out := .next (onDevice (fun s => tokenArrival src s) s)

/-- LEVEL_UPDATE_ARRIVAL (R127). -/
def execLevelUpdateArrival (loc : BedEnd) (s : State) : Out := .next (onDevice (fun s => levelArrival loc s) s)

/-- CREDIT_RETURN (R127). -/
def execCreditReturn (loc : BedEnd) (s : State) : Out := .next (onDevice (fun s => creditReturn loc s) s)

/-- BORDER_WAIT_ALARM (R123). -/
def execBorderWaitAlarm (bed : BedId) (s : State) : Out := .next (onDevice (fun s => drainPolicy (waitAlarm bed.val s)) s)

/-- MARGIN_FLAG (R98). -/
def execMarginFlag (bed : BedId) (late : Bool) (s : State) : Out := .next (onDevice (fun s => marginFlag late bed.val s) s)

/-- STRETCH_RECOVER (R98). -/
def execStretchRecover (bed : BedId) (s : State) : Out := .next (onDevice (fun s => stretchRecover bed.val s) s)

/-- STRETCH_SATURATED (R98). -/
def execStretchSaturated (bed : BedId) (s : State) : Out := .next (onDevice (fun s => drainPolicy (stretchSaturated bed.val s)) s)

/-- THROTTLE (R99). -/
def execThrottle (init : InitId) (bed : BedId) (step : BitVec 4) (s : State) : Out := .next (onDevice (fun s => regRow init (bedOff bed.val + 0x12C) 4 step.toNat s) s)

/-- LOCK_LOST (R100). -/
def execLockLost (bed : BedId) (s : State) : Out := .next (onDevice (fun s => lockLost bed.val s) s)

/-- LOCK_REGAINED (R100). -/
def execLockRegained (bed : BedId) (s : State) : Out := .next (onDevice (fun s => lockRegained bed.val s) s)

/-- GENERATOR_LOCK_TIMEOUT (R100). -/
def execGeneratorLockTimeout (bed : BedId) (s : State) : Out := .next (onDevice (fun s => settle (lockTimeout bed.val s)) s)

/-- LINE_CONTENTION (R90). -/
def execLineContention (bed : BedId) (s : State) : Out := .next (onDevice (fun s => drainPolicy (contentionRow bed.val s)) s)

/-- BM_INJECT (R159). -/
def execBmInject (init : InitId) (bed : BedId) (v : Word32) (s : State) : Out := .next (onDevice (fun s => regRow init (bedOff bed.val + 0xB08) 4 v.toNat s) s)

/-- RAKE_WORD_SKIP (R154). -/
def execRakeWordSkip (cls : Fin 7) (idx : Fin 18432) (s : State) : Out := .next (onDevice (fun s => rakeSkip cls.val idx.val s) s)

/-- RAKE_PRIORITY_BOOST (R154). -/
def execRakePriorityBoost (cls : Fin 7) (idx : Fin 18432) (s : State) : Out := .next (onDevice (fun s => rakeSlot cls.val idx.val s) s)

/-- RAKE_PASS_END (R156). -/
def execRakePassEnd (cls : Fin 7) (idx : Fin 18432) (s : State) : Out := .next (onDevice (fun s => settle (rakePassEnd cls.val idx.val s)) s)

/-- BLOCK_MEMORY_PORT_ACCESS (R138). -/
def execBlockMemoryPortAccess (bed : BedId) (mem : Fin 48) (s : State) : Out := .next (onDevice (fun s => memRow bed.val mem.val s) s)

/-- UPSET (R148). -/
def execUpset (hit : Upset) (s : State) : Out :=
  if wfUpset hit then .next (onDevice (fun s => upsetRow hit s) s) else .fault (.illFormed "UPSET")

end Sys2Proof.Machine
end

