-- ==== Sys2Proof/Machine/CmdFault.lean ====
section
/-! DEFINITION. Faults: what each command of the family does. -/
namespace Sys2Proof.Machine
open Sys2Proof

/-- FAULT_READ (R550). -/
def execFaultRead (inst : Inst) (pkt : Packet) (s : State) : Out := .next (onDevice (fun s => settle (mgmtRun opFaultRead inst pkt s)) s)

/-- FAULT_CLEAR (R551). -/
def execFaultClear (inst : Inst) (pkt : Packet) (s : State) : Out := .next (onDevice (fun s => settle (mgmtRun opFaultClear inst pkt s)) s)

/-- ERRPIN_RELEASE (R552). -/
def execErrpinRelease (inst : Inst) (pkt : Packet) (s : State) : Out := .next (onDevice (fun s => settle (mgmtRun opErrpinRelease inst pkt s)) s)

/-- HISTORY_MODE (R553). -/
def execHistoryMode (inst : Inst) (pkt : Packet) (s : State) : Out := .next (onDevice (fun s => settle (mgmtRun opHistoryMode inst pkt s)) s)

/-- FAULT_REPORT (R530). -/
def execFaultReport (loc : CollectorIn) (s : State) : Out := .next (onDevice (fun s => resetDue (faultReport loc s)) s)

/-- FSAFE (R543). -/
def execFsafe (die : DieId) (s : State) : Out := .next (onDevice (fun s => resetDue (fsafeRow die s)) s)

/-- ERR_N_PULSE_END (R548). -/
def execErrNPulseEnd (s : State) : Out := .next (onDevice (fun s => errNEnd s) s)

end Sys2Proof.Machine
end

