-- ==== Sys2Proof/Machine/CmdLane.lean ====
section
/-! DEFINITION. Lanes and port engines: what each command of the family does. -/
namespace Sys2Proof.Machine
open Sys2Proof

/-- LANE_REFRESH (R369). -/
def execLaneRefresh (inst : Inst) (pkt : Packet) (s : State) : Out := .next (onDevice (fun s => settle (mgmtRun opLaneRefresh inst pkt s)) s)

/-- LANE_ENTRIES_FETCHED (R370). -/
def execLaneEntriesFetched (inst : Inst) (net : NetIn) (s : State) : Out := .next (onDevice (orWait fun s => settle (laneEntriesFetched inst net s)) s)

/-- LANE_CALIBRATE (R373). -/
def execLaneCalibrate (inst : Inst) (pkt : Packet) (s : State) : Out := .next (onDevice (fun s => settle (mgmtRun opLaneCalibrate inst pkt s)) s)

/-- LANE_RETIRE (R374). -/
def execLaneRetire (inst : Inst) (pkt : Packet) (s : State) : Out := .next (onDevice (fun s => settle (mgmtRun opLaneRetire inst pkt s)) s)

/-- LANE_CDR (R498). -/
def execLaneCdr (lane : LaneId) (sig : Bool) (s : State) : Out := .next (onDevice (fun s => drainPolicy (cdrLost lane.val sig s)) s)

/-- PCS_LINK_CHANGE (R380). -/
def execPcsLinkChange (engine : EngineId) (sub : Fin 8) (rep : PcsReport) (s : State) : Out := .next (onDevice (fun s => pcsChange engine.val sub.val rep s) s)

/-- SP_CTL (R381). -/
def execSpCtl (init : InitId) (engine : EngineId) (sub : Fin 8) (v : Word32) (s : State) : Out := .next (onDevice (fun s => settle (regRow init (engineOff engine.val + 0x1000 + 0x100 * sub.val) 4 v.toNat s)) s)

/-- TXR_TAIL (R377). -/
def execTxrTail (init : InitId) (engine : EngineId) (sub : Fin 8) (tail : Word16) (s : State) : Out := .next (onDevice (fun s => regRow init (engineOff engine.val + 0x1014 + 0x100 * sub.val) 4 tail.toNat s) s)

/-- RXR_TAIL (R377). -/
def execRxrTail (init : InitId) (engine : EngineId) (sub : Fin 8) (tail : Word16) (s : State) : Out := .next (onDevice (fun s => regRow init (engineOff engine.val + 0x102C + 0x100 * sub.val) 4 tail.toNat s) s)

/-- FRAME_TRANSMITTED (R377). -/
def execFrameTransmitted (engine : EngineId) (sub : Fin 8) (pos : Fin 8) (net : NetIn) (s : State) : Out := .next (onDevice (orWait fun s => settle (frameTransmitted engine.val sub.val pos.val net s)) s)

/-- FRAME_RECEIVE (R378). -/
def execFrameReceive (engine : EngineId) (sub : Fin 8) (pos : Fin 8) (frame : List Byte) (net : NetIn) (s : State) : Out := .next (onDevice (orWait fun s => settle (frameReceive engine.val sub.val pos.val frame net s)) s)

/-- CDR_LOCK_ACQUIRED (R362). -/
def execCdrLockAcquired (lane : LaneId) (s : State) : Out := .next (onDevice (fun s => cdrLocked lane.val s) s)

/-- PRBS_LOCK_CHANGE (R362). -/
def execPrbsLockChange (lane : LaneId) (on : Bool) (errs : Word32) (s : State) : Out := .next (onDevice (fun s => prbsChange lane.val on errs s) s)

end Sys2Proof.Machine
end

