-- ==== Sys2Proof/Machine/CmdLink.lean ====
section
/-! DEFINITION. Die links: what each command of the family does. -/
namespace Sys2Proof.Machine
open Sys2Proof

/-- FRAME_RECEIVED (R340). -/
def execFrameReceived (link : LinkId) (dir : Fin 2) (strand : Fin 16) (flip : BitVec 256) (seqFlip : Byte) (s : State) : Out :=
  if wfStrand link strand then .next (onDevice (fun s => frameReceived link.val dir.val strand.val flip seqFlip s) s) else .fault (.illFormed "FRAME_RECEIVED")

/-- REPLAY_TIMEOUT (R341). -/
def execReplayTimeout (link : LinkId) (dir : Fin 2) (strand : Fin 16) (s : State) : Out :=
  if wfStrand link strand then .next (onDevice (fun s => replayTimeout link.val dir.val strand.val s) s) else .fault (.illFormed "REPLAY_TIMEOUT")

/-- ACK_DUE (R340). -/
def execAckDue (link : LinkId) (dir : Fin 2) (strand : Fin 16) (s : State) : Out :=
  if wfStrand link strand then .next (onDevice (fun s => ackDue link.val dir.val strand.val s) s) else .fault (.illFormed "ACK_DUE")

/-- IDLE (R338). -/
def execIdle (link : LinkId) (dir : Fin 2) (msg : SbMsg) (s : State) : Out := .next (onDevice (fun s => idleMsg link.val dir.val msg s) s)

/-- ACK (R341). -/
def execAck (link : LinkId) (dir : Fin 2) (msg : SbMsg) (s : State) : Out := .next (onDevice (fun s => ackMsg link.val dir.val msg s) s)

/-- NAK (R341). -/
def execNak (link : LinkId) (dir : Fin 2) (msg : SbMsg) (s : State) : Out := .next (onDevice (fun s => nakMsg link.val dir.val msg s) s)

/-- CAP (R352). -/
def execCap (link : LinkId) (dir : Fin 2) (msg : SbMsg) (s : State) : Out := .next (onDevice (fun s => capMsg link.val dir.val msg s) s)

/-- TEST (R347). -/
def execTest (link : LinkId) (dir : Fin 2) (msg : SbMsg) (s : State) : Out := .next (onDevice (fun s => testMsg link.val dir.val msg s) s)

/-- GRAFT (R347). -/
def execGraft (link : LinkId) (dir : Fin 2) (msg : SbMsg) (s : State) : Out := .next (onDevice (fun s => graftMsg link.val dir.val msg s) s)

/-- RETIRE (R348). -/
def execRetire (link : LinkId) (dir : Fin 2) (msg : SbMsg) (s : State) : Out := .next (onDevice (fun s => retireMsg link.val dir.val msg s) s)

/-- MAINTENANCE_WINDOW (R345). -/
def execMaintenanceWindow (link : LinkId) (wires : List WireRef) (groups : List (Fin 4)) (s : State) : Out := .next (onDevice (fun s => drainPolicy (maintenance link.val wires (groups.map (·.val)) s)) s)

/-- WIRE_TEST_COMPLETE (R346). -/
def execWireTestComplete (link : LinkId) (dir : Fin 2) (strand : Fin 16) (wires : List (Fin 36)) (s : State) : Out :=
  if wfStrand link strand then .next (onDevice (fun s => wireTestDone link.val dir.val strand.val (wires.map (·.val)) s) s) else .fault (.illFormed "WIRE_TEST_COMPLETE")

/-- GRAFT_COMPLETE (R347). -/
def execGraftComplete (link : LinkId) (dir : Fin 2) (strand : Fin 16) (s : State) : Out :=
  if wfStrand link strand then .next (onDevice (fun s => graftDone link.val dir.val strand.val s) s) else .fault (.illFormed "GRAFT_COMPLETE")

/-- LINK_STATUS (R357). -/
def execLinkStatus (inst : Inst) (pkt : Packet) (s : State) : Out := .next (onDevice (fun s => settle (mgmtRun opLinkStatus inst pkt s)) s)

end Sys2Proof.Machine
end

