-- ==== Sys2Proof/Machine/CmdLoadStore.lean ====
section
/-! DEFINITION. Load and store syllables: what each command of the family does. -/
namespace Sys2Proof.Machine
open Sys2Proof

/-- LDB (R215). -/
def execLdb (core : CoreId) (grd : BitVec 5) (r : BitVec 6) (an : BitVec 4) (upd : BitVec 2) (ofs : BitVec 9) (s : State) : Out := .next (onDevice (fun s => issueRow core 2 (lmWord grd 0x01 r an upd ofs) s) s)

/-- LDBU (R215). -/
def execLdbu (core : CoreId) (grd : BitVec 5) (r : BitVec 6) (an : BitVec 4) (upd : BitVec 2) (ofs : BitVec 9) (s : State) : Out := .next (onDevice (fun s => issueRow core 2 (lmWord grd 0x02 r an upd ofs) s) s)

/-- LDH (R215). -/
def execLdh (core : CoreId) (grd : BitVec 5) (r : BitVec 6) (an : BitVec 4) (upd : BitVec 2) (ofs : BitVec 9) (s : State) : Out := .next (onDevice (fun s => issueRow core 2 (lmWord grd 0x03 r an upd ofs) s) s)

/-- LDHU (R215). -/
def execLdhu (core : CoreId) (grd : BitVec 5) (r : BitVec 6) (an : BitVec 4) (upd : BitVec 2) (ofs : BitVec 9) (s : State) : Out := .next (onDevice (fun s => issueRow core 2 (lmWord grd 0x04 r an upd ofs) s) s)

/-- LDW (R215). -/
def execLdw (core : CoreId) (grd : BitVec 5) (r : BitVec 6) (an : BitVec 4) (upd : BitVec 2) (ofs : BitVec 9) (s : State) : Out := .next (onDevice (fun s => issueRow core 2 (lmWord grd 0x05 r an upd ofs) s) s)

/-- LDD (R215). -/
def execLdd (core : CoreId) (grd : BitVec 5) (r : BitVec 6) (an : BitVec 4) (upd : BitVec 2) (ofs : BitVec 9) (s : State) : Out := .next (onDevice (fun s => issueRow core 2 (lmWord grd 0x06 r an upd ofs) s) s)

/-- LDQ (R215). -/
def execLdq (core : CoreId) (grd : BitVec 5) (r : BitVec 6) (an : BitVec 4) (upd : BitVec 2) (ofs : BitVec 9) (s : State) : Out := .next (onDevice (fun s => issueRow core 2 (lmWord grd 0x07 r an upd ofs) s) s)

/-- VLD (R215). -/
def execVld (core : CoreId) (grd : BitVec 5) (r : BitVec 6) (an : BitVec 4) (upd : BitVec 2) (ofs : BitVec 9) (s : State) : Out := .next (onDevice (fun s => issueRow core 2 (lmWord grd 0x08 r an upd ofs) s) s)

/-- STB (R215). -/
def execStb (core : CoreId) (grd : BitVec 5) (r : BitVec 6) (an : BitVec 4) (upd : BitVec 2) (ofs : BitVec 9) (s : State) : Out := .next (onDevice (fun s => issueRow core 2 (lmWord grd 0x09 r an upd ofs) s) s)

/-- STH (R215). -/
def execSth (core : CoreId) (grd : BitVec 5) (r : BitVec 6) (an : BitVec 4) (upd : BitVec 2) (ofs : BitVec 9) (s : State) : Out := .next (onDevice (fun s => issueRow core 2 (lmWord grd 0x0A r an upd ofs) s) s)

/-- STW (R215). -/
def execStw (core : CoreId) (grd : BitVec 5) (r : BitVec 6) (an : BitVec 4) (upd : BitVec 2) (ofs : BitVec 9) (s : State) : Out := .next (onDevice (fun s => issueRow core 2 (lmWord grd 0x0B r an upd ofs) s) s)

/-- STD (R215). -/
def execStd (core : CoreId) (grd : BitVec 5) (r : BitVec 6) (an : BitVec 4) (upd : BitVec 2) (ofs : BitVec 9) (s : State) : Out := .next (onDevice (fun s => issueRow core 2 (lmWord grd 0x0C r an upd ofs) s) s)

/-- STQ (R215). -/
def execStq (core : CoreId) (grd : BitVec 5) (r : BitVec 6) (an : BitVec 4) (upd : BitVec 2) (ofs : BitVec 9) (s : State) : Out := .next (onDevice (fun s => issueRow core 2 (lmWord grd 0x0D r an upd ofs) s) s)

/-- VST (R215). -/
def execVst (core : CoreId) (grd : BitVec 5) (r : BitVec 6) (an : BitVec 4) (upd : BitVec 2) (ofs : BitVec 9) (s : State) : Out := .next (onDevice (fun s => issueRow core 2 (lmWord grd 0x0E r an upd ofs) s) s)

/-- LDX_W (R216). -/
def execLdxW (core : CoreId) (grd : BitVec 5) (sd : BitVec 5) (sa : BitVec 5) (pd : BitVec 4) (s : State) : Out := .next (onDevice (fun s => issueRow core 2 (lxWord grd 0x0F sd sa pd) s) s)

/-- LDX_D (R216). -/
def execLdxD (core : CoreId) (grd : BitVec 5) (sd : BitVec 5) (sa : BitVec 5) (pd : BitVec 4) (s : State) : Out := .next (onDevice (fun s => issueRow core 2 (lxWord grd 0x10 sd sa pd) s) s)

/-- STX_W (R216). -/
def execStxW (core : CoreId) (grd : BitVec 5) (sd : BitVec 5) (sa : BitVec 5) (pd : BitVec 4) (s : State) : Out := .next (onDevice (fun s => issueRow core 2 (lxWord grd 0x11 sd sa pd) s) s)

/-- STX_D (R216). -/
def execStxD (core : CoreId) (grd : BitVec 5) (sd : BitVec 5) (sa : BitVec 5) (pd : BitVec 4) (s : State) : Out := .next (onDevice (fun s => issueRow core 2 (lxWord grd 0x12 sd sa pd) s) s)

end Sys2Proof.Machine
end

