-- ==== Sys2Proof/Machine/CmdMemory.lean ====
section
/-! DEFINITION. LPDDR6 and its protection: what each command of the family does. -/
namespace Sys2Proof.Machine
open Sys2Proof

/-- DRAM_READ_COMPLETE (R290). -/
def execDramReadComplete (ch : ChanId) (b0 b1 : Burst) (w0 w1 : Option (List Byte)) (s : State) : Out :=
  if wfAltered w0 && wfAltered w1 then .next (onDevice (fun s => settle (drainPolicy (dramRead ch.val b0 b1 w0 w1 s))) s) else .fault (.illFormed "DRAM_READ_COMPLETE")

/-- WR_AGE_EXPIRY (R280). -/
def execWrAgeExpiry (ch : ChanId) (s : State) : Out := .next (onDevice (fun s => wrAgeExpiry ch.val s) s)

/-- REFRESH_RATE_POLL (R281). -/
def execRefreshRatePoll (ch : ChanId) (rates : Byte × Byte) (high : BitVec 2) (s : State) : Out := .next (onDevice (fun s => drainPolicy (ratePoll ch.val rates.1 rates.2 high s)) s)

/-- PERIODIC_RETRAINING (R282). -/
def execPeriodicRetraining (ch : ChanId) (s : State) : Out := .next (onDevice (fun s => retrainDue ch.val s) s)

/-- RETRAINING_COMPLETE (R283). -/
def execRetrainingComplete (ch : ChanId) (eye : Option Word16) (s : State) : Out := .next (onDevice (fun s => settle (retrainDone ch.val eye s)) s)

/-- MEM_SELFREFRESH_ENTER (R286). -/
def execMemSelfrefreshEnter (inst : Inst) (pkt : Packet) (s : State) : Out :=
  if decide (pkt.payload.getD 4 0 ≠ 1) then .next (onDevice (fun s => settle (mgmtRun opSelfRefresh inst pkt s)) s) else .fault (.illFormed "MEM_SELFREFRESH_ENTER")

/-- MEM_SELFREFRESH_EXIT (R287). -/
def execMemSelfrefreshExit (inst : Inst) (pkt : Packet) (s : State) : Out :=
  if decide (pkt.payload.getD 4 0 = 1) then .next (onDevice (fun s => settle (mgmtRun opSelfRefresh inst pkt s)) s) else .fault (.illFormed "MEM_SELFREFRESH_EXIT")

/-- SELF_REFRESH_ENTRY_COMPLETE (R286). -/
def execSelfRefreshEntryComplete (s : State) : Out := .next (onDevice (fun s => settle (srEntered s)) s)

/-- SELF_REFRESH_EXIT_COMPLETE (R287). -/
def execSelfRefreshExitComplete (found : Retrained) (s : State) : Out := .next (onDevice (fun s => settle (srExited found.ch.val found.eye s)) s)

/-- MAP_SET (R275). -/
def execMapSet (inst : Inst) (pkt : Packet) (s : State) : Out := .next (onDevice (fun s => settle (mgmtRun opMapSet inst pkt s)) s)

/-- REGION_INIT (R322). -/
def execRegionInit (inst : Inst) (pkt : Packet) (s : State) : Out := .next (onDevice (fun s => settle (mgmtRun opRegionInit inst pkt s)) s)

/-- REGION_FILL_COMPLETE (R324). -/
def execRegionFillComplete (tiller : Fin 4) (s : State) : Out := .next (onDevice (fun s => settle (fillDone tiller.val s)) s)

/-- KEY_ROTATE (R325). -/
def execKeyRotate (inst : Inst) (pkt : Packet) (s : State) : Out := .next (onDevice (fun s => settle (mgmtRun opKeyRotate inst pkt s)) s)

/-- TILLER_RENEWAL_COMPLETE (R327). -/
def execTillerRenewalComplete (tiller : Fin 4) (page : Nat) (s : State) : Out := .next (onDevice (fun s => settle (drainPolicy (renewalComplete tiller.val page s))) s)

/-- TILLER_RENEWAL_START (R327). -/
def execTillerRenewalStart (tiller : Fin 4) (s : State) : Out := .next (onDevice (fun s => settle (renewalStart tiller.val s)) s)

/-- KEY_RETIRE (R329). -/
def execKeyRetire (inst : Inst) (pkt : Packet) (s : State) : Out := .next (onDevice (fun s => settle (mgmtRun opKeyRetire inst pkt s)) s)

/-- KEY_RETIRE_COMPLETE (R330). -/
def execKeyRetireComplete (key : Byte) (region : RegionId) (s : State) : Out := .next (onDevice (fun s => settle (retireDone key.toNat region.val s)) s)

/-- REFRESH_DUE (R281). -/
def execRefreshDue (ch : ChanId) (rank : Fin 2) (bank : Fin 16) (s : State) : Out := .next (onDevice (fun s => refreshDue ch.val rank.val bank.val s) s)

end Sys2Proof.Machine
end

