-- ==== Sys2Proof/Machine/CmdMgmt.lean ====
section
/-! DEFINITION. Command transports and device commands: what each command of the family does. -/
namespace Sys2Proof.Machine
open Sys2Proof

/-- RAKE (R152). -/
def execRake (inst : Inst) (pkt : Packet) (s : State) : Out := .next (onDevice (fun s => settle (mgmtRun opRake inst pkt s)) s)

/-- CMD (R455). -/
def execCmd (inst : Inst) (cnt : BitVec 24) (words : List Word32) (net : NetIn) (s : State) : Out := .next (onDevice (orWait fun s => settle (cmdRow inst cnt.toNat words net s)) s)

/-- REPLY (R455). -/
def execReply (inst : Inst) (cnt : BitVec 24) (s : State) : Out := .next (onDevice (fun s => replyRow inst cnt.toNat s) s)

/-- STREAM (R455). -/
def execStream (inst : Inst) (words : List Word32) (s : State) : Out := .next (onDevice (fun s => settle (streamRow inst words s)) s)

/-- PSTAT (R455). -/
def execPstat (inst : Inst) (s : State) : Out := .next (onDevice (fun s => pstatRow inst s) s)

/-- CMD_PACKET_TIMEOUT (R434). -/
def execCmdPacketTimeout (inst : Inst) (s : State) : Out := .next (onDevice (fun s => packetTimeoutRow inst s) s)

/-- FABRIC_PORT_POLL (R424). -/
def execFabricPortPoll (plot : PlotId) (net : NetIn) (s : State) : Out := .next (onDevice (orWait fun s => settle (fabricPoll plot net s)) s)

/-- IDENTIFY (R440). -/
def execIdentify (inst : Inst) (pkt : Packet) (s : State) : Out := .next (onDevice (fun s => settle (mgmtRun opIdentify inst pkt s)) s)

/-- GET_STATUS (R441). -/
def execGetStatus (inst : Inst) (pkt : Packet) (s : State) : Out := .next (onDevice (fun s => settle (mgmtRun opGetStatus inst pkt s)) s)

/-- SHUTDOWN (R442). -/
def execShutdown (inst : Inst) (pkt : Packet) (s : State) : Out := .next (onDevice (fun s => settle (mgmtRun opShutdown inst pkt s)) s)

/-- PLOT_RESET (R443). -/
def execPlotReset (inst : Inst) (pkt : Packet) (s : State) : Out := .next (onDevice (fun s => settle (mgmtRun opPlotReset inst pkt s)) s)

/-- SESSION_OPEN (R425). -/
def execSessionOpen (inst : Inst) (pkt : Packet) (s : State) : Out := .next (onDevice (fun s => settle (mgmtRun opSessionOpen inst pkt s)) s)

/-- SESSION_CLOSE (R427). -/
def execSessionClose (inst : Inst) (pkt : Packet) (s : State) : Out := .next (onDevice (fun s => settle (mgmtRun opSessionClose inst pkt s)) s)

end Sys2Proof.Machine
end

