-- ==== Sys2Proof/Machine/CmdScalar.lean ====
section
/-! DEFINITION. Scalar and control syllables: what each command of the family does. -/
namespace Sys2Proof.Machine
open Sys2Proof

/-- ADD (R217). -/
def execAdd (core : CoreId) (grd : BitVec 5) (d : BitVec 5) (a : BitVec 5) (b : BitVec 5) (s : State) : Out := .next (onDevice (fun s => issueRow core 3 (srWord grd 0x01 d a b) s) s)

/-- SUB (R217). -/
def execSub (core : CoreId) (grd : BitVec 5) (d : BitVec 5) (a : BitVec 5) (b : BitVec 5) (s : State) : Out := .next (onDevice (fun s => issueRow core 3 (srWord grd 0x02 d a b) s) s)

/-- AND (R217). -/
def execAnd (core : CoreId) (grd : BitVec 5) (d : BitVec 5) (a : BitVec 5) (b : BitVec 5) (s : State) : Out := .next (onDevice (fun s => issueRow core 3 (srWord grd 0x03 d a b) s) s)

/-- OR (R217). -/
def execOr (core : CoreId) (grd : BitVec 5) (d : BitVec 5) (a : BitVec 5) (b : BitVec 5) (s : State) : Out := .next (onDevice (fun s => issueRow core 3 (srWord grd 0x04 d a b) s) s)

/-- XOR (R217). -/
def execXor (core : CoreId) (grd : BitVec 5) (d : BitVec 5) (a : BitVec 5) (b : BitVec 5) (s : State) : Out := .next (onDevice (fun s => issueRow core 3 (srWord grd 0x05 d a b) s) s)

/-- SHL (R217). -/
def execShl (core : CoreId) (grd : BitVec 5) (d : BitVec 5) (a : BitVec 5) (b : BitVec 5) (s : State) : Out := .next (onDevice (fun s => issueRow core 3 (srWord grd 0x06 d a b) s) s)

/-- SHR (R217). -/
def execShr (core : CoreId) (grd : BitVec 5) (d : BitVec 5) (a : BitVec 5) (b : BitVec 5) (s : State) : Out := .next (onDevice (fun s => issueRow core 3 (srWord grd 0x07 d a b) s) s)

/-- SRA (R217). -/
def execSra (core : CoreId) (grd : BitVec 5) (d : BitVec 5) (a : BitVec 5) (b : BitVec 5) (s : State) : Out := .next (onDevice (fun s => issueRow core 3 (srWord grd 0x08 d a b) s) s)

/-- MUL (R217). -/
def execMul (core : CoreId) (grd : BitVec 5) (d : BitVec 5) (a : BitVec 5) (b : BitVec 5) (s : State) : Out := .next (onDevice (fun s => issueRow core 3 (srWord grd 0x09 d a b) s) s)

/-- MULH (R217). -/
def execMulh (core : CoreId) (grd : BitVec 5) (d : BitVec 5) (a : BitVec 5) (b : BitVec 5) (s : State) : Out := .next (onDevice (fun s => issueRow core 3 (srWord grd 0x0A d a b) s) s)

/-- MIN (R217). -/
def execMin (core : CoreId) (grd : BitVec 5) (d : BitVec 5) (a : BitVec 5) (b : BitVec 5) (s : State) : Out := .next (onDevice (fun s => issueRow core 3 (srWord grd 0x0B d a b) s) s)

/-- MAX (R217). -/
def execMax (core : CoreId) (grd : BitVec 5) (d : BitVec 5) (a : BitVec 5) (b : BitVec 5) (s : State) : Out := .next (onDevice (fun s => issueRow core 3 (srWord grd 0x0C d a b) s) s)

/-- ADDI (R217). -/
def execAddi (core : CoreId) (grd : BitVec 5) (d : BitVec 5) (a : BitVec 5) (imm : BitVec 11) (s : State) : Out := .next (onDevice (fun s => issueRow core 3 (siWord grd 0x10 d a imm) s) s)

/-- ANDI (R217). -/
def execAndi (core : CoreId) (grd : BitVec 5) (d : BitVec 5) (a : BitVec 5) (imm : BitVec 11) (s : State) : Out := .next (onDevice (fun s => issueRow core 3 (siWord grd 0x11 d a imm) s) s)

/-- ORI (R217). -/
def execOri (core : CoreId) (grd : BitVec 5) (d : BitVec 5) (a : BitVec 5) (imm : BitVec 11) (s : State) : Out := .next (onDevice (fun s => issueRow core 3 (siWord grd 0x12 d a imm) s) s)

/-- XORI (R217). -/
def execXori (core : CoreId) (grd : BitVec 5) (d : BitVec 5) (a : BitVec 5) (imm : BitVec 11) (s : State) : Out := .next (onDevice (fun s => issueRow core 3 (siWord grd 0x13 d a imm) s) s)

/-- SHLI (R217). -/
def execShli (core : CoreId) (grd : BitVec 5) (d : BitVec 5) (a : BitVec 5) (imm : BitVec 11) (s : State) : Out := .next (onDevice (fun s => issueRow core 3 (siWord grd 0x14 d a imm) s) s)

/-- SHRI (R217). -/
def execShri (core : CoreId) (grd : BitVec 5) (d : BitVec 5) (a : BitVec 5) (imm : BitVec 11) (s : State) : Out := .next (onDevice (fun s => issueRow core 3 (siWord grd 0x15 d a imm) s) s)

/-- SRAI (R217). -/
def execSrai (core : CoreId) (grd : BitVec 5) (d : BitVec 5) (a : BitVec 5) (imm : BitVec 11) (s : State) : Out := .next (onDevice (fun s => issueRow core 3 (siWord grd 0x16 d a imm) s) s)

/-- SRRI (R217). -/
def execSrri (core : CoreId) (grd : BitVec 5) (d : BitVec 5) (a : BitVec 5) (imm : BitVec 11) (s : State) : Out := .next (onDevice (fun s => issueRow core 3 (siWord grd 0x17 d a imm) s) s)

/-- MOVIL (R217). -/
def execMovil (core : CoreId) (grd : BitVec 5) (d : BitVec 5) (imm : BitVec 16) (s : State) : Out := .next (onDevice (fun s => issueRow core 3 (swWord grd 0x18 d imm) s) s)

/-- MOVIH (R217). -/
def execMovih (core : CoreId) (grd : BitVec 5) (d : BitVec 5) (imm : BitVec 16) (s : State) : Out := .next (onDevice (fun s => issueRow core 3 (swWord grd 0x19 d imm) s) s)

/-- MOVX (R218). -/
def execMovx (core : CoreId) (grd : BitVec 5) (d : BitVec 5) (df : BitVec 3) (src : BitVec 5) (sf : BitVec 3) (s : State) : Out := .next (onDevice (fun s => issueRow core 3 (sxWord grd d df src sf) s) s)

/-- VGET (R217). -/
def execVget (core : CoreId) (grd : BitVec 5) (d : BitVec 5) (v : BitVec 6) (lane : BitVec 4) (s : State) : Out := .next (onDevice (fun s => issueRow core 3 (svWord grd d v lane) s) s)

/-- CMPEQ (R217). -/
def execCmpeq (core : CoreId) (grd : BitVec 5) (pd : BitVec 4) (a : BitVec 5) (b : BitVec 5) (s : State) : Out := .next (onDevice (fun s => issueRow core 3 (cmpWord grd 0x20 pd a b) s) s)

/-- CMPLT (R217). -/
def execCmplt (core : CoreId) (grd : BitVec 5) (pd : BitVec 4) (a : BitVec 5) (b : BitVec 5) (s : State) : Out := .next (onDevice (fun s => issueRow core 3 (cmpWord grd 0x21 pd a b) s) s)

/-- CMPLTU (R217). -/
def execCmpltu (core : CoreId) (grd : BitVec 5) (pd : BitVec 4) (a : BitVec 5) (b : BitVec 5) (s : State) : Out := .next (onDevice (fun s => issueRow core 3 (cmpWord grd 0x22 pd a b) s) s)

/-- CMPLE (R217). -/
def execCmple (core : CoreId) (grd : BitVec 5) (pd : BitVec 4) (a : BitVec 5) (b : BitVec 5) (s : State) : Out := .next (onDevice (fun s => issueRow core 3 (cmpWord grd 0x23 pd a b) s) s)

/-- PAND (R217). -/
def execPand (core : CoreId) (grd : BitVec 5) (pd : BitVec 4) (pa : BitVec 4) (pb : BitVec 4) (s : State) : Out := .next (onDevice (fun s => issueRow core 3 (spWord grd 0x24 pd pa pb) s) s)

/-- POR (R217). -/
def execPor (core : CoreId) (grd : BitVec 5) (pd : BitVec 4) (pa : BitVec 4) (pb : BitVec 4) (s : State) : Out := .next (onDevice (fun s => issueRow core 3 (spWord grd 0x25 pd pa pb) s) s)

/-- PANDN (R217). -/
def execPandn (core : CoreId) (grd : BitVec 5) (pd : BitVec 4) (pa : BitVec 4) (pb : BitVec 4) (s : State) : Out := .next (onDevice (fun s => issueRow core 3 (spWord grd 0x26 pd pa pb) s) s)

/-- PSET (R217). -/
def execPset (core : CoreId) (grd : BitVec 5) (pd : BitVec 4) (s : State) : Out := .next (onDevice (fun s => issueRow core 3 (spWord grd 0x27 pd 0 0) s) s)

/-- PCLR (R217). -/
def execPclr (core : CoreId) (grd : BitVec 5) (pd : BitVec 4) (s : State) : Out := .next (onDevice (fun s => issueRow core 3 (spWord grd 0x28 pd 0 0) s) s)

/-- BR (R219). -/
def execBr (core : CoreId) (grd : BitVec 5) (tgt : BitVec 12) (s : State) : Out := .next (onDevice (fun s => issueRow core 3 (sbWord grd 0x30 tgt) s) s)

/-- BRR (R219). -/
def execBrr (core : CoreId) (grd : BitVec 5) (a : BitVec 5) (s : State) : Out := .next (onDevice (fun s => issueRow core 3 (sbrWord grd 0x31 a) s) s)

/-- CALL (R217). -/
def execCall (core : CoreId) (grd : BitVec 5) (tgt : BitVec 12) (s : State) : Out := .next (onDevice (fun s => issueRow core 3 (sbWord grd 0x32 tgt) s) s)

/-- CALLR (R217). -/
def execCallr (core : CoreId) (grd : BitVec 5) (a : BitVec 5) (s : State) : Out := .next (onDevice (fun s => issueRow core 3 (sbrWord grd 0x33 a) s) s)

/-- RET (R217). -/
def execRet (core : CoreId) (grd : BitVec 5) (s : State) : Out := .next (onDevice (fun s => issueRow core 3 (sbWord grd 0x34 0) s) s)

/-- RETI (R188). -/
def execReti (core : CoreId) (grd : BitVec 5) (s : State) : Out := .next (onDevice (fun s => issueRow core 3 (sbWord grd 0x35 0) s) s)

/-- LOOP (R222). -/
def execLoop (core : CoreId) (grd : BitVec 5) (l : BitVec 1) (im : BitVec 1) (cnt : BitVec 7) (tgt : BitVec 12) (s : State) : Out := .next (onDevice (fun s => issueRow core 3 (slWord grd 0x36 l im cnt tgt) s) s)

/-- LOOPE (R225). -/
def execLoope (core : CoreId) (grd : BitVec 5) (l : BitVec 1) (i : BitVec 1) (cnt : BitVec 7) (tgt : BitVec 12) (s : State) : Out := .next (onDevice (fun s => issueRow core 3 (slWord grd 0x37 l i cnt tgt) s) s)

/-- RPT (R227). -/
def execRpt (core : CoreId) (grd : BitVec 5) (i : BitVec 1) (x : BitVec 16) (s : State) : Out := .next (onDevice (fun s => issueRow core 3 (skWord grd 0x38 i x) s) s)

/-- LOCK (R220). -/
def execLock (core : CoreId) (grd : BitVec 5) (i : BitVec 1) (x : BitVec 16) (s : State) : Out := .next (onDevice (fun s => issueRow core 3 (skWord grd 0x39 i x) s) s)

/-- SWI (R217). -/
def execSwi (core : CoreId) (grd : BitVec 5) (s : State) : Out := .next (onDevice (fun s => issueRow core 3 (sbWord grd 0x3A 0) s) s)

/-- TRAP (R189). -/
def execTrap (core : CoreId) (grd : BitVec 5) (s : State) : Out := .next (onDevice (fun s => issueRow core 3 (sbWord grd 0x3B 0) s) s)

/-- WFI (R217). -/
def execWfi (core : CoreId) (grd : BitVec 5) (s : State) : Out := .next (onDevice (fun s => issueRow core 3 (sbWord grd 0x3C 0) s) s)

/-- BRN (R217). -/
def execBrn (core : CoreId) (grd : BitVec 5) (tgt : BitVec 12) (s : State) : Out := .next (onDevice (fun s => issueRow core 3 (sbWord grd 0x3D tgt) s) s)

end Sys2Proof.Machine
end

