-- ==== Sys2Proof/Machine/CmdSensor.lean ====
section
/-! DEFINITION. Sensors, supplies and the SMBus: what each command of the family does. -/
namespace Sys2Proof.Machine
open Sys2Proof

/-- TAMPER (R498). -/
def execTamper (s : State) : Out := .next (onDevice (fun s => eventRow 0x05 0 s) s)

/-- MESH (R498). -/
def execMesh (s : State) : Out := .next (onDevice (fun s => eventRow 0x04 0 s) s)

/-- VGLITCH (R498). -/
def execVglitch (die : Fin 9) (s : State) : Out := .next (onDevice (fun s => eventRow 0x01 die.val s) s)

/-- CLKMON (R498). -/
def execClkmon (die : Fin 9) (s : State) : Out := .next (onDevice (fun s => eventRow 0x02 die.val s) s)

/-- TEMP (R498). -/
def execTemp (sensor : Fin 144) (v : BitVec 12) (s : State) : Out := .next (onDevice (fun s => tempRow sensor.val v.toInt s) s)

/-- OVERTEMPERATURE (R618). -/
def execOvertemperature (sensor : Fin 144) (s : State) : Out := .next (onDevice (fun s => overTemp sensor.val s) s)

/-- SUPPLY_FAULT (R600). -/
def execSupplyFault (rail : Fin 29) (s : State) : Out := .next (onDevice (fun s => supplyFault rail.val s) s)

/-- SMBUS_READ_WORD (R619). -/
def execSmbusReadWord (cmd : Byte) (s : State) : Out := .next (onDevice (fun s => smbusRead cmd.toNat s) s)

end Sys2Proof.Machine
end

