-- ==== Sys2Proof/Machine/CmdShell.lean ====
section
/-! DEFINITION. Digital shells and register accesses: what each command of the family does. -/
namespace Sys2Proof.Machine
open Sys2Proof

/-- SHELL_CTL_WRITE (R37). -/
def execShellCtlWrite (init : InitId) (id : ShellId) (v : Word32) (s : State) : Out := .next (onDevice (fun s => settle (shellRow init id 0 v.toNat s)) s)

/-- CAL_START (R39). -/
def execCalStart (init : InitId) (id : ShellId) (kind : BitVec 3) (cont : Bool) (s : State) : Out := .next (onDevice (fun s => settle (shellRow init id 4 (calStartWord kind cont) s)) s)

/-- CALIBRATION_COMPLETE (R39). -/
def execCalibrationComplete (id : ShellId) (pass : Bool) (lat : Word32) (eye : BitVec 24) (s : State) : Out := .next (onDevice (fun s => settle (calComplete id pass lat eye s)) s)

/-- SHELL_START_COMPLETE (R37). -/
def execShellStartComplete (id : ShellId) (found : Bool) (v : BitVec 24) (s : State) : Out := .next (onDevice (fun s => settle (startComplete id found v s)) s)

/-- SHELL_STOP_COMPLETE (R37). -/
def execShellStopComplete (id : ShellId) (s : State) : Out := .next (onDevice (fun s => resetDue (settle (stopComplete id s))) s)

/-- SHELL_MACRO_FAULT (R40). -/
def execShellMacroFault (id : ShellId) (s : State) : Out := .next (onDevice (fun s => resetDue (settle (macroFaultRow id s))) s)

/-- SHELL_MEASUREMENT (R36). -/
def execShellMeasurement (id : ShellId) (v : BitVec 24) (s : State) : Out := .next (onDevice (fun s => measurement id v s) s)

/-- CSR_WRITE (R9). -/
def execCsrWrite (acc : CsrAcc) (s : State) : Out := .next (onDevice (fun s => settle (csrAccWrite acc s)) s)

/-- HALF_READ (R10). -/
def execHalfRead (init : InitId) (addr : BitVec 48) (s : State) : Out := .next (onDevice (fun s => csrAccRead { init, addr, size := 4, data := 0 } s) s)

/-- TB_NOW_READ (R403). -/
def execTbNowRead (init : InitId) (tb : TbId) (whole : Bool) (s : State) : Out := .next (onDevice (fun s => csrAccRead (tbNowAcc init tb whole) s) s)

end Sys2Proof.Machine
end

