-- ==== Sys2Proof/Machine/CmdTime.lean ====
section
/-! DEFINITION. Time bases: what each command of the family does. -/
namespace Sys2Proof.Machine
open Sys2Proof

/-- TIME (R395). -/
def execTime (die : DieId) (msg : SbMsg) (s : State) : Out := .next (onDevice (fun s => timeRow die.val msg s) s)

/-- TB_SET (R389). -/
def execTbSet (inst : Inst) (pkt : Packet) (s : State) : Out := .next (onDevice (fun s => settle (mgmtRun opTbSet inst pkt s)) s)

/-- TB_ADJUST (R390). -/
def execTbAdjust (inst : Inst) (pkt : Packet) (s : State) : Out := .next (onDevice (fun s => settle (mgmtRun opTbAdjust inst pkt s)) s)

/-- TB_ROUTE (R393). -/
def execTbRoute (inst : Inst) (pkt : Packet) (s : State) : Out := .next (onDevice (fun s => settle (mgmtRun opTbRoute inst pkt s)) s)

/-- START_AT (R402). -/
def execStartAt (inst : Inst) (pkt : Packet) (s : State) : Out := .next (onDevice (fun s => settle (mgmtRun opStartAt inst pkt s)) s)

/-- START_AT_FIRE (R466). -/
def execStartAtFire (s : State) : Out := .next (onDevice (fun s => settle (startFire s)) s)

/-- RADJ_CHANGE (R396). -/
def execRadjChange (tb : TbId) (s : State) : Out := .next (onDevice (fun s => radjApply tb.val false s) s)

/-- TIME_BROADCAST (R394). -/
def execTimeBroadcast (ms : Bool) (s : State) : Out := .next (onDevice (fun s => broadcast ms s) s)

/-- HOLDOVER (R395). -/
def execHoldover (die : DieId) (src : Fin 9) (s : State) : Out := .next (onDevice (fun s => holdover die.val src.val s) s)

/-- TIME_PPS_IN (R388). -/
def execTimePpsIn (pin : Fin 2) (s : State) : Out := .next (onDevice (fun s => ppsIn pin.val s) s)

/-- PPS_EDGE_TIMEOUT (R388). -/
def execPpsEdgeTimeout (tb : TbId) (s : State) : Out := .next (onDevice (fun s => ppsTimeout tb.val s) s)

/-- TIME_PPS_OUT (R400). -/
def execTimePpsOut (pin : Fin 2) (s : State) : Out := .next (onDevice (fun s => ppsOut pin.val s) s)

/-- TIME_FREQ_IN (R400). -/
def execTimeFreqIn (cls : Fin 4) (s : State) : Out := .next (onDevice (fun s => freqIn cls.val s) s)

/-- SLEW_END (R396). -/
def execSlewEnd (tb : TbId) (s : State) : Out := .next (onDevice (fun s => radjApply tb.val true s) s)

/-- PPS_PULSE_END (R400). -/
def execPpsPulseEnd (pin : Fin 2) (s : State) : Out := .next (onDevice (fun s => ppsEnd pin.val s) s)

end Sys2Proof.Machine
end

