-- ==== Sys2Proof/Machine/CmdTrellis.lean ====
section
/-! DEFINITION. Requests, responses and events of the Trellis: what each command of the family does. -/
namespace Sys2Proof.Machine
open Sys2Proof

/-- READ (R243). -/
def execRead (req : TrlReq) (s : State) : Out := .next (onDevice (fun s => requestRow .read .xload req s) s)

/-- WRITE (R243). -/
def execWrite (req : TrlReq) (s : State) : Out := .next (onDevice (fun s => requestRow .write .xload req s) s)

/-- PWRITE (R247). -/
def execPwrite (req : TrlReq) (s : State) : Out := .next (onDevice (fun s => requestRow .pwrite .xload req s) s)

/-- XLOAD (R245). -/
def execXload (req : TrlReq) (s : State) : Out := .next (onDevice (fun s => requestRow .atomic .xload req s) s)

/-- XSTORE (R245). -/
def execXstore (req : TrlReq) (s : State) : Out := .next (onDevice (fun s => requestRow .atomic .xstore req s) s)

/-- FETCH_ADD (R245). -/
def execFetchAdd (req : TrlReq) (s : State) : Out := .next (onDevice (fun s => requestRow .atomic .fetchAdd req s) s)

/-- SWAP (R245). -/
def execSwap (req : TrlReq) (s : State) : Out := .next (onDevice (fun s => requestRow .atomic .swap req s) s)

/-- CAS (R245). -/
def execCas (req : TrlReq) (s : State) : Out := .next (onDevice (fun s => requestRow .atomic .cas req s) s)

/-- TRELLIS_RESPONSE (R254). -/
def execTrellisResponse (key : RspKey) (user : Option UserLogic) (s : State) : Out := .next (onDevice (fun s => trellisResponse key user s) s)

/-- BRIDGE_FORWARD (R236). -/
def execBridgeForward (site : Site) (response : Bool) (key : RspKey) (s : State) : Out := .next (onDevice (fun s => bridgeForward site response key s) s)

/-- INIT_TMO (R253). -/
def execInitTmo (init : InitId) (tag : BitVec 10) (s : State) : Out := .next (onDevice (fun s => initTmo init tag.toNat s) s)

/-- TAINT_EXPIRY (R255). -/
def execTaintExpiry (init : InitId) (tag : BitVec 10) (s : State) : Out := .next (onDevice (fun s => taintOut init tag.toNat s) s)

/-- PACKET_AGE_DISCARD (R248). -/
def execPacketAgeDiscard (s : State) : Out := .next (onDevice (fun s => settle (ageDiscard s)) s)

/-- PROMOTE (R250). -/
def execPromote (init : InitId) (s : State) : Out := .next (onDevice (fun s => promote init s) s)

/-- STARVE_MARK (R252). -/
def execStarveMark (init : InitId) (ring : Fin 8) (s : State) : Out := .next (onDevice (fun s => starveMark init ring s) s)

/-- ST_CTL_CLR (R262). -/
def execStCtlClr (init : InitId) (owner : InitId) (freeze : Bool) (s : State) : Out := .next (onDevice (fun s => regRow init (winOff owner + 0x80) 4 (1 + bit freeze 1) s) s)

end Sys2Proof.Machine
end

