-- ==== Sys2Proof/Machine/CmdTrust.lean ====
section
/-! DEFINITION. Plots, keys, policy and the lifecycle: what each command of the family does. -/
namespace Sys2Proof.Machine
open Sys2Proof

/-- ATTEST_GET (R496). -/
def execAttestGet (inst : Inst) (pkt : Packet) (s : State) : Out := .next (onDevice (fun s => settle (mgmtRun opAttestGet inst pkt s)) s)

/-- PLOT_CREATE (R489). -/
def execPlotCreate (inst : Inst) (pkt : Packet) (s : State) : Out := .next (onDevice (fun s => settle (mgmtRun opPlotCreate inst pkt s)) s)

/-- PLOT_DESTROY (R494). -/
def execPlotDestroy (inst : Inst) (pkt : Packet) (s : State) : Out := .next (onDevice (fun s => settle (mgmtRun opPlotDestroy inst pkt s)) s)

/-- KEY_INSTALL (R492). -/
def execKeyInstall (inst : Inst) (pkt : Packet) (s : State) : Out := .next (onDevice (fun s => settle (mgmtRun opKeyInstall inst pkt s)) s)

/-- POLICY_LOAD (R507). -/
def execPolicyLoad (inst : Inst) (pkt : Packet) (net : NetIn) (s : State) : Out := .next (onDevice (orWait fun s => settle (mgmtRun (opPolicyLoad net) inst pkt s)) s)

/-- LIFECYCLE_ADVANCE (R485). -/
def execLifecycleAdvance (inst : Inst) (pkt : Packet) (s : State) : Out := .next (onDevice (fun s => settle (mgmtRun opLifecycle inst pkt s)) s)

end Sys2Proof.Machine
end

