-- ==== Sys2Proof/Machine/CmdVector.lean ====
section
/-! DEFINITION. Vector syllables: what each command of the family does. -/
namespace Sys2Proof.Machine
open Sys2Proof

/-- NOP (R206). -/
def execNop (core : CoreId) (slot : Fin 4) (s : State) : Out := .next (onDevice (fun s => issueRow core slot 0 s) s)

/-- VMOV (R213). -/
def execVmov (core : CoreId) (vx1 : Bool) (grd : BitVec 5) (vd : BitVec 6) (va : BitVec 6) (vb : BitVec 6) (t : BitVec 3) (s : State) : Out := .next (onDevice (fun s => issueRow core (vxSlot vx1) (vxWord grd 0x01 vd va vb t) s) s)

/-- VBCST (R213). -/
def execVbcst (core : CoreId) (vx1 : Bool) (grd : BitVec 5) (vd : BitVec 6) (va : BitVec 6) (vb : BitVec 6) (t : BitVec 3) (s : State) : Out := .next (onDevice (fun s => issueRow core (vxSlot vx1) (vxWord grd 0x02 vd va vb t) s) s)

/-- VSEL (R213). -/
def execVsel (core : CoreId) (vx1 : Bool) (grd : BitVec 5) (vd : BitVec 6) (va : BitVec 6) (vb : BitVec 6) (t : BitVec 3) (s : State) : Out := .next (onDevice (fun s => issueRow core (vxSlot vx1) (vxWord grd 0x03 vd va vb t) s) s)

/-- VAND (R213). -/
def execVand (core : CoreId) (vx1 : Bool) (grd : BitVec 5) (vd : BitVec 6) (va : BitVec 6) (vb : BitVec 6) (t : BitVec 3) (s : State) : Out := .next (onDevice (fun s => issueRow core (vxSlot vx1) (vxWord grd 0x04 vd va vb t) s) s)

/-- VOR (R213). -/
def execVor (core : CoreId) (vx1 : Bool) (grd : BitVec 5) (vd : BitVec 6) (va : BitVec 6) (vb : BitVec 6) (t : BitVec 3) (s : State) : Out := .next (onDevice (fun s => issueRow core (vxSlot vx1) (vxWord grd 0x05 vd va vb t) s) s)

/-- VXOR (R213). -/
def execVxor (core : CoreId) (vx1 : Bool) (grd : BitVec 5) (vd : BitVec 6) (va : BitVec 6) (vb : BitVec 6) (t : BitVec 3) (s : State) : Out := .next (onDevice (fun s => issueRow core (vxSlot vx1) (vxWord grd 0x06 vd va vb t) s) s)

/-- VANDN (R213). -/
def execVandn (core : CoreId) (vx1 : Bool) (grd : BitVec 5) (vd : BitVec 6) (va : BitVec 6) (vb : BitVec 6) (t : BitVec 3) (s : State) : Out := .next (onDevice (fun s => issueRow core (vxSlot vx1) (vxWord grd 0x07 vd va vb t) s) s)

/-- VADD (R213). -/
def execVadd (core : CoreId) (vx1 : Bool) (grd : BitVec 5) (vd : BitVec 6) (va : BitVec 6) (vb : BitVec 6) (t : BitVec 3) (s : State) : Out := .next (onDevice (fun s => issueRow core (vxSlot vx1) (vxWord grd 0x08 vd va vb t) s) s)

/-- VSUB (R213). -/
def execVsub (core : CoreId) (vx1 : Bool) (grd : BitVec 5) (vd : BitVec 6) (va : BitVec 6) (vb : BitVec 6) (t : BitVec 3) (s : State) : Out := .next (onDevice (fun s => issueRow core (vxSlot vx1) (vxWord grd 0x09 vd va vb t) s) s)

/-- VADDS (R213). -/
def execVadds (core : CoreId) (vx1 : Bool) (grd : BitVec 5) (vd : BitVec 6) (va : BitVec 6) (vb : BitVec 6) (t : BitVec 3) (s : State) : Out := .next (onDevice (fun s => issueRow core (vxSlot vx1) (vxWord grd 0x0A vd va vb t) s) s)

/-- VSUBS (R213). -/
def execVsubs (core : CoreId) (vx1 : Bool) (grd : BitVec 5) (vd : BitVec 6) (va : BitVec 6) (vb : BitVec 6) (t : BitVec 3) (s : State) : Out := .next (onDevice (fun s => issueRow core (vxSlot vx1) (vxWord grd 0x0B vd va vb t) s) s)

/-- VMIN (R213). -/
def execVmin (core : CoreId) (vx1 : Bool) (grd : BitVec 5) (vd : BitVec 6) (va : BitVec 6) (vb : BitVec 6) (t : BitVec 3) (s : State) : Out := .next (onDevice (fun s => issueRow core (vxSlot vx1) (vxWord grd 0x0C vd va vb t) s) s)

/-- VMAX (R213). -/
def execVmax (core : CoreId) (vx1 : Bool) (grd : BitVec 5) (vd : BitVec 6) (va : BitVec 6) (vb : BitVec 6) (t : BitVec 3) (s : State) : Out := .next (onDevice (fun s => issueRow core (vxSlot vx1) (vxWord grd 0x0D vd va vb t) s) s)

/-- VABS (R213). -/
def execVabs (core : CoreId) (vx1 : Bool) (grd : BitVec 5) (vd : BitVec 6) (va : BitVec 6) (vb : BitVec 6) (t : BitVec 3) (s : State) : Out := .next (onDevice (fun s => issueRow core (vxSlot vx1) (vxWord grd 0x0E vd va vb t) s) s)

/-- VNEG (R213). -/
def execVneg (core : CoreId) (vx1 : Bool) (grd : BitVec 5) (vd : BitVec 6) (va : BitVec 6) (vb : BitVec 6) (t : BitVec 3) (s : State) : Out := .next (onDevice (fun s => issueRow core (vxSlot vx1) (vxWord grd 0x0F vd va vb t) s) s)

/-- VSHL (R213). -/
def execVshl (core : CoreId) (vx1 : Bool) (grd : BitVec 5) (vd : BitVec 6) (va : BitVec 6) (imm : BitVec 6) (t : BitVec 3) (s : State) : Out := .next (onDevice (fun s => issueRow core (vxSlot vx1) (vxWord grd 0x10 vd va imm t) s) s)

/-- VSHR (R213). -/
def execVshr (core : CoreId) (vx1 : Bool) (grd : BitVec 5) (vd : BitVec 6) (va : BitVec 6) (imm : BitVec 6) (t : BitVec 3) (s : State) : Out := .next (onDevice (fun s => issueRow core (vxSlot vx1) (vxWord grd 0x11 vd va imm t) s) s)

/-- VSRA (R213). -/
def execVsra (core : CoreId) (vx1 : Bool) (grd : BitVec 5) (vd : BitVec 6) (va : BitVec 6) (imm : BitVec 6) (t : BitVec 3) (s : State) : Out := .next (onDevice (fun s => issueRow core (vxSlot vx1) (vxWord grd 0x12 vd va imm t) s) s)

/-- VSHRR (R213). -/
def execVshrr (core : CoreId) (vx1 : Bool) (grd : BitVec 5) (vd : BitVec 6) (va : BitVec 6) (imm : BitVec 6) (t : BitVec 3) (s : State) : Out := .next (onDevice (fun s => issueRow core (vxSlot vx1) (vxWord grd 0x13 vd va imm t) s) s)

/-- VCMPEQ (R213). -/
def execVcmpeq (core : CoreId) (vx1 : Bool) (grd : BitVec 5) (vd : BitVec 6) (va : BitVec 6) (vb : BitVec 6) (t : BitVec 3) (s : State) : Out := .next (onDevice (fun s => issueRow core (vxSlot vx1) (vxWord grd 0x14 vd va vb t) s) s)

/-- VCMPLT (R213). -/
def execVcmplt (core : CoreId) (vx1 : Bool) (grd : BitVec 5) (vd : BitVec 6) (va : BitVec 6) (vb : BitVec 6) (t : BitVec 3) (s : State) : Out := .next (onDevice (fun s => issueRow core (vxSlot vx1) (vxWord grd 0x15 vd va vb t) s) s)

/-- VCMPLE (R213). -/
def execVcmple (core : CoreId) (vx1 : Bool) (grd : BitVec 5) (vd : BitVec 6) (va : BitVec 6) (vb : BitVec 6) (t : BitVec 3) (s : State) : Out := .next (onDevice (fun s => issueRow core (vxSlot vx1) (vxWord grd 0x16 vd va vb t) s) s)

/-- VCMPLTU (R213). -/
def execVcmpltu (core : CoreId) (vx1 : Bool) (grd : BitVec 5) (vd : BitVec 6) (va : BitVec 6) (vb : BitVec 6) (t : BitVec 3) (s : State) : Out := .next (onDevice (fun s => issueRow core (vxSlot vx1) (vxWord grd 0x17 vd va vb t) s) s)

/-- VZIPL (R213). -/
def execVzipl (core : CoreId) (vx1 : Bool) (grd : BitVec 5) (vd : BitVec 6) (va : BitVec 6) (vb : BitVec 6) (t : BitVec 3) (s : State) : Out := .next (onDevice (fun s => issueRow core (vxSlot vx1) (vxWord grd 0x18 vd va vb t) s) s)

/-- VZIPH (R213). -/
def execVziph (core : CoreId) (vx1 : Bool) (grd : BitVec 5) (vd : BitVec 6) (va : BitVec 6) (vb : BitVec 6) (t : BitVec 3) (s : State) : Out := .next (onDevice (fun s => issueRow core (vxSlot vx1) (vxWord grd 0x19 vd va vb t) s) s)

/-- VUZPE (R213). -/
def execVuzpe (core : CoreId) (vx1 : Bool) (grd : BitVec 5) (vd : BitVec 6) (va : BitVec 6) (vb : BitVec 6) (t : BitVec 3) (s : State) : Out := .next (onDevice (fun s => issueRow core (vxSlot vx1) (vxWord grd 0x1A vd va vb t) s) s)

/-- VUZPO (R213). -/
def execVuzpo (core : CoreId) (vx1 : Bool) (grd : BitVec 5) (vd : BitVec 6) (va : BitVec 6) (vb : BitVec 6) (t : BitVec 3) (s : State) : Out := .next (onDevice (fun s => issueRow core (vxSlot vx1) (vxWord grd 0x1B vd va vb t) s) s)

/-- VCJ (R213). -/
def execVcj (core : CoreId) (vx1 : Bool) (grd : BitVec 5) (vd : BitVec 6) (va : BitVec 6) (imm : BitVec 6) (t : BitVec 3) (s : State) : Out := .next (onDevice (fun s => issueRow core (vxSlot vx1) (vxWord grd 0x1C vd va imm t) s) s)

/-- VCONJ (R213). -/
def execVconj (core : CoreId) (vx1 : Bool) (grd : BitVec 5) (vd : BitVec 6) (va : BitVec 6) (vb : BitVec 6) (t : BitVec 3) (s : State) : Out := .next (onDevice (fun s => issueRow core (vxSlot vx1) (vxWord grd 0x1D vd va vb t) s) s)

/-- VCVT (R213). -/
def execVcvt (core : CoreId) (vx1 : Bool) (grd : BitVec 5) (vd : BitVec 6) (va : BitVec 6) (imm : BitVec 6) (t : BitVec 3) (s : State) : Out := .next (onDevice (fun s => issueRow core (vxSlot vx1) (vxWord grd 0x1E vd va imm t) s) s)

/-- VFMA (R213). -/
def execVfma (core : CoreId) (vx1 : Bool) (grd : BitVec 5) (vd : BitVec 6) (va : BitVec 6) (vb : BitVec 6) (t : BitVec 3) (s : State) : Out := .next (onDevice (fun s => issueRow core (vxSlot vx1) (vxWord grd 0x1F vd va vb t) s) s)

/-- VFMS (R213). -/
def execVfms (core : CoreId) (vx1 : Bool) (grd : BitVec 5) (vd : BitVec 6) (va : BitVec 6) (vb : BitVec 6) (t : BitVec 3) (s : State) : Out := .next (onDevice (fun s => issueRow core (vxSlot vx1) (vxWord grd 0x20 vd va vb t) s) s)

/-- VFMUL (R213). -/
def execVfmul (core : CoreId) (vx1 : Bool) (grd : BitVec 5) (vd : BitVec 6) (va : BitVec 6) (vb : BitVec 6) (t : BitVec 3) (s : State) : Out := .next (onDevice (fun s => issueRow core (vxSlot vx1) (vxWord grd 0x21 vd va vb t) s) s)

/-- VMUL (R213). -/
def execVmul (core : CoreId) (vx1 : Bool) (grd : BitVec 5) (vd : BitVec 6) (va : BitVec 6) (vb : BitVec 6) (t : BitVec 3) (s : State) : Out := .next (onDevice (fun s => issueRow core (vxSlot vx1) (vxWord grd 0x22 vd va vb t) s) s)

/-- VMAC (R214). -/
def execVmac (core : CoreId) (vx1 : Bool) (grd : BitVec 5) (vd : BitVec 6) (va : BitVec 6) (vb : BitVec 6) (t : BitVec 3) (s : State) : Out := .next (onDevice (fun s => issueRow core (vxSlot vx1) (vxWord grd 0x23 vd va vb t) s) s)

/-- VMSU (R214). -/
def execVmsu (core : CoreId) (vx1 : Bool) (grd : BitVec 5) (vd : BitVec 6) (va : BitVec 6) (vb : BitVec 6) (t : BitVec 3) (s : State) : Out := .next (onDevice (fun s => issueRow core (vxSlot vx1) (vxWord grd 0x24 vd va vb t) s) s)

/-- VCMUL (R213). -/
def execVcmul (core : CoreId) (vx1 : Bool) (grd : BitVec 5) (vd : BitVec 6) (va : BitVec 6) (vb : BitVec 6) (t : BitVec 3) (s : State) : Out := .next (onDevice (fun s => issueRow core (vxSlot vx1) (vxWord grd 0x25 vd va vb t) s) s)

/-- VCMAC (R213). -/
def execVcmac (core : CoreId) (vx1 : Bool) (grd : BitVec 5) (vd : BitVec 6) (va : BitVec 6) (vb : BitVec 6) (t : BitVec 3) (s : State) : Out := .next (onDevice (fun s => issueRow core (vxSlot vx1) (vxWord grd 0x26 vd va vb t) s) s)

/-- VCMACJ (R213). -/
def execVcmacj (core : CoreId) (vx1 : Bool) (grd : BitVec 5) (vd : BitVec 6) (va : BitVec 6) (vb : BitVec 6) (t : BitVec 3) (s : State) : Out := .next (onDevice (fun s => issueRow core (vxSlot vx1) (vxWord grd 0x27 vd va vb t) s) s)

/-- VSRS (R213). -/
def execVsrs (core : CoreId) (vx1 : Bool) (grd : BitVec 5) (vd : BitVec 6) (va : BitVec 6) (imm : BitVec 6) (t : BitVec 3) (s : State) : Out := .next (onDevice (fun s => issueRow core (vxSlot vx1) (vxWord grd 0x28 vd va imm t) s) s)

/-- VACSET (R213). -/
def execVacset (core : CoreId) (vx1 : Bool) (grd : BitVec 5) (vd : BitVec 6) (va : BitVec 6) (imm : BitVec 6) (t : BitVec 3) (s : State) : Out := .next (onDevice (fun s => issueRow core (vxSlot vx1) (vxWord grd 0x29 vd va imm t) s) s)

/-- VACZ (R213). -/
def execVacz (core : CoreId) (vx1 : Bool) (grd : BitVec 5) (vd : BitVec 6) (va : BitVec 6) (vb : BitVec 6) (t : BitVec 3) (s : State) : Out := .next (onDevice (fun s => issueRow core (vxSlot vx1) (vxWord grd 0x2A vd va vb t) s) s)

end Sys2Proof.Machine
end

