-- ==== Sys2Proof/Machine/Dispatch.lean ====
section
/-! DEFINITION. The dispatch: every command to its meaning. -/
namespace Sys2Proof.Machine
open Sys2Proof

def exec (i : Instr) (s : State) : Host.Outcome State Fault Refusal :=
  match i with
  | .porN mode xref => Sys2Proof.Machine.execPorN mode xref s
  | .sysResetN xref => Sys2Proof.Machine.execSysResetN xref s
  | .autoReset => Sys2Proof.Machine.execAutoReset s
  | .vccauxRemoval stby probe => Sys2Proof.Machine.execVccauxRemoval stby probe s
  | .islandReset aux stby probe => Sys2Proof.Machine.execIslandReset aux stby probe s
  | .checkerSelfTestComplete bad => Sys2Proof.Machine.execCheckerSelfTestComplete bad s
  | .sramFillComplete screen => Sys2Proof.Machine.execSramFillComplete screen s
  | .pufReconstructionComplete ok => Sys2Proof.Machine.execPufReconstructionComplete ok s
  | .avsbusSetpointAck die => Sys2Proof.Machine.execAvsbusSetpointAck die s
  | .avsbusAckTimeout die => Sys2Proof.Machine.execAvsbusAckTimeout die s
  | .avsSetpointAdjust die mv => Sys2Proof.Machine.execAvsSetpointAdjust die mv s
  | .linkTrainingComplete found => Sys2Proof.Machine.execLinkTrainingComplete found s
  | .startUpTrainingComplete chans => Sys2Proof.Machine.execStartUpTrainingComplete chans s
  | .shellCtlWrite init id v => Sys2Proof.Machine.execShellCtlWrite init id v s
  | .calStart init id kind cont => Sys2Proof.Machine.execCalStart init id kind cont s
  | .calibrationComplete id pass lat eye => Sys2Proof.Machine.execCalibrationComplete id pass lat eye s
  | .shellStartComplete id found v => Sys2Proof.Machine.execShellStartComplete id found v s
  | .shellStopComplete id => Sys2Proof.Machine.execShellStopComplete id s
  | .shellMacroFault id => Sys2Proof.Machine.execShellMacroFault id s
  | .shellMeasurement id v => Sys2Proof.Machine.execShellMeasurement id v s
  | .csrWrite acc => Sys2Proof.Machine.execCsrWrite acc s
  | .halfRead init addr => Sys2Proof.Machine.execHalfRead init addr s
  | .tbNowRead init tb whole => Sys2Proof.Machine.execTbNowRead init tb whole s
  | .cellHold cell m => Sys2Proof.Machine.execCellHold cell m s
  | .cellPass cell m => Sys2Proof.Machine.execCellPass cell m s
  | .cellAdd cell m => Sys2Proof.Machine.execCellAdd cell m s
  | .cellAddc cell m => Sys2Proof.Machine.execCellAddc cell m s
  | .cellSub cell m => Sys2Proof.Machine.execCellSub cell m s
  | .cellSubc cell m => Sys2Proof.Machine.execCellSubc cell m s
  | .cellCmp cell m => Sys2Proof.Machine.execCellCmp cell m s
  | .cellMuls cell m => Sys2Proof.Machine.execCellMuls cell m s
  | .cellAnd cell m => Sys2Proof.Machine.execCellAnd cell m s
  | .cellOr cell m => Sys2Proof.Machine.execCellOr cell m s
  | .cellXor cell m => Sys2Proof.Machine.execCellXor cell m s
  | .cellSel cell m => Sys2Proof.Machine.execCellSel cell m s
  | .cellShl cell m => Sys2Proof.Machine.execCellShl cell m s
  | .cellShr cell m => Sys2Proof.Machine.execCellShr cell m s
  | .cellSra cell m => Sys2Proof.Machine.execCellSra cell m s
  | .cellRol cell m => Sys2Proof.Machine.execCellRol cell m s
  | .boundaryComplete bed => Sys2Proof.Machine.execBoundaryComplete bed s
  | .bedPauseTaken bed fail => Sys2Proof.Machine.execBedPauseTaken bed fail s
  | .tokenArrival src => Sys2Proof.Machine.execTokenArrival src s
  | .levelUpdateArrival loc => Sys2Proof.Machine.execLevelUpdateArrival loc s
  | .creditReturn loc => Sys2Proof.Machine.execCreditReturn loc s
  | .borderWaitAlarm bed => Sys2Proof.Machine.execBorderWaitAlarm bed s
  | .marginFlag bed late => Sys2Proof.Machine.execMarginFlag bed late s
  | .stretchRecover bed => Sys2Proof.Machine.execStretchRecover bed s
  | .stretchSaturated bed => Sys2Proof.Machine.execStretchSaturated bed s
  | .throttle init bed step => Sys2Proof.Machine.execThrottle init bed step s
  | .lockLost bed => Sys2Proof.Machine.execLockLost bed s
  | .lockRegained bed => Sys2Proof.Machine.execLockRegained bed s
  | .generatorLockTimeout bed => Sys2Proof.Machine.execGeneratorLockTimeout bed s
  | .lineContention bed => Sys2Proof.Machine.execLineContention bed s
  | .bmInject init bed v => Sys2Proof.Machine.execBmInject init bed v s
  | .rake inst pkt => Sys2Proof.Machine.execRake inst pkt s
  | .rakeWordSkip cls idx => Sys2Proof.Machine.execRakeWordSkip cls idx s
  | .rakePriorityBoost cls idx => Sys2Proof.Machine.execRakePriorityBoost cls idx s
  | .rakePassEnd cls idx => Sys2Proof.Machine.execRakePassEnd cls idx s
  | .coreCtl init core en => Sys2Proof.Machine.execCoreCtl init core en s
  | .coreStartComplete core => Sys2Proof.Machine.execCoreStartComplete core s
  | .coreStopComplete core => Sys2Proof.Machine.execCoreStopComplete core s
  | .interruptEntry core => Sys2Proof.Machine.execInterruptEntry core s
  | .wfiWake core => Sys2Proof.Machine.execWfiWake core s
  | .timer core => Sys2Proof.Machine.execTimer core s
  | .timerLoad init core v => Sys2Proof.Machine.execTimerLoad init core v s
  | .wdtExpiry core => Sys2Proof.Machine.execWdtExpiry core s
  | .wdtService init core v => Sys2Proof.Machine.execWdtService init core v s
  | .doorbell init core v => Sys2Proof.Machine.execDoorbell init core v s
  | .streamCtlClr init core enL enU tmo => Sys2Proof.Machine.execStreamCtlClr init core enL enU tmo s
  | .dmaStart init core ch smode irq => Sys2Proof.Machine.execDmaStart init core ch smode irq s
  | .dmaDone core ch => Sys2Proof.Machine.execDmaDone core ch s
  | .streamStallEnd core => Sys2Proof.Machine.execStreamStallEnd core s
  | .streamTmo core => Sys2Proof.Machine.execStreamTmo core s
  | .nop core slot => Sys2Proof.Machine.execNop core slot s
  | .vmov core vx1 grd vd va vb t => Sys2Proof.Machine.execVmov core vx1 grd vd va vb t s
  | .vbcst core vx1 grd vd va vb t => Sys2Proof.Machine.execVbcst core vx1 grd vd va vb t s
  | .vsel core vx1 grd vd va vb t => Sys2Proof.Machine.execVsel core vx1 grd vd va vb t s
  | .vand core vx1 grd vd va vb t => Sys2Proof.Machine.execVand core vx1 grd vd va vb t s
  | .vor core vx1 grd vd va vb t => Sys2Proof.Machine.execVor core vx1 grd vd va vb t s
  | .vxor core vx1 grd vd va vb t => Sys2Proof.Machine.execVxor core vx1 grd vd va vb t s
  | .vandn core vx1 grd vd va vb t => Sys2Proof.Machine.execVandn core vx1 grd vd va vb t s
  | .vadd core vx1 grd vd va vb t => Sys2Proof.Machine.execVadd core vx1 grd vd va vb t s
  | .vsub core vx1 grd vd va vb t => Sys2Proof.Machine.execVsub core vx1 grd vd va vb t s
  | .vadds core vx1 grd vd va vb t => Sys2Proof.Machine.execVadds core vx1 grd vd va vb t s
  | .vsubs core vx1 grd vd va vb t => Sys2Proof.Machine.execVsubs core vx1 grd vd va vb t s
  | .vmin core vx1 grd vd va vb t => Sys2Proof.Machine.execVmin core vx1 grd vd va vb t s
  | .vmax core vx1 grd vd va vb t => Sys2Proof.Machine.execVmax core vx1 grd vd va vb t s
  | .vabs core vx1 grd vd va vb t => Sys2Proof.Machine.execVabs core vx1 grd vd va vb t s
  | .vneg core vx1 grd vd va vb t => Sys2Proof.Machine.execVneg core vx1 grd vd va vb t s
  | .vshl core vx1 grd vd va imm t => Sys2Proof.Machine.execVshl core vx1 grd vd va imm t s
  | .vshr core vx1 grd vd va imm t => Sys2Proof.Machine.execVshr core vx1 grd vd va imm t s
  | .vsra core vx1 grd vd va imm t => Sys2Proof.Machine.execVsra core vx1 grd vd va imm t s
  | .vshrr core vx1 grd vd va imm t => Sys2Proof.Machine.execVshrr core vx1 grd vd va imm t s
  | .vcmpeq core vx1 grd vd va vb t => Sys2Proof.Machine.execVcmpeq core vx1 grd vd va vb t s
  | .vcmplt core vx1 grd vd va vb t => Sys2Proof.Machine.execVcmplt core vx1 grd vd va vb t s
  | .vcmple core vx1 grd vd va vb t => Sys2Proof.Machine.execVcmple core vx1 grd vd va vb t s
  | .vcmpltu core vx1 grd vd va vb t => Sys2Proof.Machine.execVcmpltu core vx1 grd vd va vb t s
  | .vzipl core vx1 grd vd va vb t => Sys2Proof.Machine.execVzipl core vx1 grd vd va vb t s
  | .vziph core vx1 grd vd va vb t => Sys2Proof.Machine.execVziph core vx1 grd vd va vb t s
  | .vuzpe core vx1 grd vd va vb t => Sys2Proof.Machine.execVuzpe core vx1 grd vd va vb t s
  | .vuzpo core vx1 grd vd va vb t => Sys2Proof.Machine.execVuzpo core vx1 grd vd va vb t s
  | .vcj core vx1 grd vd va imm t => Sys2Proof.Machine.execVcj core vx1 grd vd va imm t s
  | .vconj core vx1 grd vd va vb t => Sys2Proof.Machine.execVconj core vx1 grd vd va vb t s
  | .vcvt core vx1 grd vd va imm t => Sys2Proof.Machine.execVcvt core vx1 grd vd va imm t s
  | .vfma core vx1 grd vd va vb t => Sys2Proof.Machine.execVfma core vx1 grd vd va vb t s
  | .vfms core vx1 grd vd va vb t => Sys2Proof.Machine.execVfms core vx1 grd vd va vb t s
  | .vfmul core vx1 grd vd va vb t => Sys2Proof.Machine.execVfmul core vx1 grd vd va vb t s
  | .vmul core vx1 grd vd va vb t => Sys2Proof.Machine.execVmul core vx1 grd vd va vb t s
  | .vmac core vx1 grd vd va vb t => Sys2Proof.Machine.execVmac core vx1 grd vd va vb t s
  | .vmsu core vx1 grd vd va vb t => Sys2Proof.Machine.execVmsu core vx1 grd vd va vb t s
  | .vcmul core vx1 grd vd va vb t => Sys2Proof.Machine.execVcmul core vx1 grd vd va vb t s
  | .vcmac core vx1 grd vd va vb t => Sys2Proof.Machine.execVcmac core vx1 grd vd va vb t s
  | .vcmacj core vx1 grd vd va vb t => Sys2Proof.Machine.execVcmacj core vx1 grd vd va vb t s
  | .vsrs core vx1 grd vd va imm t => Sys2Proof.Machine.execVsrs core vx1 grd vd va imm t s
  | .vacset core vx1 grd vd va imm t => Sys2Proof.Machine.execVacset core vx1 grd vd va imm t s
  | .vacz core vx1 grd vd va vb t => Sys2Proof.Machine.execVacz core vx1 grd vd va vb t s
  | .ldb core grd r an upd ofs => Sys2Proof.Machine.execLdb core grd r an upd ofs s
  | .ldbu core grd r an upd ofs => Sys2Proof.Machine.execLdbu core grd r an upd ofs s
  | .ldh core grd r an upd ofs => Sys2Proof.Machine.execLdh core grd r an upd ofs s
  | .ldhu core grd r an upd ofs => Sys2Proof.Machine.execLdhu core grd r an upd ofs s
  | .ldw core grd r an upd ofs => Sys2Proof.Machine.execLdw core grd r an upd ofs s
  | .ldd core grd r an upd ofs => Sys2Proof.Machine.execLdd core grd r an upd ofs s
  | .ldq core grd r an upd ofs => Sys2Proof.Machine.execLdq core grd r an upd ofs s
  | .vld core grd r an upd ofs => Sys2Proof.Machine.execVld core grd r an upd ofs s
  | .stb core grd r an upd ofs => Sys2Proof.Machine.execStb core grd r an upd ofs s
  | .sth core grd r an upd ofs => Sys2Proof.Machine.execSth core grd r an upd ofs s
  | .stw core grd r an upd ofs => Sys2Proof.Machine.execStw core grd r an upd ofs s
  | .std core grd r an upd ofs => Sys2Proof.Machine.execStd core grd r an upd ofs s
  | .stq core grd r an upd ofs => Sys2Proof.Machine.execStq core grd r an upd ofs s
  | .vst core grd r an upd ofs => Sys2Proof.Machine.execVst core grd r an upd ofs s
  | .ldxW core grd sd sa pd => Sys2Proof.Machine.execLdxW core grd sd sa pd s
  | .ldxD core grd sd sa pd => Sys2Proof.Machine.execLdxD core grd sd sa pd s
  | .stxW core grd sd sa pd => Sys2Proof.Machine.execStxW core grd sd sa pd s
  | .stxD core grd sd sa pd => Sys2Proof.Machine.execStxD core grd sd sa pd s
  | .add core grd d a b => Sys2Proof.Machine.execAdd core grd d a b s
  | .sub core grd d a b => Sys2Proof.Machine.execSub core grd d a b s
  | .and core grd d a b => Sys2Proof.Machine.execAnd core grd d a b s
  | .or core grd d a b => Sys2Proof.Machine.execOr core grd d a b s
  | .xor core grd d a b => Sys2Proof.Machine.execXor core grd d a b s
  | .shl core grd d a b => Sys2Proof.Machine.execShl core grd d a b s
  | .shr core grd d a b => Sys2Proof.Machine.execShr core grd d a b s
  | .sra core grd d a b => Sys2Proof.Machine.execSra core grd d a b s
  | .mul core grd d a b => Sys2Proof.Machine.execMul core grd d a b s
  | .mulh core grd d a b => Sys2Proof.Machine.execMulh core grd d a b s
  | .min core grd d a b => Sys2Proof.Machine.execMin core grd d a b s
  | .max core grd d a b => Sys2Proof.Machine.execMax core grd d a b s
  | .addi core grd d a imm => Sys2Proof.Machine.execAddi core grd d a imm s
  | .andi core grd d a imm => Sys2Proof.Machine.execAndi core grd d a imm s
  | .ori core grd d a imm => Sys2Proof.Machine.execOri core grd d a imm s
  | .xori core grd d a imm => Sys2Proof.Machine.execXori core grd d a imm s
  | .shli core grd d a imm => Sys2Proof.Machine.execShli core grd d a imm s
  | .shri core grd d a imm => Sys2Proof.Machine.execShri core grd d a imm s
  | .srai core grd d a imm => Sys2Proof.Machine.execSrai core grd d a imm s
  | .srri core grd d a imm => Sys2Proof.Machine.execSrri core grd d a imm s
  | .movil core grd d imm => Sys2Proof.Machine.execMovil core grd d imm s
  | .movih core grd d imm => Sys2Proof.Machine.execMovih core grd d imm s
  | .movx core grd d df src sf => Sys2Proof.Machine.execMovx core grd d df src sf s
  | .vget core grd d v lane => Sys2Proof.Machine.execVget core grd d v lane s
  | .cmpeq core grd pd a b => Sys2Proof.Machine.execCmpeq core grd pd a b s
  | .cmplt core grd pd a b => Sys2Proof.Machine.execCmplt core grd pd a b s
  | .cmpltu core grd pd a b => Sys2Proof.Machine.execCmpltu core grd pd a b s
  | .cmple core grd pd a b => Sys2Proof.Machine.execCmple core grd pd a b s
  | .pand core grd pd pa pb => Sys2Proof.Machine.execPand core grd pd pa pb s
  | .por core grd pd pa pb => Sys2Proof.Machine.execPor core grd pd pa pb s
  | .pandn core grd pd pa pb => Sys2Proof.Machine.execPandn core grd pd pa pb s
  | .pset core grd pd => Sys2Proof.Machine.execPset core grd pd s
  | .pclr core grd pd => Sys2Proof.Machine.execPclr core grd pd s
  | .br core grd tgt => Sys2Proof.Machine.execBr core grd tgt s
  | .brr core grd a => Sys2Proof.Machine.execBrr core grd a s
  | .call core grd tgt => Sys2Proof.Machine.execCall core grd tgt s
  | .callr core grd a => Sys2Proof.Machine.execCallr core grd a s
  | .ret core grd => Sys2Proof.Machine.execRet core grd s
  | .reti core grd => Sys2Proof.Machine.execReti core grd s
  | .loop core grd l im cnt tgt => Sys2Proof.Machine.execLoop core grd l im cnt tgt s
  | .loope core grd l im cnt tgt => Sys2Proof.Machine.execLoope core grd l im cnt tgt s
  | .rpt core grd im x => Sys2Proof.Machine.execRpt core grd im x s
  | .lock core grd im x => Sys2Proof.Machine.execLock core grd im x s
  | .swi core grd => Sys2Proof.Machine.execSwi core grd s
  | .trap core grd => Sys2Proof.Machine.execTrap core grd s
  | .wfi core grd => Sys2Proof.Machine.execWfi core grd s
  | .brn core grd tgt => Sys2Proof.Machine.execBrn core grd tgt s
  | .read req => Sys2Proof.Machine.execRead req s
  | .write req => Sys2Proof.Machine.execWrite req s
  | .pwrite req => Sys2Proof.Machine.execPwrite req s
  | .xload req => Sys2Proof.Machine.execXload req s
  | .xstore req => Sys2Proof.Machine.execXstore req s
  | .fetchAdd req => Sys2Proof.Machine.execFetchAdd req s
  | .swap req => Sys2Proof.Machine.execSwap req s
  | .cas req => Sys2Proof.Machine.execCas req s
  | .trellisResponse key user => Sys2Proof.Machine.execTrellisResponse key user s
  | .bridgeForward site response key => Sys2Proof.Machine.execBridgeForward site response key s
  | .initTmo init tag => Sys2Proof.Machine.execInitTmo init tag s
  | .taintExpiry init tag => Sys2Proof.Machine.execTaintExpiry init tag s
  | .packetAgeDiscard => Sys2Proof.Machine.execPacketAgeDiscard s
  | .promote init => Sys2Proof.Machine.execPromote init s
  | .starveMark init ring => Sys2Proof.Machine.execStarveMark init ring s
  | .stCtlClr init owner freeze => Sys2Proof.Machine.execStCtlClr init owner freeze s
  | .dramReadComplete ch b0 b1 w0 w1 => Sys2Proof.Machine.execDramReadComplete ch b0 b1 w0 w1 s
  | .wrAgeExpiry ch => Sys2Proof.Machine.execWrAgeExpiry ch s
  | .refreshRatePoll ch rates high => Sys2Proof.Machine.execRefreshRatePoll ch rates high s
  | .periodicRetraining ch => Sys2Proof.Machine.execPeriodicRetraining ch s
  | .retrainingComplete ch eye => Sys2Proof.Machine.execRetrainingComplete ch eye s
  | .memSelfrefreshEnter inst pkt => Sys2Proof.Machine.execMemSelfrefreshEnter inst pkt s
  | .memSelfrefreshExit inst pkt => Sys2Proof.Machine.execMemSelfrefreshExit inst pkt s
  | .selfRefreshEntryComplete => Sys2Proof.Machine.execSelfRefreshEntryComplete s
  | .selfRefreshExitComplete found => Sys2Proof.Machine.execSelfRefreshExitComplete found s
  | .mapSet inst pkt => Sys2Proof.Machine.execMapSet inst pkt s
  | .regionInit inst pkt => Sys2Proof.Machine.execRegionInit inst pkt s
  | .regionFillComplete tiller => Sys2Proof.Machine.execRegionFillComplete tiller s
  | .keyRotate inst pkt => Sys2Proof.Machine.execKeyRotate inst pkt s
  | .tillerRenewalComplete tiller page => Sys2Proof.Machine.execTillerRenewalComplete tiller page s
  | .tillerRenewalStart tiller => Sys2Proof.Machine.execTillerRenewalStart tiller s
  | .keyRetire inst pkt => Sys2Proof.Machine.execKeyRetire inst pkt s
  | .keyRetireComplete key region => Sys2Proof.Machine.execKeyRetireComplete key region s
  | .frameReceived link dir strand frame seq => Sys2Proof.Machine.execFrameReceived link dir strand frame seq s
  | .replayTimeout link dir strand => Sys2Proof.Machine.execReplayTimeout link dir strand s
  | .ackDue link dir strand => Sys2Proof.Machine.execAckDue link dir strand s
  | .idle link dir msg => Sys2Proof.Machine.execIdle link dir msg s
  | .ack link dir msg => Sys2Proof.Machine.execAck link dir msg s
  | .nak link dir msg => Sys2Proof.Machine.execNak link dir msg s
  | .cap link dir msg => Sys2Proof.Machine.execCap link dir msg s
  | .test link dir msg => Sys2Proof.Machine.execTest link dir msg s
  | .graft link dir msg => Sys2Proof.Machine.execGraft link dir msg s
  | .retire link dir msg => Sys2Proof.Machine.execRetire link dir msg s
  | .time die msg => Sys2Proof.Machine.execTime die msg s
  | .maintenanceWindow link wires groups => Sys2Proof.Machine.execMaintenanceWindow link wires groups s
  | .wireTestComplete link dir strand wires => Sys2Proof.Machine.execWireTestComplete link dir strand wires s
  | .graftComplete link dir strand => Sys2Proof.Machine.execGraftComplete link dir strand s
  | .linkStatus inst pkt => Sys2Proof.Machine.execLinkStatus inst pkt s
  | .laneRefresh inst pkt => Sys2Proof.Machine.execLaneRefresh inst pkt s
  | .laneEntriesFetched inst net => Sys2Proof.Machine.execLaneEntriesFetched inst net s
  | .laneCalibrate inst pkt => Sys2Proof.Machine.execLaneCalibrate inst pkt s
  | .laneRetire inst pkt => Sys2Proof.Machine.execLaneRetire inst pkt s
  | .laneCdr lane sig => Sys2Proof.Machine.execLaneCdr lane sig s
  | .pcsLinkChange engine sub rep => Sys2Proof.Machine.execPcsLinkChange engine sub rep s
  | .spCtl init engine sub v => Sys2Proof.Machine.execSpCtl init engine sub v s
  | .txrTail init engine sub tail => Sys2Proof.Machine.execTxrTail init engine sub tail s
  | .rxrTail init engine sub tail => Sys2Proof.Machine.execRxrTail init engine sub tail s
  | .frameTransmitted engine sub pos net => Sys2Proof.Machine.execFrameTransmitted engine sub pos net s
  | .frameReceive engine sub pos frame net => Sys2Proof.Machine.execFrameReceive engine sub pos frame net s
  | .tbSet inst pkt => Sys2Proof.Machine.execTbSet inst pkt s
  | .tbAdjust inst pkt => Sys2Proof.Machine.execTbAdjust inst pkt s
  | .tbRoute inst pkt => Sys2Proof.Machine.execTbRoute inst pkt s
  | .startAt inst pkt => Sys2Proof.Machine.execStartAt inst pkt s
  | .startAtFire => Sys2Proof.Machine.execStartAtFire s
  | .radjChange tb => Sys2Proof.Machine.execRadjChange tb s
  | .timeBroadcast ms => Sys2Proof.Machine.execTimeBroadcast ms s
  | .holdover die src => Sys2Proof.Machine.execHoldover die src s
  | .timePpsIn pin => Sys2Proof.Machine.execTimePpsIn pin s
  | .ppsEdgeTimeout tb => Sys2Proof.Machine.execPpsEdgeTimeout tb s
  | .timePpsOut pin => Sys2Proof.Machine.execTimePpsOut pin s
  | .timeFreqIn cls => Sys2Proof.Machine.execTimeFreqIn cls s
  | .slewEnd tb => Sys2Proof.Machine.execSlewEnd tb s
  | .memrd ld hpa => Sys2Proof.Machine.execMemrd ld hpa s
  | .memwr ld hpa data => Sys2Proof.Machine.execMemwr ld hpa data s
  | .birsp ld line dirty shared => Sys2Proof.Machine.execBirsp ld line dirty shared s
  | .hostSnoop => Sys2Proof.Machine.execHostSnoop s
  | .perstN => Sys2Proof.Machine.execPerstN s
  | .hotReset => Sys2Proof.Machine.execHotReset s
  | .functionLevelReset ld => Sys2Proof.Machine.execFunctionLevelReset ld s
  | .cxlReset ld => Sys2Proof.Machine.execCxlReset ld s
  | .cxlLinkUp speed width port => Sys2Proof.Machine.execCxlLinkUp speed width port s
  | .ideCheckFailure stream => Sys2Proof.Machine.execIdeCheckFailure stream s
  | .msixTrigger init ld vec => Sys2Proof.Machine.execMsixTrigger init ld vec s
  | .bind ld => Sys2Proof.Machine.execBind ld s
  | .unbind ld => Sys2Proof.Machine.execUnbind ld s
  | .identifyMemoryDevice ld => Sys2Proof.Machine.execIdentifyMemoryDevice ld s
  | .getSupportedLogs ld => Sys2Proof.Machine.execGetSupportedLogs ld s
  | .getLog ld uuid off len => Sys2Proof.Machine.execGetLog ld uuid off len s
  | .backgroundOperationStatus ld => Sys2Proof.Machine.execBackgroundOperationStatus ld s
  | .getMeasurements ld op => Sys2Proof.Machine.execGetMeasurements ld op s
  | .getCertificate ld slot off len => Sys2Proof.Machine.execGetCertificate ld slot off len s
  | .endSession inst id => Sys2Proof.Machine.execEndSession inst id s
  | .cdat ld => Sys2Proof.Machine.execCdat ld s
  | .stagingWrite ld off data => Sys2Proof.Machine.execStagingWrite ld off data s
  | .cmd inst cnt words net => Sys2Proof.Machine.execCmd inst cnt words net s
  | .reply inst cnt => Sys2Proof.Machine.execReply inst cnt s
  | .stream inst words => Sys2Proof.Machine.execStream inst words s
  | .pstat inst => Sys2Proof.Machine.execPstat inst s
  | .cmdPacketTimeout inst => Sys2Proof.Machine.execCmdPacketTimeout inst s
  | .fabricPortPoll plot net => Sys2Proof.Machine.execFabricPortPoll plot net s
  | .identify inst pkt => Sys2Proof.Machine.execIdentify inst pkt s
  | .getStatus inst pkt => Sys2Proof.Machine.execGetStatus inst pkt s
  | .shutdown inst pkt => Sys2Proof.Machine.execShutdown inst pkt s
  | .plotReset inst pkt => Sys2Proof.Machine.execPlotReset inst pkt s
  | .sessionOpen inst pkt => Sys2Proof.Machine.execSessionOpen inst pkt s
  | .sessionClose inst pkt => Sys2Proof.Machine.execSessionClose inst pkt s
  | .cfgBegin inst pkt => Sys2Proof.Machine.execCfgBegin inst pkt s
  | .cfgData inst pkt => Sys2Proof.Machine.execCfgData inst pkt s
  | .signatureVerifyComplete ses => Sys2Proof.Machine.execSignatureVerifyComplete ses s
  | .cfgCommit inst pkt => Sys2Proof.Machine.execCfgCommit inst pkt s
  | .commitPoint ses => Sys2Proof.Machine.execCommitPoint ses s
  | .cfgAbort inst pkt => Sys2Proof.Machine.execCfgAbort inst pkt s
  | .sessionIdleTimeout ses => Sys2Proof.Machine.execSessionIdleTimeout ses s
  | .doneHigh => Sys2Proof.Machine.execDoneHigh s
  | .initWaitExpiry => Sys2Proof.Machine.execInitWaitExpiry s
  | .goldenLoad inst pkt => Sys2Proof.Machine.execGoldenLoad inst pkt s
  | .bedFallow inst pkt => Sys2Proof.Machine.execBedFallow inst pkt s
  | .bedRelease inst pkt => Sys2Proof.Machine.execBedRelease inst pkt s
  | .readback inst pkt fail => Sys2Proof.Machine.execReadback inst pkt fail s
  | .attestGet inst pkt => Sys2Proof.Machine.execAttestGet inst pkt s
  | .plotCreate inst pkt => Sys2Proof.Machine.execPlotCreate inst pkt s
  | .plotDestroy inst pkt => Sys2Proof.Machine.execPlotDestroy inst pkt s
  | .keyInstall inst pkt => Sys2Proof.Machine.execKeyInstall inst pkt s
  | .policyLoad inst pkt net => Sys2Proof.Machine.execPolicyLoad inst pkt net s
  | .lifecycleAdvance inst pkt => Sys2Proof.Machine.execLifecycleAdvance inst pkt s
  | .faultRead inst pkt => Sys2Proof.Machine.execFaultRead inst pkt s
  | .faultClear inst pkt => Sys2Proof.Machine.execFaultClear inst pkt s
  | .errpinRelease inst pkt => Sys2Proof.Machine.execErrpinRelease inst pkt s
  | .historyMode inst pkt => Sys2Proof.Machine.execHistoryMode inst pkt s
  | .bistRun inst pkt => Sys2Proof.Machine.execBistRun inst pkt s
  | .bistComplete found unread => Sys2Proof.Machine.execBistComplete found unread s
  | .bistConditionCheck ok => Sys2Proof.Machine.execBistConditionCheck ok s
  | .bistResult inst pkt => Sys2Proof.Machine.execBistResult inst pkt s
  | .repairCommit inst pkt bad => Sys2Proof.Machine.execRepairCommit inst pkt bad s
  | .almRead inst pkt => Sys2Proof.Machine.execAlmRead inst pkt s
  | .almSeal inst pkt => Sys2Proof.Machine.execAlmSeal inst pkt s
  | .almExport inst pkt fail => Sys2Proof.Machine.execAlmExport inst pkt fail s
  | .recordClose => Sys2Proof.Machine.execRecordClose s
  | .tamper => Sys2Proof.Machine.execTamper s
  | .mesh => Sys2Proof.Machine.execMesh s
  | .vglitch die => Sys2Proof.Machine.execVglitch die s
  | .clkmon die => Sys2Proof.Machine.execClkmon die s
  | .temp sensor v => Sys2Proof.Machine.execTemp sensor v s
  | .overtemperature sensor => Sys2Proof.Machine.execOvertemperature sensor s
  | .supplyFault rail => Sys2Proof.Machine.execSupplyFault rail s
  | .faultReport loc => Sys2Proof.Machine.execFaultReport loc s
  | .fsafe die => Sys2Proof.Machine.execFsafe die s
  | .errNPulseEnd => Sys2Proof.Machine.execErrNPulseEnd s
  | .idcode => Sys2Proof.Machine.execIdcode s
  | .samplePreload cells => Sys2Proof.Machine.execSamplePreload cells s
  | .extest cells => Sys2Proof.Machine.execExtest cells s
  | .bypass => Sys2Proof.Machine.execBypass s
  | .testLogicReset => Sys2Proof.Machine.execTestLogicReset s
  | .cmdIo w net => Sys2Proof.Machine.execCmdIo w net s
  | .dbgAuth w => Sys2Proof.Machine.execDbgAuth w s
  | .debugCertVerified => Sys2Proof.Machine.execDebugCertVerified s
  | .debugAuthLockoutEnd => Sys2Proof.Machine.execDebugAuthLockoutEnd s
  | .dbgAccess op eight addr data => Sys2Proof.Machine.execDbgAccess op eight addr data s
  | .retRead next => Sys2Proof.Machine.execRetRead next s
  | .haltReq core on => Sys2Proof.Machine.execHaltReq core on s
  | .haltTaken core => Sys2Proof.Machine.execHaltTaken core s
  | .lockDeadline core => Sys2Proof.Machine.execLockDeadline core s
  | .resume core => Sys2Proof.Machine.execResume core s
  | .step core => Sys2Proof.Machine.execStep core s
  | .exec core => Sys2Proof.Machine.execExec core s
  | .monReq core on => Sys2Proof.Machine.execMonReq core on s
  | .bp0En core on => Sys2Proof.Machine.execBp0En core on s
  | .bp1En core on => Sys2Proof.Machine.execBp1En core on s
  | .haltCmd on => Sys2Proof.Machine.execHaltCmd on s
  | .haltWarden on => Sys2Proof.Machine.execHaltWarden on s
  | .freezeCfg plot v => Sys2Proof.Machine.execFreezeCfg plot v s
  | .smbusReadWord cmd => Sys2Proof.Machine.execSmbusReadWord cmd s
  | .blockMemoryPortAccess bed mem => Sys2Proof.Machine.execBlockMemoryPortAccess bed mem s
  | .upset hit => Sys2Proof.Machine.execUpset hit s
  | .refreshDue ch rank bank => Sys2Proof.Machine.execRefreshDue ch rank bank s
  | .cxlCacheResponse init tag data => Sys2Proof.Machine.execCxlCacheResponse init tag data s
  | .configurationSpaceWrite ld w => Sys2Proof.Machine.execConfigurationSpaceWrite ld w s
  | .ideKm ld stream op => Sys2Proof.Machine.execIdeKm ld stream op s
  | .cxlLinkDown narrow => Sys2Proof.Machine.execCxlLinkDown narrow s
  | .cdrLockAcquired lane => Sys2Proof.Machine.execCdrLockAcquired lane s
  | .prbsLockChange lane on errs => Sys2Proof.Machine.execPrbsLockChange lane on errs s
  | .ppsPulseEnd pin => Sys2Proof.Machine.execPpsPulseEnd pin s
  | .recoveryFlashReadComplete ptr image => Sys2Proof.Machine.execRecoveryFlashReadComplete ptr image s
  | .doneLineChange others => Sys2Proof.Machine.execDoneLineChange others s
  | .sysResetNRelease => Sys2Proof.Machine.execSysResetNRelease s
  | .islandSupplyLoss => Sys2Proof.Machine.execIslandSupplyLoss s

end Sys2Proof.Machine
end

