-- ==== Sys2Proof/Safety.lean ====
section
/-! DEFINITION. What counts as a safe run, what a step must never undo, the canonical form of the large tables, and the terms in
which claims are made. -/
namespace Sys2Proof.Machine
open Sys2Proof

/-- Every command that waits names objects that exist, so that no step on it stops. -/
def State.safe (s : State) : Bool := s.pending.all Instr.wf

/-- Fuses are not restored: the lifecycle state has not moved back, and what was burnt stays burnt (R485, R573). -/
structure FusesKept (old new : Device) : Prop where
  lifecycle : lifecycleNo old.trust.lifecycle ≤ lifecycleNo new.trust.lifecycle
  owner : ∀ b, old.trust.ownerBlk = some b → new.trust.ownerBlk = some b
  invalid : old.trust.ownerInv = true → new.trust.ownerInv = true
  slots : old.bist.fuses <+: new.bist.fuses

/-- The addressed memories and the register tables are in their canonical form: keys rise, and no entry says what an unlisted
one says. -/
structure Device.Canonical (d : Device) : Prop where
  lines : d.mem.lines.wf Line.blank = true
  shells : d.shells.wf Shell.reset = true

/-! ## Terms of claims -/

/-- The command completes: `exec` answers a next state, the queue is untouched, and the device is as `P` says. -/
def Completes (i : Instr) (s : State) (P : Device → Prop) : Prop :=
  ∃ d, exec i s = .next { s with dev := d } ∧ P d

/-! ### Word cells -/

/-- The cell executes micro-instructions: its bed is clocked and in a phase, its row's clock enable is 1, and it is in word mode. -/
def cellRuns (s : Device) (r : CellRef) : Bool :=
  (bedAt s r.bed.val).st = .running && !atBoundary (bedAt s r.bed.val) && !(cellCfg (bedAt s r.bed.val) r.cluster.val r.cell.val).bitMode
    && (bedAt s r.bed.val).rowEn.getLsbD (r.cluster.val / 16)

/-- What the cell reads in the phase in progress under the micro-instruction `op`, `m`. -/
def cellReads (s : Device) (op : Nat) (r : CellRef) (m : Micro) : CellIn :=
  let b := bedAt s r.bed.val
  let w := microWord op m
  cellInput b (netVal { b, k := b.phase, ov := some (r.cluster.val, r.cell.val, w), lv := loopVals s.free } .none) r.cluster.val r.cell.val

def cellIs (s : Device) (r : CellRef) : CellSt := cellSt (bedAt s r.bed.val) r.cluster.val r.cell.val

/-- Only this cell of the device may differ, and the model's own counter. -/
def onlyCell (s d : Device) (r : CellRef) : Prop :=
  d = { s with beds := d.beds, free := d.free } ∧
  (∀ n, n ≠ r.bed.val → bedAt d n = bedAt s n) ∧
  bedAt d r.bed.val = { bedAt s r.bed.val with cells := (bedAt d r.bed.val).cells } ∧
  ∀ k, k ≠ r.cluster.val * 16 + r.cell.val →
    (bedAt d r.bed.val).cells.get CellSt.zero k = (bedAt s r.bed.val).cells.get CellSt.zero k

/-- DST: where a result goes (R58). -/
def dstWrite (dst : BitVec 3) (res : Word16) (c : CellSt) : CellSt :=
  if dst = 1 then { c with q0 := res }
  else if dst = 2 then { c with q1 := res }
  else if dst = 3 then { c with q0 := res, q1 := res }
  else if dst = 4 then { c with q0 := res, q1 := c.q0 }
  else c

/-- The command leaves `res` where DST says and, if given, `cl` in the carry latch, and changes nothing else. -/
def CellDoes (i : Instr) (s : State) (r : CellRef) (m : Micro) (res : Word16) (cl : Option Bool) : Prop :=
  Completes i s fun d =>
    cellIs d r = { dstWrite m.dst res (cellIs s.dev r) with cl := cl.getD (cellIs s.dev r).cl } ∧ onlyCell s.dev d r

/-! ### Fraelm cores -/

/-- The core would issue the bundle at PC in this cycle, in plain flow: nothing is in flight, no delay slot, LOCK window or
repetition is in progress, and no active loop ends at PC. -/
structure Plain (s : Device) (c : CoreId) : Prop where
  issues : wouldIssue s c.val = true
  landed : (coreAt s c.val).flights = []
  noBranch : (coreAt s c.val).branch = none
  noLock : (coreAt s c.val).lock = 0
  noRpt : (coreAt s c.val).rpt = 0
  noLoop0 : endsAt (coreAt s c.val).regs.cur 0 (coreAt s c.val).pc = false
  noLoop1 : endsAt (coreAt s c.val).regs.cur 1 (coreAt s c.val).pc = false
  notFed : (coreAt s c.val).dbg.feeding = false

/-- A register as the core's current context reads it. -/
def regNow (s : Device) (c : CoreId) (x : Reg) : Nat :=
  let k := coreAt s c.val
  k.regs.get k.regs.bank (levels s c.val) (dstatVal k) x

def sNow (s : Device) (c : CoreId) (n : BitVec 5) : Nat := regNow s c ⟨.s, n.toNat⟩

/-- RRB of the current context, by which Vn and Pn rotate (R163). -/
def rrbNow (s : Device) (c : CoreId) : Word32 := (coreAt s c.val).regs.cur.rrb
def pNow (s : Device) (c : CoreId) (n : BitVec 4) : Nat := regNow s c ⟨.p, physP (rrbNow s c) n.toNat⟩
def vNow (s : Device) (c : CoreId) (n : BitVec 6) : Nat := regNow s c ⟨.v, physV (rrbNow s c) n.toNat⟩

/-- The guard of a syllable: none, or the value of the predicate that GRD names (R207). -/
def guardNow (s : Device) (c : CoreId) (grd : BitVec 5) : Guard :=
  if grd = 0 then none else some (regNow s c ⟨.p, physP (rrbNow s c) (grd.toNat - 16)⟩)

/-- GRD is 0 or names a predicate. -/
def grdLegal (grd : BitVec 5) : Bool := grd = 0 || decide (16 ≤ grd.toNat)

/-- The guard is true in predicate bit 0, which governs the LS and SC slots. -/
def guardOn (s : Device) (c : CoreId) (grd : BitVec 5) : Bool := grdLegal grd && guardBit (guardNow s c grd) 0

/-- A core one bundle on, with these results issued: those of latency 1 have landed, the others are in flight for one cycle less
than their latency, and PC is the next bundle's. -/
def Core.after (x : Core) (ls : List (Nat × Landing)) : Core :=
  let fs := ls.map fun p => ({ left := p.1 - 1, bank := x.regs.bank, entered := false, what := p.2 } : Flight)
  { x with
    regs := x.regs.landAll (fs.filter fun f => f.left = 0)
    flights := fs.filter fun f => f.left ≠ 0
    dstat := x.dstat &&& ~~~(BitVec.ofNat 5 (dstatClears (fs.filter fun f => f.left = 0)))
    pc := x.pc + 16, pcSample := x.pc, inLock := false, inSpan := false, closed := false, hold := .none
    dbg := { x.dbg with pass := false } }

/-- Only this core of the device may differ, and the model's own counter. -/
def onlyCore (s d : Device) (c : CoreId) : Prop :=
  d = { s with cores := d.cores, free := d.free } ∧ ∀ n, n ≠ c.val → coreAt d n = coreAt s n

/-- The command completes, leaves the core as given, and changes nothing else. -/
def Issues (i : Instr) (s : State) (c : CoreId) (y : Core) : Prop :=
  Completes i s fun d => coreAt d c.val = y ∧ onlyCore s.dev d c

/-- A write of a whole scalar register. -/
def toS (n : BitVec 5) (v : Nat) : Landing := .write ⟨.s, n.toNat⟩ all32 v

/-- A write of a whole predicate: all ones or all zeros, or bit by bit. -/
def toP (s : Device) (c : CoreId) (n : BitVec 4) (v : Nat) : Landing := .write ⟨.p, physP (rrbNow s c) n.toNat⟩ all64 v

/-- A core one bundle on, with a branch taken or not whose two delay bundles follow (R219). -/
def Core.branching (x : Core) (ls : List (Nat × Landing)) (t : BranchTo) : Core :=
  { x.after ls with branch := some (2, t), inSpan := true, closed := true }

/-- The address that a register or a target field gives to a branch: bits 15 to 4. -/
def branchTo (a : Nat) : BranchTo := .target (BitVec.ofNat 16 (a / 16 * 16))

/-- A core that finds an exception in the bundle at PC in plain flow: it enters the handler in the next cycle (R189). -/
def Core.excAt (x : Core) (code : Nat) : Core := { x with exc := some (code, x.pc, true), hold := .none, held := none }

/-! ### Vector syllables -/

/-- Lane `j` of a value, `w` bits wide. -/
def lane (w v j : Nat) : Nat := v / 2 ^ (j * w) % 2 ^ w
/-- A lane as a two's complement number. -/
def sLane (w v j : Nat) : Int := (BitVec.ofNat w (lane w v j)).toInt

/-- A mask lets lane `j` through where the guard's bit for it is 1 (R207). -/
def lanesOf (g : Guard) (w n : Nat) (idx : Nat → Nat) (M : Nat) : Prop :=
  ∀ j < n, lane w M j = if guardBit g (idx j) then 2 ^ w - 1 else 0

/-- The command writes vector register `vd` lane by lane: lane `j` gets `(res j).1` where the guard's bit `idx j` is 1 and keeps its
value elsewhere, and the flags `(res j).2` of the lanes that are written are raised; all of it lands after `lat` cycles. -/
def VxDoes (i : Instr) (s : State) (c : CoreId) (grd : BitVec 5) (vd : BitVec 6) (lat w n : Nat) (idx : Nat → Nat)
    (res : Nat → Nat × Nat) : Prop :=
  ∃ V M F : Nat, Issues i s c ((coreAt s.dev c.val).after
      (withFlags lat F [(lat, .write ⟨.v, physV (rrbNow s.dev c) vd.toNat⟩ M V)]))
    ∧ (∀ j < n, lane w V j = (res j).1 % 2 ^ w) ∧ lanesOf (guardNow s.dev c grd) w n idx M
    ∧ ∀ k, bitAt F k = (List.range n).any fun j => guardBit (guardNow s.dev c grd) (idx j) && bitAt (res j).2 k

/-- The command writes accumulator `ad`, or adds to it lane by lane modulo the lane (R214), where the guard lets it. -/
def AcDoes (i : Instr) (s : State) (c : CoreId) (grd : BitVec 5) (ad : BitVec 6) (lat t : Nat) (adds : Bool) (res : Nat → Int) : Prop :=
  ∃ V M : Nat, Issues i s c ((coreAt s.dev c.val).after
      [(lat, if adds then .accum ad.toNat (acLane t) M V else .write ⟨.ac, ad.toNat⟩ M V)])
    ∧ (∀ j < acCount t, lane (acLane t) V j = (BitVec.ofInt (acLane t) (res j)).toNat)
    ∧ lanesOf (guardNow s.dev c grd) (acLane t) (acCount t) (acIdx t) M

/-- A sum or difference clamped to `w` bits, and the flag of a lane that was clamped (R179). -/
def saturated (w : Nat) (x : Int) : Nat × Nat :=
  if 2 ^ (w - 1) ≤ x then (2 ^ (w - 1) - 1, flagSat)
  else if x < -2 ^ (w - 1) then (2 ^ (w - 1), flagSat)
  else ((BitVec.ofInt w x).toNat, 0)

/-! ### Load and store syllables -/

/-- A local memory of a core: instruction memory at 0, data memory at 0x20000 (R166): its array class and the offset. -/
def localMem (a : Nat) : Option (Nat × Nat) :=
  if a < 0x10000 then some (1, a) else if 0x20000 ≤ a ∧ a < 0x40000 then some (2, a - 0x20000) else none

/-- No byte of a run needs correction or is uncorrectable (R147). -/
def cleanRun (s : Device) (cls idx off n : Nat) : Prop :=
  ∀ k < n, synClass ((arrayAt s cls idx).read (off + k)).syn = .clean

/-- The little-endian number that a run of bytes holds (R7). -/
def numAt (s : Device) (cls idx off n : Nat) : Nat := ofLe ((List.range n).map fun k => ((arrayAt s cls idx).read (off + k)).data)

/-- The update of An that an access makes, if any (R211). -/
def updLands (s : Device) (c : CoreId) (w : Word32) : List (Nat × Landing) :=
  match (lsAddress w (regNow s c)).2 with
  | some (r, v) => [(1, .write r all32 v)]
  | none => []

/-- The load completes from instruction or data memory: registers as given, then the update of An; the instruction memory stalls one
cycle (R168, R170); nothing else changes. -/
def Loads (i : Instr) (s : State) (c : CoreId) (w : Word32) (lands : Nat → List (Nat × Landing)) : Prop :=
  let a := (lsAddress w (regNow s.dev c)).1
  let n := lsWidth (lsOp w)
  ∀ cls off, a % n = 0 → localMem a = some (cls, off) → cleanRun s.dev cls c.val off n →
    Issues i s c { (coreAt s.dev c.val).after (lands (numAt s.dev cls c.val off n) ++ updLands s.dev c w) with
      stall := if cls = 1 then 1 else 0 }

/-- The store completes to instruction or data memory: the bytes of `v` stand at its address, low byte first, every other byte of
every array is as before, reservations of others on the lines of data memory that it writes have ended, An is updated, and nothing
else changes (R166, R168, R215, R245). -/
def Stores (i : Instr) (s : State) (c : CoreId) (w : Word32) (v : Nat) : Prop :=
  let a := (lsAddress w (regNow s.dev c)).1
  let n := lsWidth (lsOp w)
  ∀ cls off, a % n = 0 → localMem a = some (cls, off) → (arrayAt s.dev cls c.val).dec = [] →
    Completes i s fun d =>
      d = { s.dev with cores := d.cores, arrays := d.arrays, trl := { s.dev.trl with resvs := d.trl.resvs }, free := d.free }
      ∧ coreAt d c.val = { (coreAt s.dev c.val).after (updLands s.dev c w) with
          stall := if cls = 1 then 1 else 0
          wrote := if cls = 1 then { off, old := (arrayAt s.dev 1 c.val).readBytes off n, left := 8 } :: (coreAt s.dev c.val).wrote
                   else (coreAt s.dev c.val).wrote }
      ∧ (∀ m, m ≠ c.val → coreAt d m = coreAt s.dev m)
      ∧ (∀ k, (arrayAt d cls c.val).read k =
          if off ≤ k ∧ k < off + n then ⟨BitVec.ofNat 8 (v / 2 ^ (8 * (k - off))), 0, .clean⟩ else (arrayAt s.dev cls c.val).read k)
      ∧ (∀ k, k ≠ arrayKey cls c.val → d.arrays.get Coded.filled k = s.dev.arrays.get Coded.filled k)
      ∧ d.trl.resvs = s.dev.trl.resvs.filter fun r =>
          !(cls = 2 && r.stop = 2 + c.val && r.init ≠ lsInit c.val
            && (r.line = (0xF00000020000 + c.val * 2 ^ 24 + off) / 64 || r.line = (0xF00000020000 + c.val * 2 ^ 24 + (off + n - 1)) / 64))

/-! ### Registers -/

/-- A register write is accepted: the initiator may reach the block (R32), and the almanac has room for what the write records
(R517). -/
structure RegAccepts (s : Device) (i : InitId) (b : Blk) (blk off v m : Nat) : Prop where
  mayReach : csrOpen s i (stampPlot s i) b off = true
  room : almRefuses (fun d => (blkWrite i b blk off v m d).getD d) s = false

/-- A register access that was answered OKAY. -/
def okay (d : Device) : Device := { d with answer := some (rcOkay, 0) }

/-- No management command is in progress, none is parked and no rake runs, so that no reply becomes due on the side. -/
structure MgmtQuiet (s : Device) : Prop where
  rakes : s.rakes = []
  progress : s.mgmt.progress = []
  parked : s.mgmt.parked = []

/-! ### Shells -/

/-- The block, its offset from the CSR base and the offset in it of a shell's window (R33, R34, R36). -/
def shellWin : ShellId → Blk × Nat × Nat
  | .gen b => (.bed b.val, bedOff b.val, 0x100)
  | .pma l => (.quad (l.val / 4), quadOff (l.val / 4), 0x100 + l.val % 4 * 0x40)
  | .phy c => (.mem c.val, 0x100000 + c.val * 0x1000, 0x100)
  | .gpio g => (.gpio (bankDie g.val), dieOff (bankDie g.val) + 0x400000, g.val % 4 * 0x1000)
  | _ => (.hole, 0, 0)

/-- The initiator may write register `r` of the shell's window; the window of a lane is written by management (R31). -/
def ShellAccepts (s : Device) (i : InitId) (id : ShellId) (r v : Nat) : Prop :=
  if shellHidden id then (isMgmtCore i || stampPlot s i = 0) = true ∧ almRefuses (shellWrite i id r v) s = false
  else RegAccepts s i (shellWin id).1 (shellWin id).2.1 ((shellWin id).2.2 + r) v (2 ^ 32 - 1)
  ∧ ∀ l, id = .pma l → isMgmtCore i = true

/-- For a lane's shell: no entry waits for the lane, no refresh is in progress, and no subport enable of its engine is pending. -/
def LaneQuiet (s : Device) (id : ShellId) : Prop :=
  ∀ l, id = .pma l → (laneAt s l.val).next = none ∧ s.ports.jobs = [] ∧ ∀ k, (subAt s (laneEngine l.val) k).deferral = false

/-- A lane whose shell neither starts nor runs detects nothing. -/
def hushed (id : ShellId) (d : Device) : Device := match id with | .pma l => laneQuiet l.val d | _ => d

/-- No memory request waits for a queue, a channel or a page, and no renewal is in progress. -/
structure MemCalm (s : Device) : Prop where
  queues : ∀ w ∈ s.trl.waiting, (∀ ch, w.why ≠ .queue ch) ∧ ∀ pg, w.why ≠ .pageLock pg
  renews : s.mem.renews = []

/-- The state of a shell after EN is written in a state (R37, R38, R41). -/
def shellNext (st : ShellSt) (en : Bool) : ShellSt :=
  match st, en with
  | .idle, true => .starting
  | .active, false => .stopping
  | .fault, false => .idle
  | st, _ => st

/-- The device after an almanac record of a change of CTL, if CTL changes (R515, R611). -/
def ctlRecorded (s : Device) (i : InitId) (id : ShellId) (w : Nat) : Device :=
  let x := shellAt s id
  let after := match id with | .gpio g => if bitAt w 0 then bankDigest s g.val w else w | _ => w
  if x.ctl = w then s else csrRecord i (shellOff id) x.ctl after s

/-! ### Beds -/

def withClock (n : Nat) (k : BedClock) (s : Device) : Device := setBed n { bedAt s n with clock := k } s

/-- A measurement of a sensor has reached the warden, and has been evaluated if the warden pair runs (R498, R509). -/
def noticed (kind inst : Nat) (t : Device) : Device := fuseHold t (drainPolicy (occur kind inst 0 t))

/-- A port access writes data bit `k` of its memory (R135, R138). -/
def accBit (p : Option PortAcc) (k : Nat) : Bool :=
  p.any fun p => p.we && decide (p.addr * p.width ≤ k ∧ k < p.addr * p.width + p.width)
    && (decide (p.aspect ≤ 3) || bitAt p.be ((k - p.addr * p.width) / 8))

/-- It writes some bit of byte `a`. -/
def accHit (p : Option PortAcc) (a : Nat) : Bool := (List.range 8).any fun i => accBit p (8 * a + i)

/-- The value that it has for data bit `k`. -/
def accVal (p : Option PortAcc) (k : Nat) : Bool := p.any fun p => bitAt p.wd (k - p.addr * p.width)

/-- Data bit `k` of an array as stored. -/
def memBit (c : Coded) (k : Nat) : Bool := (c.raw (k / 8)).getLsbD (k % 8)

/-- What the two ports of a memory do in the phase in progress (R138). -/
def portAcc (s : Device) (n mem port : Nat) : Option PortAcc :=
  bmAccess (bedAt s n) (netVal { b := bedAt s n, k := (bedAt s n).phase, ov := none, lv := loopVals s.free } .none) mem port

/-- All arrays read as before. -/
def sameArrays (s d : Device) : Prop := ∀ k, d.arrays.get Coded.filled k = s.arrays.get Coded.filled k

/-! ### Faults -/

/-- The record that the central collector forms of a report (R535, R536). -/
def recOf (s : Device) (rep : Report) (merged : Nat) : FltRec :=
  let p := concerns s rep.src
  { rep, plotValid := p.isSome, plot := p.getD 0, merged, safe := orders s rep.cls.val, overflowed := false, almSeq := s.alm.next }

/-- What forming a record of class C0 to C2 does to the records of `s` (R535, R538, R548): the first of its class is kept, the running
history queue takes it, and ERR_N goes low for a class of ERR_MASK. -/
structure Forms (s d : Device) (r : FltRec) : Prop where
  first : ∀ k, k < 5 → d.flt.first.getD k none = if k = r.rep.cls.val then some ((s.flt.first.getD k none).getD r) else s.flt.first.getD k none
  history : d.flt.history.length = if histOn s ∧ s.flt.history.length < 32 then s.flt.history.length + 1 else s.flt.history.length
  appended : histOn s = true → s.flt.history.length < 32 → d.flt.history = s.flt.history ++ [r]
  dropped : d.flt.histOvf = if histOn s ∧ 32 ≤ s.flt.history.length then min (s.flt.histOvf + 1) 255 else s.flt.histOvf
  pin : (d.flt.low, d.flt.pulse, d.flt.clearDue) =
    if s.flt.errMask.getLsbD r.rep.cls.val then (true, some (devNs s), false) else (s.flt.low, s.flt.pulse, s.flt.clearDue)

/-- Nothing runs that C3 would have to end: no golden load, configuration session, BIST, readback or management command. -/
structure CalmC3 (s : Device) : Prop where
  quiet : MgmtQuiet s
  load : s.cfg.load = none
  sessions : entries s = []
  bist : s.bist.run = none
  holds : ∀ n, (bedAt s n).rbHold = false
  none : s.flt.fsafe = .none

/-- The signal of a fault that concerns plot `p`, if it is due (R416, R539). -/
def signals (due : Bool) (p : Nat) (s : Device) : Device := if due then signalFault p s else s

/-! ### Trellis -/

/-- The initiator may send this request now: it is new, the initiator is not stalled, may issue the opcode, has the lowest free tag `t`, the
data of a write is as long as the request says, and there is a route. -/
structure CanSend (s : Device) (opc : Opc) (at' : AtType) (r : TrlReq) (t : Nat) : Prop where
  fresh : r.tag = none
  plain : r.enters = false ∧ r.odd = none
  open' : barred opc r s = none
  runs : (win s r.init).stalled = false
  may : mayIssue r.init opc at' = true
  tag : lowestFree (win s r.init) (initOutst r.init) = some t
  data : opc = .write ∨ opc = .pwrite → r.data.length = r.bcnt.toNat + 1
  route : (route s (initSite r.init) (targetSite r.addr.toNat)).isSome = true

/-- The packet that its stop forms (R240, R242, R254); a posted write carries no tag. -/
def sentPkt (s : Device) (opc : Opc) (at' : AtType) (r : TrlReq) (t : Nat) : Pkt :=
  { opc, atype := at', init := r.init, plot := Fin.ofNat 16 (stampPlot s r.init), pri := initPri s r.init
    tag := if opc = .pwrite then 0 else BitVec.ofNat 10 t, gen := if opc = .pwrite then 0 else (tagOf (win s r.init) t).gen
    addr := r.addr, len := r.len, bcnt := r.bcnt, stamp := devStamp s, dbg := decide (r.init = islandInit)
    data := if opc = .write ∨ opc = .pwrite then r.data else []
    opA := r.opA, opB := r.opB }

/-- What issuing leaves at the initiator: the tag is BUSY from now on, for INIT_TMO; the request is counted (R253, R254, R260). -/
structure TagTaken (s d : Device) (opc : Opc) (r : TrlReq) (t : Nat) : Prop where
  tag : opc ≠ .pwrite → tagOf (win d r.init) t = { st := .busy, gen := (tagOf (win s r.init) t).gen, start := devNs s, tmo := effTmo (win s r.init)
                                                   opc, bytes := r.bcnt.toNat + 1, addr := r.addr.toNat }
  rest : ∀ k, k ≠ t ∨ opc = .pwrite → tagOf (win d r.init) k = tagOf (win s r.init) k
  counted : initFrozen s r.init = false → (win d r.init).stats.reqs = min ((win s r.init).stats.reqs + 1) (2 ^ 32 - 1)
  wins : ∀ j, j ≠ r.init → win d j = win s j

/-- The request is performed on data memory of core `c` at `off` and answered: `bytes` is what it stores, if anything. -/
def CoreMemDoes (i : Instr) (s : State) (opc : Opc) (at' : AtType) (r : TrlReq) (t c off : Nat) (rc : Byte) (data : List Byte)
    (bytes : Option (List Byte)) (resvs : List Resv) : Prop :=
  Completes i s fun d =>
    TagTaken s.dev d opc r t
    ∧ d.trl.rsps = (if opc = .pwrite then s.dev.trl.rsps else s.dev.trl.rsps ++ [{ req := sentPkt s.dev opc at' r t, rcode := rc, data }])
    ∧ (∀ k, (arrayAt d 2 c).read k = match bytes with
        | some bs => if off ≤ k ∧ k < off + bs.length then ⟨bs.getD (k - off) 0, 0, .clean⟩ else (arrayAt s.dev 2 c).read k
        | none => (arrayAt s.dev 2 c).read k)
    ∧ (∀ k, k ≠ arrayKey 2 c → d.arrays.get Coded.filled k = s.dev.arrays.get Coded.filled k)
    ∧ d.trl.resvs = resvs
    ∧ d = { s.dev with arrays := d.arrays, trl := { s.dev.trl with
        wins := d.trl.wins, rings := d.trl.rings, spine := d.trl.spine, rsps := d.trl.rsps, resvs := d.trl.resvs } }

/-- Reservations of others on lines `l` to `l + n` at the stop of core `c` have ended (R245). -/
def brokenBy (s : Device) (i : InitId) (c l n : Nat) : List Resv :=
  s.trl.resvs.filter fun r => !(r.stop = 2 + c && decide (l ≤ r.line ∧ r.line ≤ l + n) && r.init ≠ i)

/-! ### Management commands -/

def ctxOf (o : OpSpec) (inst : Inst) (pkt : Packet) : Ctx := { inst, op := o.code, pkt }

/-- The device as an accepted command finds it: the old reply of its instance is gone, and its SEQ is consumed (R428, R436). -/
def taken (o : OpSpec) (inst : Inst) (pkt : Packet) (s : Device) : Device :=
  mapWindow o.session (ctxOf o inst pkt) (fun w => w.accept pkt.seq) (dropReply inst s)

/-- The instance is free and the packet passes steps 1 to 5 of R430: its form, its session and MAC, its SEQ and its plot. -/
structure CmdArrives (s : Device) (o : OpSpec) (inst : Inst) (pkt : Packet) : Prop where
  quiet : MgmtQuiet s
  up : s.mgmt.up = true
  runs : cmdHalted s = false
  form : badHeader o pkt = false
  session : o.session = true → isFabric inst = false →
    ∃ x, sessionFor (ctxOf o inst pkt) s = some x ∧ (macTransport inst = true → macOk (ctxOf o inst pkt) x.2 = true)
  fresh : ∀ w, windowOf o (ctxOf o inst pkt) s = some w → w.fresh pkt.seq = true
  plot : plotBarred (ctxOf o inst pkt) s = false

/-- It passes steps 6 to 8 as well: DEV_STATE, the conditions of its own chapter, and room in the almanac; and it is no dry run. -/
structure CmdGood (s : Device) (o : OpSpec) (inst : Inst) (pkt : Packet) : Prop where
  arrives : CmdArrives s o inst pkt
  state : o.accepts s.mgmt.dev = true
  allowed : o.refusal (ctxOf o inst pkt) (taken o inst pkt s) = none
  room : almRoom (o.records (ctxOf o inst pkt) (taken o inst pkt s)) (taken o inst pkt s) = true
  acts : pkt.flags.getLsbD 0 = false

/-- Where it is good, the command is answered with `st` and a payload, and its effect on the device that it finds is `e`. -/
def Replies (i : Instr) (s : State) (o : OpSpec) (inst : Inst) (pkt : Packet) (st : Nat) (payload : Device → List Byte)
    (e : Device → Device) : Prop :=
  CmdGood s.dev o inst pkt → Completes i s fun d =>
    let a := taken o inst pkt s.dev
    d = answerCmd o.session (ctxOf o inst pkt) st 0 (payload a) (e a)

/-- Where it is good, the command stays in progress holding `holds`, and its effect is as `P` says. -/
def Stays (i : Instr) (s : State) (o : OpSpec) (inst : Inst) (pkt : Packet) (holds : List Obj) (P : Device → Device → Prop) : Prop :=
  CmdGood s.dev o inst pkt → Completes i s fun d =>
    let a := taken o inst pkt s.dev
    d.mgmt = { a.mgmt with progress := [{ inst, opcode := BitVec.ofNat 16 o.code, pkt, holds, mute := false }] } ∧ P a d

/-! ### Memory -/

/-- No request waits for a channel's queues. -/
def noQueueWait (s : Device) : Prop := ∀ w ∈ s.trl.waiting, ∀ ch, w.why ≠ .queue ch

/-- Every window keeps to the 2 ^ 35 bytes that a channel can have (R271). -/
def linesFit (s : Device) : Prop := ∀ w ∈ s.mem.windows, ∀ a, w.holds a = true → (w.map a).2 < 2 ^ 35

/-- The tables of memory hold each object once. -/
structure MemTidy (s : Device) : Prop where
  chans : s.mem.chans.wf Chan.reset = true
  lines : s.mem.lines.wf Line.blank = true
  regions : s.mem.regions.wf Region.reset = true

/-! ### Die links -/

/-- A sideband message as its 64 bits: TYPE, bits [7:4], bits [47:8], and the CRC-16 of those 48 bits (R336, R338). -/
def sideWord (type sub body : Nat) : Word64 :=
  let v := type + sub * 2 ^ 4 + body * 2 ^ 8
  BitVec.ofNat 64 (v + (crc16 (bitsOf 48 v)).toNat * 2 ^ 48)

/-- The message that a direction last carried. -/
def Link.said (x : Link) (dir : Nat) : Word64 := if dir = 0 then x.msg0 else x.msg1

/-- Only this link of the device may differ, its strands as given, and its other fields as `x`, T_CHANGE and messages apart. -/
structure LinkIs (s d : Device) (l : Nat) (x : Link) (strand : Nat → Nat → Strand) : Prop where
  strands : ∀ dir n, dir < 2 → n < 16 → (linkAt d l).strand dir n = strand dir n
  rest : linkAt d l = { x with strands := (linkAt d l).strands, tChange := (linkAt d l).tChange, msg0 := (linkAt d l).msg0, msg1 := (linkAt d l).msg1 }
  links : ∀ m, m ≠ l → linkAt d m = linkAt s m

/-- Strands as before but for one. -/
def Link.but (x : Link) (dir n : Nat) (t : Strand) (dir' n' : Nat) : Strand := if dir' = dir ∧ n' = n then t else x.strand dir' n'

/-- The strand that takes over a quiesced strand's frames: the next higher working strand of the same kind, wrapping to the lowest (R347). -/
def takesOver (l : Nat) (x : Link) (dir n k : Nat) (st : StrandSt) : Prop :=
  let y := x.setStrand dir n { x.strand dir n with st }
  let same (j : Nat) : Prop := j ∈ workList l y dir ∧ isFabStrand l y dir j = isFabStrand l x dir n
  same k ∧ (n < k ∧ (∀ j, same j → n < j → k ≤ j) ∨ (∀ j, same j → j < n) ∧ ∀ j, same j → k ≤ j)

/-- Strands after one has been quiesced as `t` and its frames have gone ahead of what `k` was to carry. -/
def Link.handed (x : Link) (dir n k : Nat) (t : Strand) (dir' n' : Nat) : Strand :=
  if dir' = dir ∧ n' = n then { t with buf := [], resend := [], todo := [], txq := [] }
  else if dir' = dir ∧ n' = k then { x.strand dir k with todo := (x.strand dir n).owed n ++ (x.strand dir k).todo }
  else x.strand dir' n'

/-- The link can spare a strand of this direction (R348), and none of the direction is quiesced (R349). -/
structure CanSpare (s : Device) (l dir n : Nat) : Prop where
  up : (linkAt s l).mode = .up
  works : ((linkAt s l).strand dir n).st = .working
  free : directionBusy l (linkAt s l) dir n = false
  sound : linkSound l (linkAt s l) = true
  spare : minStrands l < workCount l (linkAt s l) dir

/-- The almanac takes a record of the device itself (R517). -/
structure AlmTakes (s : Device) : Prop where
  open' : s.alm.sealed = false
  room : s.alm.unacked < 131072
  seqs : s.alm.next < 2 ^ 48 - 1

/-! ### Ports -/

/-- The address of a byte of a core's data memory (R166). -/
def coreAddr (c off : Nat) : Nat := 0xF00000000000 + c * 2 ^ 24 + 0x20000 + off

/-- Bytes of a core's data memory. -/
def coreBytes (s : Device) (c off n : Nat) : List Byte := (List.range n).map fun k => ((arrayAt s 2 c).read (off + k)).data

/-- Bytes of a core's data memory become `bs` at `off`; every other byte of every array is as before. -/
def coreStored (s d : Device) (c : Nat) (at' : Nat → Option Byte) : Prop :=
  (∀ j, (arrayAt d 2 c).read j = match at' j with | some b => ⟨b, 0, .clean⟩ | none => (arrayAt s 2 c).read j)
  ∧ ∀ k, k ≠ arrayKey 2 c → d.arrays.get Coded.filled k = s.arrays.get Coded.filled k

/-- The byte that a run at `off` has at `j`. -/
def runAt (off : Nat) (bs : List Byte) (j : Nat) : Option Byte := if off ≤ j then bs[j - off]? else none

/-- Transfers of an initiator with a core's memories go through at once: it is not stalled, has a FREE tag and a route, no packet of its own is
under way, and nothing waits at the memory stops. -/
structure NetReady (s : Device) (i : InitId) (c : Nat) : Prop where
  calm : MemCalm s
  flows : s.trl.stuck = false
  runs : (win s i).stalled = false
  tag : lowestFree (win s i) (initOutst i) ≠ none
  plot : stampPlot s i < 16
  route : ∀ off, off < 0x20000 → (route s (initSite i) (targetSite (coreAddr c off))).isSome = true
  own : (∀ t ∈ s.mem.txns, t.pkt.init ≠ i) ∧ (∀ w ∈ s.trl.waiting, w.pkt.init ≠ i) ∧ (∀ r ∈ s.trl.rsps, r.req.init ≠ i) ∧ ∀ p ∈ s.cxl.hostReqs, p.init ≠ i

/-- A transfer of the initiator can issue its first request: it is not stalled, has a FREE tag, and no response to it is under way. -/
structure BusOpen (s : Device) (i : InitId) : Prop where
  flows : s.trl.stuck = false
  runs : (win s i).stalled = false
  tag : lowestFree (win s i) (initOutst i) ≠ none
  own : ∀ r ∈ s.trl.rsps, r.req.init ≠ i

/-- The descriptor at HEAD of a ring lies in a core's data memory of the engine's owner, at `off`, and can be read. -/
structure DescAt (s : Device) (e : Nat) (r : Ring) (c off : Nat) : Prop where
  some : r.empty = false
  place : r.base + 32 * r.idx r.head = coreAddr c off
  aligned : off % 32 = 0
  inside : off + 32 ≤ 0x20000
  owner : coreOwner s c = engineOwner s e
  sound : (arrayAt s 2 c).dec = []
  clean : cleanRun s 2 c off 32

/-- Nothing in the network answers a transfer with an error. -/
def calmNet : NetIn := .calm

end Sys2Proof.Machine
end

