-- ==== Sys2Proof/Certificates/Slice0/Obligations.lean ====
section
/-! DEFINITION. What is claimed of the model. -/
section
open Sys2Proof Sys2Proof.Machine

/-! ## Word cells -/

/-- HOLD writes nothing; PASS, AND, OR, XOR, SEL and the shifts leave their result in the registers that DST names, and CL as it
was (R54, R58).
ADD, ADDC, SUB, SUBC and MULS: the result modulo 2^16 goes where DST names, and CL takes the carry out: bit 16 of the exact
sum, so that for a difference CL is 1 when there is no borrow (R54 to R56, R58).
CMP: the result is all ones when the condition that CND names holds, else zero; CL takes "equal" for EQ and NE, and for the
others 1 when the unsigned difference needs no borrow (R54, R57, R60). `cin` is 1 in a comparison of one cell. -/
def Obligations.CellOperations : Prop :=
  (∀ (s : State) (r : CellRef) (m : Micro), cellRuns s.dev r = true →
     let A (op : Nat) : Word16 := cellSource (cellReads s.dev op r m) m.k m.sa
     let B (op : Nat) : Word16 := cellSource (cellReads s.dev op r m) m.k m.sb
     let n (op : Nat) : Nat := (B op).toNat % 16
     let M : Word16 := selMask (cellReads s.dev 0x0B r m) m.ci
     (Completes (.cellHold r m) s fun d => cellIs d r = cellIs s.dev r ∧ onlyCell s.dev d r)
     ∧ CellDoes (.cellPass r m) s r m (A 0x01) none
     ∧ CellDoes (.cellAnd r m) s r m (A 0x08 &&& B 0x08) none
     ∧ CellDoes (.cellOr r m) s r m (A 0x09 ||| B 0x09) none
     ∧ CellDoes (.cellXor r m) s r m (A 0x0A ^^^ B 0x0A) none
     ∧ CellDoes (.cellSel r m) s r m ((A 0x0B &&& ~~~M) ||| (B 0x0B &&& M)) none
     ∧ CellDoes (.cellShl r m) s r m (A 0x0C <<< n 0x0C) none
     ∧ CellDoes (.cellShr r m) s r m (A 0x0D >>> n 0x0D) none
     ∧ CellDoes (.cellSra r m) s r m ((A 0x0E).sshiftRight (n 0x0E)) none
     ∧ CellDoes (.cellRol r m) s r m ((A 0x0F).rotateLeft (n 0x0F)) none)
  ∧ (∀ (s : State) (r : CellRef) (m : Micro), cellRuns s.dev r = true →
       let A (op : Nat) : Word16 := cellSource (cellReads s.dev op r m) m.k m.sa
       let B (op : Nat) : Word16 := cellSource (cellReads s.dev op r m) m.k m.sb
       let cin (op : Nat) : Nat := (cellCin (cellReads s.dev op r m) m.ci).toNat
       let acc : Word16 := mulsAcc (cellReads s.dev 0x07 r m) m.ci m.dst
       let P : Word16 := mulsProduct (A 0x07) (B 0x07) m.cnd
       CellDoes (.cellAdd r m) s r m (A 0x02 + B 0x02) (some (decide (2 ^ 16 ≤ (A 0x02).toNat + (B 0x02).toNat)))
       ∧ CellDoes (.cellAddc r m) s r m (A 0x03 + B 0x03 + BitVec.ofNat 16 (cin 0x03))
           (some (decide (2 ^ 16 ≤ (A 0x03).toNat + (B 0x03).toNat + cin 0x03)))
       ∧ CellDoes (.cellSub r m) s r m (A 0x04 - B 0x04) (some (decide ((B 0x04).toNat ≤ (A 0x04).toNat)))
       ∧ CellDoes (.cellSubc r m) s r m (A 0x05 - B 0x05 - 1 + BitVec.ofNat 16 (cin 0x05))
           (some (decide ((B 0x05).toNat < (A 0x05).toNat + cin 0x05)))
       ∧ CellDoes (.cellMuls r m) s r m (acc + P) (some (decide (2 ^ 16 ≤ acc.toNat + P.toNat))))
  ∧ (∀ (s : State) (r : CellRef) (m : Micro), cellRuns s.dev r = true →
       let i := cellReads s.dev 0x06 r m
       let a : Word16 := cellSource i m.k m.sa
       let b : Word16 := cellSource i m.k m.sb
       let cin := cellCin i m.ci
       let eq := decide (a = b) && cin
       let geu := decide (b.toNat < a.toNat + cin.toNat)
       let lts := decide (a.toInt + cin.toNat ≤ b.toInt)
       let does (h : Bool) (co : Bool) := CellDoes (.cellCmp r m) s r m (if h then 0xFFFF else 0) (some co)
       (m.cnd = 0 → does eq eq) ∧ (m.cnd = 1 → does (!eq) eq) ∧ (m.cnd = 2 → does (!geu) geu) ∧ (m.cnd = 3 → does geu geu)
       ∧ (m.cnd = 4 → does lts geu) ∧ (m.cnd = 5 → does (!lts) geu) ∧ (6 ≤ m.cnd.toNat → does false false))

/-! ## Fraelm cores -/

/-- ADD to MAX write Sd modulo 2^32, shifts count by Sb[4:0], MIN and MAX are signed, MULH is the signed high half; MUL and MULH
land a cycle later than the others; PC goes to the next bundle and nothing else changes (R172, R217).
The immediate forms: IMM11 and IMM16 are sign-extended, shift counts are IMM11[4:0] with IMM11[10:5] = 0 but for SRRI, which
rounds half up, and MOVIH keeps the low half (R179, R217). -/
def Obligations.ScalarArithmetic : Prop :=
  (∀ (s : State) (c : CoreId) (grd d a b : BitVec 5), Plain s.dev c → guardOn s.dev c grd = true →
     let A : Word32 := BitVec.ofNat 32 (sNow s.dev c a)
     let B : Word32 := BitVec.ofNat 32 (sNow s.dev c b)
     let n := (sNow s.dev c b) % 32
     let into (lat : Nat) (v : Word32) : Core := Core.after (coreAt s.dev c.val) [(lat, toS d v.toNat)]
     Issues (.add c grd d a b) s c (into 1 (A + B)) ∧ Issues (.sub c grd d a b) s c (into 1 (A - B))
     ∧ Issues (.and c grd d a b) s c (into 1 (A &&& B)) ∧ Issues (.or c grd d a b) s c (into 1 (A ||| B))
     ∧ Issues (.xor c grd d a b) s c (into 1 (A ^^^ B))
     ∧ Issues (.shl c grd d a b) s c (into 1 (A <<< n)) ∧ Issues (.shr c grd d a b) s c (into 1 (A >>> n))
     ∧ Issues (.sra c grd d a b) s c (into 1 (A.sshiftRight n))
     ∧ Issues (.mul c grd d a b) s c (into 2 (A * B)) ∧ Issues (.mulh c grd d a b) s c (into 2 (BitVec.ofInt 32 (A.toInt * B.toInt / 2 ^ 32)))
     ∧ Issues (.min c grd d a b) s c (into 1 (if A.slt B then A else B)) ∧ Issues (.max c grd d a b) s c (into 1 (if A.slt B then B else A)))
  ∧ (∀ (s : State) (c : CoreId) (grd d a : BitVec 5) (im : BitVec 11) (iw : BitVec 16), Plain s.dev c → guardOn s.dev c grd = true →
       let A : Word32 := BitVec.ofNat 32 (sNow s.dev c a)
       let I : Word32 := im.signExtend 32
       let n := im.toNat % 32
       let into (v : Word32) : Core := Core.after (coreAt s.dev c.val) [(1, toS d v.toNat)]
       Issues (.addi c grd d a im) s c (into (A + I)) ∧ Issues (.andi c grd d a im) s c (into (A &&& I))
       ∧ Issues (.ori c grd d a im) s c (into (A ||| I)) ∧ Issues (.xori c grd d a im) s c (into (A ^^^ I))
       ∧ (im.toNat < 32 → Issues (.shli c grd d a im) s c (into (A <<< n)) ∧ Issues (.shri c grd d a im) s c (into (A >>> n))
           ∧ Issues (.srai c grd d a im) s c (into (A.sshiftRight n)))
       ∧ Issues (.srri c grd d a im) s c (into (if n = 0 then A else BitVec.ofInt 32 ((A.toInt + 2 ^ (n - 1)) / 2 ^ n)))
       ∧ Issues (.movil c grd d iw) s c (into (iw.signExtend 32))
       ∧ Issues (.movih c grd d iw) s c (Core.after (coreAt s.dev c.val) [(1, .write ⟨.s, d.toNat⟩ 0xFFFF0000 (iw.toNat * 2 ^ 16))]))

/-- MOVX copies a register of one file into one of another, PSTAT.IE a cycle later than the rest of PSTAT; VGET takes the 32-bit
lane of a vector register (R172, R217, R218).
Comparisons write all ones or all zeros to Pd; PAND, POR, PANDN, PSET and PCLR act on all 64 bits; Pn rotates with RRB (R163,
R217). -/
def Obligations.ScalarMoves : Prop :=
  (∀ (s : State) (c : CoreId) (grd d : BitVec 5), Plain s.dev c → guardOn s.dev c grd = true →
     (∀ (df : BitVec 3) (src : BitVec 5) (sf : BitVec 3), d.toNat < fileSize df.toNat → src.toNat < fileSize sf.toNat →
       let v := regNow s.dev c ⟨fileOf sf.toNat, src.toNat⟩
       (¬(df = 5 ∧ d = 0) → Issues (.movx c grd d df src sf) s c
         (Core.after (coreAt s.dev c.val) [(1, .write ⟨fileOf df.toNat, d.toNat⟩ all32 v)]))
       ∧ (df = 5 → d = 0 → Issues (.movx c grd d df src sf) s c
         (Core.after (coreAt s.dev c.val) [(1, .write ⟨.ctl, 0⟩ 0x3E v), (2, .write ⟨.ctl, 0⟩ 1 v)])))
     ∧ ∀ (v : BitVec 6) (lane : BitVec 4), Issues (.vget c grd d v lane) s c
         (Core.after (coreAt s.dev c.val) [(1, toS d (vNow s.dev c v / 2 ^ (32 * lane.toNat) % 2 ^ 32))]))
  ∧ (∀ (s : State) (c : CoreId) (grd a b : BitVec 5) (pd pa pb : BitVec 4), Plain s.dev c → guardOn s.dev c grd = true →
       let A : Word32 := BitVec.ofNat 32 (sNow s.dev c a)
       let B : Word32 := BitVec.ofNat 32 (sNow s.dev c b)
       let P : Word64 := BitVec.ofNat 64 (pNow s.dev c pa)
       let Q : Word64 := BitVec.ofNat 64 (pNow s.dev c pb)
       let into (v : Word64) : Core := Core.after (coreAt s.dev c.val) [(1, toP s.dev c pd v.toNat)]
       let test (h : Bool) : Core := into (if h then BitVec.allOnes 64 else 0)
       Issues (.cmpeq c grd pd a b) s c (test (A == B)) ∧ Issues (.cmplt c grd pd a b) s c (test (A.slt B))
       ∧ Issues (.cmpltu c grd pd a b) s c (test (A.ult B)) ∧ Issues (.cmple c grd pd a b) s c (test (A.sle B))
       ∧ Issues (.pand c grd pd pa pb) s c (into (P &&& Q)) ∧ Issues (.por c grd pd pa pb) s c (into (P ||| Q))
       ∧ Issues (.pandn c grd pd pa pb) s c (into (P &&& ~~~Q))
       ∧ Issues (.pset c grd pd) s c (test true) ∧ Issues (.pclr c grd pd) s c (test false))

/-- Branches: the target is TGT × 16 or a register's bits 15 to 4, CALL and CALLR link S31 to the bundle after the two delay
bundles, which issue in every case; BRN branches when bit 0 of its guard is 0; RETI leaves the handler after them (R188, R217,
R219).
LOOP and LOOPE set LBn, LEn and LCn, a count of 0 skips the body after two empty cycles, and LOOPE also sets P15 and clears P8
to P14; RPT repeats the next bundle, a count of 0 meaning 4,096; LOCK opens a window of CNT[3:0] + 1 bundles (R220, R222, R225,
R227). -/
def Obligations.ScalarFlow : Prop :=
  (∀ (s : State) (c : CoreId) (grd a : BitVec 5) (tgt : BitVec 12), Plain s.dev c → guardOn s.dev c grd = true →
     let x := coreAt s.dev c.val
     let link : List (Nat × Landing) := [(1, toS 31 ((x.pc.toNat + 48) % 2 ^ 16))]
     let S := sNow s.dev c a % 2 ^ 16
     Issues (.br c grd tgt) s c (x.branching [] (branchTo (tgt.toNat * 16)))
     ∧ Issues (.brr c grd a) s c (x.branching [] (branchTo S))
     ∧ Issues (.call c grd tgt) s c (x.branching link (branchTo (tgt.toNat * 16)))
     ∧ Issues (.callr c grd a) s c (x.branching link (branchTo S))
     ∧ Issues (.ret c grd) s c (x.branching [] (branchTo (sNow s.dev c 31 % 2 ^ 16)))
     ∧ Issues (.reti c grd) s c (x.branching [] .handler)
     ∧ (grd ≠ 0 → Issues (.brn c grd tgt) s c (x.branching [] .fall)))
  ∧ (∀ (s : State) (c : CoreId) (grd : BitVec 5) (l im : BitVec 1) (cnt : BitVec 7) (tgt : BitVec 12) (k : BitVec 16),
       Plain s.dev c → guardOn s.dev c grd = true →
       let x := coreAt s.dev c.val
       let n := l.toNat
       let count := if im = 1 then cnt.toNat else sNow s.dev c (cnt.setWidth 5)
       let le := tgt.toNat * 16
       let setup : List (Nat × Landing) := [(1, .write ⟨.loop, 4 + n⟩ all32 ((x.pc.toNat + 16) % 2 ^ 16)),
         (1, .write ⟨.loop, 6 + n⟩ all32 le), (1, .write ⟨.loop, n⟩ all32 count)]
       let preds : List (Nat × Landing) := (List.range 8).map fun i => (1, toP s.dev c (BitVec.ofNat 4 (8 + i)) (if i = 7 then all64 else 0))
       let go (ls : List (Nat × Landing)) (e : Bool) : Core :=
         let y := Core.after (if n = 0 then { x with regs := x.regs.modBank x.regs.bank fun b => { b with loopE := e } } else x) ls
         if count = 0 then { y with pc := BitVec.ofNat 16 (le + 16), idle := 2 } else y
       (¬(im = 1 ∧ cnt = 0) → Issues (.loop c grd l im cnt tgt) s c (go setup false)
         ∧ (l = 0 → Issues (.loope c grd l im cnt tgt) s c (go (setup ++ preds) true)))
       ∧ (let r := if im = 1 then k.toNat % 2 ^ 12 else sNow s.dev c (k.extractLsb' 11 5) % 2 ^ 12
          Issues (.rpt c grd im k) s c { x.after [] with rpt := if r = 0 then 4096 else r, inSpan := true, closed := true })
       ∧ (im = 1 → k.extractLsb' 4 8 = 0 → Issues (.lock c grd im k) s c
           { x.after [] with lock := k.toNat % 16, inLock := true, closed := true }))

/-- A guarded syllable of the SC slot whose predicate bit 0 is 0 does nothing: no register, flag or memory changes, and PC goes to
the next bundle; a branch that is not taken still has its two delay bundles, and BRN is then the one that branches (R207, R217,
R219).
A reserved encoding takes exception 1 with IRA at its own bundle, outside a handler: a GRD of 1 to 15, a shift count over 31, a
register that a file does not have, a LOOP of no count, LOOPE of loop 1, a LOCK without I, an unguarded BRN (R189, R208, R217).
What an S register write leaves: its own register holds the value modulo 2^32, in the current bank for S0 to S15, every other
register of every file keeps its value (R162, R174). -/
def Obligations.SyllableRules : Prop :=
  (∀ (s : State) (c : CoreId) (grd d a b : BitVec 5) (im : BitVec 11) (iw : BitVec 16) (pd pa pb : BitVec 4) (tgt : BitVec 12),
     Plain s.dev c → grdLegal grd = true → guardBit (guardNow s.dev c grd) 0 = false →
     let x := coreAt s.dev c.val
     (∀ i ∈ [Instr.add c grd d a b, .sub c grd d a b, .and c grd d a b, .or c grd d a b, .xor c grd d a b, .shl c grd d a b,
         .shr c grd d a b, .sra c grd d a b, .mul c grd d a b, .mulh c grd d a b, .min c grd d a b, .max c grd d a b,
         .addi c grd d a im, .andi c grd d a im, .ori c grd d a im, .xori c grd d a im, .srri c grd d a im, .movil c grd d iw,
         .movih c grd d iw, .cmpeq c grd pd a b, .cmplt c grd pd a b, .cmpltu c grd pd a b, .cmple c grd pd a b,
         .pand c grd pd pa pb, .por c grd pd pa pb, .pandn c grd pd pa pb, .pset c grd pd, .pclr c grd pd, .swi c grd,
         .trap c grd, .wfi c grd], Issues i s c (x.after []))
     ∧ (∀ i ∈ [Instr.br c grd tgt, .brr c grd a, .call c grd tgt, .callr c grd a, .ret c grd, .reti c grd],
         Issues i s c (x.branching [] .fall))
     ∧ Issues (.brn c grd tgt) s c (x.branching [] (branchTo (tgt.toNat * 16))))
  ∧ (∀ (s : State) (c : CoreId) (grd d a src : BitVec 5) (im : BitVec 11) (df sf : BitVec 3) (l j : BitVec 1) (cnt : BitVec 7)
       (tgt : BitVec 12) (k : BitVec 16), Plain s.dev c → (coreAt s.dev c.val).regs.istat.getLsbD 0 = false →
       let illegal (i : Instr) : Prop := Issues i s c ((coreAt s.dev c.val).excAt 1)
       (grdLegal grd = false → illegal (.add c grd d a src) ∧ illegal (.addi c grd d a im) ∧ illegal (.br c grd tgt)
         ∧ illegal (.movx c grd d df src sf) ∧ illegal (.pset c grd 0) ∧ illegal (.swi c grd))
       ∧ (32 ≤ im.toNat → illegal (.shli c grd d a im) ∧ illegal (.shri c grd d a im) ∧ illegal (.srai c grd d a im))
       ∧ (fileSize df.toNat ≤ d.toNat ∨ fileSize sf.toNat ≤ src.toNat → illegal (.movx c grd d df src sf))
       ∧ (cnt = 0 → illegal (.loop c grd l 1 cnt tgt)) ∧ illegal (.loope c grd 1 j cnt tgt)
       ∧ illegal (.lock c grd 0 k) ∧ illegal (.brn c 0 tgt))
  ∧ (∀ (x : Core) (n : BitVec 5) (v lvl dst : Nat) (r : Reg),
       ((x.after [(1, toS n v)]).regs.get x.regs.bank lvl dst r) =
         if r = ⟨.s, n.toNat⟩ then v % 2 ^ 32 else x.regs.get x.regs.bank lvl dst r)

/-- VMOV, VAND, VOR, VXOR and VANDN write the byte lanes that the guard lets through; VBCST writes the low lane-width bits of an S
register to every lane; VSEL writes all lanes, from Va where the guard bit is 1 and else from Vb (R207, R213).
VADD and VSUB wrap modulo the lane, VADDS, VSUBS, VABS and VNEG saturate and raise FSAT for a lane that is clamped; in the
floating-point views the exact result is rounded once (R179 to R181, R213).
VMIN and VMAX are signed; a NaN operand gives NaN and FINV. The order of zeros of unlike sign is the model's free value (see the
assumption log).
The comparisons write the bits of each lane of Pd, all ones or all zeros, where the guard predicate has ones; a NaN makes a
condition false, and no flag is raised (R207, R213). -/
def Obligations.VectorElements : Prop :=
  (∀ (s : State) (c : CoreId) (x1 : Bool) (grd : BitVec 5) (vd va vb : BitVec 6) (t : BitVec 3), Plain s.dev c → grdLegal grd = true →
     let a := vNow s.dev c va
     let b := vNow s.dev c vb
     let bytes (i : Instr) (f : Byte → Byte → Byte) : Prop :=
       VxDoes i s c grd vd 2 8 64 id fun j => ((f (BitVec.ofNat 8 (lane 8 a j)) (BitVec.ofNat 8 (lane 8 b j))).toNat, 0)
     bytes (.vmov c x1 grd vd va vb 0) (fun x _ => x) ∧ bytes (.vand c x1 grd vd va vb 0) (· &&& ·)
     ∧ bytes (.vor c x1 grd vd va vb 0) (· ||| ·) ∧ bytes (.vxor c x1 grd vd va vb 0) (· ^^^ ·)
     ∧ bytes (.vandn c x1 grd vd va vb 0) (fun x y => x &&& ~~~y)
     ∧ (t ≠ 7 → va.toNat < 32 → VxDoes (.vbcst c x1 grd vd va vb t) s c grd vd 2 (elemBits t.toNat) (512 / elemBits t.toNat)
         (elemIdx t.toNat) fun _ => (sNow s.dev c (va.setWidth 5), 0))
     ∧ (t ≠ 7 → ∃ V : Nat, Issues (.vsel c x1 grd vd va vb t) s c ((coreAt s.dev c.val).after
           [(2, .write ⟨.v, physV (rrbNow s.dev c) vd.toNat⟩ (2 ^ 512 - 1) V)])
         ∧ ∀ j < 512 / elemBits t.toNat, lane (elemBits t.toNat) V j =
             lane (elemBits t.toNat) (if guardBit (guardNow s.dev c grd) (elemIdx t.toNat j) then a else b) j))
  ∧ (∀ (s : State) (c : CoreId) (x1 : Bool) (grd : BitVec 5) (vd va vb : BitVec 6) (t : BitVec 3), Plain s.dev c → grdLegal grd = true →
       let w := compBits t.toNat
       let x (j : Nat) : Int := sLane w (vNow s.dev c va) j
       let y (j : Nat) : Int := sLane w (vNow s.dev c vb) j
       let F := fmtOf t.toNat
       let f (j : Nat) : Fp := F.decode (lane w (vNow s.dev c va) j)
       let g (j : Nat) : Fp := F.decode (lane w (vNow s.dev c vb) j)
       let does (i : Instr) (res : Nat → Nat × Nat) : Prop := VxDoes i s c grd vd 2 w (512 / w) (compIdx t.toNat) res
       (isFloat t.toNat = false → t ≠ 7 →
           does (.vadd c x1 grd vd va vb t) (fun j => ((BitVec.ofInt w (x j + y j)).toNat, 0))
           ∧ does (.vsub c x1 grd vd va vb t) (fun j => ((BitVec.ofInt w (x j - y j)).toNat, 0))
           ∧ does (.vadds c x1 grd vd va vb t) (fun j => saturated w (x j + y j))
           ∧ does (.vsubs c x1 grd vd va vb t) (fun j => saturated w (x j - y j))
           ∧ does (.vabs c x1 grd vd va 0 t) (fun j => saturated w (x j).natAbs)
           ∧ does (.vneg c x1 grd vd va 0 t) (fun j => saturated w (-x j)))
       ∧ (isFloat t.toNat = true →
           does (.vadd c x1 grd vd va vb t) (fun j => F.encode ((f j).add (g j)))
           ∧ does (.vsub c x1 grd vd va vb t) (fun j => F.encode ((f j).add (g j).neg))
           ∧ does (.vabs c x1 grd vd va 0 t) (fun j => F.encode (f j).abs)
           ∧ does (.vneg c x1 grd vd va 0 t) (fun j => F.encode (f j).neg)))
  ∧ (∀ (s : State) (c : CoreId) (x1 : Bool) (grd : BitVec 5) (vd va vb : BitVec 6) (t : BitVec 3), Plain s.dev c → grdLegal grd = true →
       t.toNat ≤ 5 →
       let w := compBits t.toNat
       let a := vNow s.dev c va
       let b := vNow s.dev c vb
       let F := fmtOf t.toNat
       let less (p q : Nat) : Bool := if isFloat t.toNat then (F.decode p).lt (F.decode q) else (BitVec.ofNat w p).slt (BitVec.ofNat w q)
       let nan (j : Nat) : Bool := isFloat t.toNat && ((F.decode (lane w a j)).isNan || (F.decode (lane w b j)).isNan)
       ∃ pick : Nat → Bool,
         let least (flip : Bool) (j : Nat) : Nat × Nat :=
           let p := lane w a j
           let q := lane w b j
           if nan j then (F.nan, flagInv)
           else if less p q then (if flip then q else p, 0) else if less q p then (if flip then p else q, 0)
           else (if pick j then p else q, 0)
         VxDoes (.vmin c x1 grd vd va vb t) s c grd vd 2 w (512 / w) (compIdx t.toNat) (least false)
         ∧ VxDoes (.vmax c x1 grd vd va vb t) s c grd vd 2 w (512 / w) (compIdx t.toNat) (least true))
  ∧ (∀ (s : State) (c : CoreId) (x1 : Bool) (grd : BitVec 5) (vd va vb : BitVec 6) (t : BitVec 3), Plain s.dev c → grdLegal grd = true →
       t.toNat ≤ 5 → vd.toNat < 16 →
       let w := compBits t.toNat
       let F := fmtOf t.toNat
       let a (j : Nat) := lane w (vNow s.dev c va) j
       let b (j : Nat) := lane w (vNow s.dev c vb) j
       let does (i : Instr) (cond : Nat → Bool) : Prop := ∃ P : Nat,
         Issues i s c ((coreAt s.dev c.val).after
           [(2, .write ⟨.p, physP (rrbNow s.dev c) vd.toNat⟩ ((guardNow s.dev c grd).getD (2 ^ 64 - 1)) P)])
         ∧ ∀ k < 64, bitAt P k = cond (k / (w / 8))
       if isFloat t.toNat then
         does (.vcmpeq c x1 grd vd va vb t) (fun j => (F.decode (a j)).eq (F.decode (b j)))
         ∧ does (.vcmplt c x1 grd vd va vb t) (fun j => (F.decode (a j)).lt (F.decode (b j)))
         ∧ does (.vcmple c x1 grd vd va vb t) (fun j => (F.decode (a j)).le (F.decode (b j)))
       else
         does (.vcmpeq c x1 grd vd va vb t) (fun j => a j == b j)
         ∧ does (.vcmplt c x1 grd vd va vb t) (fun j => (BitVec.ofNat w (a j)).slt (BitVec.ofNat w (b j)))
         ∧ does (.vcmple c x1 grd vd va vb t) (fun j => (BitVec.ofNat w (a j)).sle (BitVec.ofNat w (b j)))
         ∧ does (.vcmpltu c x1 grd vd va vb t) (fun j => decide (a j < b j)))

/-- Shifts of every lane by IMM6; a count of the lane width or more moves every bit out; VSHRR rounds half up (R179, R213).
VZIPL and VZIPH interleave the low or high halves of two registers, VUZPE and VUZPO take the even or odd lanes of both (R213).
VCJ turns a complex lane by j or −j, VCONJ conjugates, with saturated negations; VCVT converts the lanes that both views have
and clears the rest (R182, R213). -/
def Obligations.VectorShapes : Prop :=
  (∀ (s : State) (c : CoreId) (x1 : Bool) (grd : BitVec 5) (vd va im : BitVec 6) (t : BitVec 3), Plain s.dev c → grdLegal grd = true →
     t.toNat ≤ 2 →
     let w := compBits t.toNat
     let n := im.toNat
     let a (j : Nat) : BitVec w := BitVec.ofNat w (lane w (vNow s.dev c va) j)
     let does (i : Instr) (f : BitVec w → BitVec w) : Prop :=
       VxDoes i s c grd vd 2 w (512 / w) (compIdx t.toNat) fun j => ((f (a j)).toNat, 0)
     does (.vshl c x1 grd vd va im t) (· <<< n) ∧ does (.vshr c x1 grd vd va im t) (· >>> n)
     ∧ does (.vsra c x1 grd vd va im t) (·.sshiftRight n)
     ∧ does (.vshrr c x1 grd vd va im t) (fun x => if n = 0 then x else BitVec.ofInt w ((x.toInt + 2 ^ (n - 1)) / 2 ^ n)))
  ∧ (∀ (s : State) (c : CoreId) (x1 : Bool) (grd : BitVec 5) (vd va vb : BitVec 6) (t : BitVec 3), Plain s.dev c → grdLegal grd = true →
       t ≠ 7 →
       let w := elemBits t.toNat
       let n := 512 / w
       let a (j : Nat) := lane w (vNow s.dev c va) j
       let b (j : Nat) := lane w (vNow s.dev c vb) j
       let both (j : Nat) := if j < n then a j else b (j - n)
       let does (i : Instr) (res : Nat → Nat) : Prop := VxDoes i s c grd vd 2 w n (elemIdx t.toNat) fun j => (res j, 0)
       does (.vzipl c x1 grd vd va vb t) (fun j => if j % 2 = 0 then a (j / 2) else b (j / 2))
       ∧ does (.vziph c x1 grd vd va vb t) (fun j => if j % 2 = 0 then a (j / 2 + n / 2) else b (j / 2 + n / 2))
       ∧ does (.vuzpe c x1 grd vd va vb t) (fun j => both (2 * j)) ∧ does (.vuzpo c x1 grd vd va vb t) (fun j => both (2 * j + 1)))
  ∧ (∀ (s : State) (c : CoreId) (x1 : Bool) (grd : BitVec 5) (vd va im : BitVec 6) (t : BitVec 3), Plain s.dev c → grdLegal grd = true →
       let a := vNow s.dev c va
       let re (j : Nat) : Int := sLane 16 a (j / 2 * 2)
       let jm (j : Nat) : Int := sLane 16 a (j / 2 * 2 + 1)
       let does (i : Instr) (f g : Nat → Int) : Prop :=
         VxDoes i s c grd vd 2 16 32 (compIdx 6) fun j => saturated 16 (if j % 2 = 0 then f j else g j)
       does (.vcj c x1 grd vd va 0 6) (fun j => -jm j) re ∧ does (.vcj c x1 grd vd va 1 6) jm (fun j => -re j)
       ∧ does (.vconj c x1 grd vd va 0 6) re (fun j => -jm j)
       ∧ (t.toNat ≤ 5 → im.toNat ≤ 5 →
           let w := compBits t.toNat
           let u := compBits im.toNat
           VxDoes (.vcvt c x1 grd vd va im t) s c grd vd 2 u (512 / u) (compIdx im.toNat) fun j =>
             if j < 512 / Nat.max w u then
               (match isFloat t.toNat, isFloat im.toNat with
                | true, true => (fmtOf im.toNat).encode ((fmtOf t.toNat).decode (lane w a j))
                | true, false => let r := ((fmtOf t.toNat).decode (lane w a j)).toInt u; ((BitVec.ofInt u r.1).toNat, r.2)
                | false, true => (fmtOf im.toNat).encode (.num false (sLane w a j) 0)
                | false, false => saturated u (sLane w a j))
             else (0, 0)))

/-- VFMA, VFMS and VFMUL round the exact sum or product once and land after four cycles; they are reserved in VX1 (R172, R181,
R213).
The accumulator operations: VMUL sets and VMAC and VMSU add or subtract the products, of byte lanes in pairs for int8; the
complex forms take real parts in even and imaginary parts in odd lanes; VACSET loads, VACZ clears, and VSRS shifts out with one
rounding and saturation (R164, R179, R180, R213, R214). -/
def Obligations.VectorAccumulate : Prop :=
  (∀ (s : State) (c : CoreId) (grd : BitVec 5) (vd va vb : BitVec 6) (t : BitVec 3), Plain s.dev c → grdLegal grd = true →
     isFloat t.toNat = true →
     let w := compBits t.toNat
     let F := fmtOf t.toNat
     let a (j : Nat) := F.decode (lane w (vNow s.dev c va) j)
     let b (j : Nat) := F.decode (lane w (vNow s.dev c vb) j)
     let o (j : Nat) := F.decode (lane w (vNow s.dev c vd) j)
     let does (i : Instr) (r : Nat → Fp) : Prop := VxDoes i s c grd vd 4 w (512 / w) (compIdx t.toNat) fun j => F.encode (r j)
     does (.vfma c false grd vd va vb t) (fun j => (o j).add ((a j).mul (b j)))
     ∧ does (.vfms c false grd vd va vb t) (fun j => (o j).add ((a j).mul (b j)).neg)
     ∧ does (.vfmul c false grd vd va vb t) (fun j => (a j).mul (b j))
     ∧ ((coreAt s.dev c.val).regs.istat.getLsbD 0 = false →
         Issues (.vfma c true grd vd va vb t) s c ((coreAt s.dev c.val).excAt 1)))
  ∧ (∀ (s : State) (c : CoreId) (x1 : Bool) (grd : BitVec 5) (ad va vb im : BitVec 6) (t : BitVec 3), Plain s.dev c → grdLegal grd = true →
       ad.toNat < 8 →
       let w := compBits t.toNat
       let a (j : Nat) : Int := sLane w (vNow s.dev c va) j
       let b (j : Nat) : Int := sLane w (vNow s.dev c vb) j
       let p (j : Nat) : Int := if t = 0 then a (2 * j) * b (2 * j) + a (2 * j + 1) * b (2 * j + 1) else a j * b j
       let cr (sg : Int) (j : Nat) : Int :=
         let h := j / 2 * 2
         if j % 2 = 0 then a h * b h - a (h + 1) * (sg * b (h + 1)) else a h * (sg * b (h + 1)) + a (h + 1) * b h
       (t.toNat ≤ 2 →
           AcDoes (.vmul c false grd ad va vb t) s c grd ad 4 t.toNat false p ∧ AcDoes (.vmac c false grd ad va vb t) s c grd ad 4 t.toNat true p
           ∧ AcDoes (.vmsu c false grd ad va vb t) s c grd ad 4 t.toNat true (fun j => -p j))
       ∧ (t = 6 → AcDoes (.vcmul c false grd ad va vb t) s c grd ad 4 6 false (cr 1) ∧ AcDoes (.vcmac c false grd ad va vb t) s c grd ad 4 6 true (cr 1)
           ∧ AcDoes (.vcmacj c false grd ad va vb t) s c grd ad 4 6 true (cr (-1)))
       ∧ (t = 1 ∨ t = 2 ∨ t = 6 →
           (t = 2 ∨ im.toNat ≤ 31 → AcDoes (.vacset c x1 grd ad va im t) s c grd ad 2 t.toNat false fun j => a j * 2 ^ im.toNat)
           ∧ (t = 2 ∨ im.toNat ≤ 47 → VxDoes (.vsrs c x1 grd va ad im t) s c grd va 2 w (512 / w) (compIdx t.toNat) fun j =>
               let q := sLane (acLane t.toNat) (regNow s.dev c ⟨.ac, ad.toNat⟩) j
               saturated w (if im = 0 then q else (q + 2 ^ (im.toNat - 1)) / 2 ^ im.toNat)))
       ∧ AcDoes (.vacz c x1 grd ad 0 0 0) s c grd ad 2 0 false (fun _ => 0))

/-- Loads from the local memories: bytes and halfwords extended, a doubleword to the pair, 16 bytes to the low part of Vd with the rest
zero, 64 bytes to all of it; they land after five cycles, An is updated at once, and no memory changes (R166, R172, R211, R215). -/
def Obligations.LoadsComplete : Prop :=
  ∀ (s : State) (c : CoreId) (grd : BitVec 5) (r : BitVec 6) (an : BitVec 4) (upd : BitVec 2) (ofs : BitVec 9),
    Plain s.dev c → guardOn s.dev c grd = true → (upd = 1 ∨ upd = 3 → ofs.toNat % 32 = 0) →
    let w (op : BitVec 6) : Word32 := lmWord grd op r an upd ofs
    let sx (n : Nat) (v : Nat) : Nat := ((BitVec.ofNat n v).signExtend 32).toNat
    let toR (v : Nat) : List (Nat × Landing) := [(5, .write ⟨.s, r.toNat⟩ all32 v)]
    let toV (v : Nat) : List (Nat × Landing) := [(5, .write ⟨.v, physV (rrbNow s.dev c) r.toNat⟩ (2 ^ 512 - 1) v)]
    (r.toNat < 32 →
        Loads (.ldb c grd r an upd ofs) s c (w 0x01) (fun v => toR (sx 8 v)) ∧ Loads (.ldbu c grd r an upd ofs) s c (w 0x02) toR
        ∧ Loads (.ldh c grd r an upd ofs) s c (w 0x03) (fun v => toR (sx 16 v)) ∧ Loads (.ldhu c grd r an upd ofs) s c (w 0x04) toR
        ∧ Loads (.ldw c grd r an upd ofs) s c (w 0x05) toR
        ∧ (r.toNat % 2 = 0 → Loads (.ldd c grd r an upd ofs) s c (w 0x06) fun v =>
            [(5, .write ⟨.s, r.toNat⟩ all32 (v % 2 ^ 32)), (5, .write ⟨.s, r.toNat + 1⟩ all32 (v / 2 ^ 32))]))
    ∧ Loads (.ldq c grd r an upd ofs) s c (w 0x07) toV ∧ Loads (.vld c grd r an upd ofs) s c (w 0x08) toV

/-- Stores to the local memories: the low bytes of Sn, of the pair, or of Vn (R166, R211, R215, R245). -/
def Obligations.StoresComplete : Prop :=
  ∀ (s : State) (c : CoreId) (grd : BitVec 5) (r : BitVec 6) (an : BitVec 4) (upd : BitVec 2) (ofs : BitVec 9),
    Plain s.dev c → guardOn s.dev c grd = true → (upd = 1 ∨ upd = 3 → ofs.toNat % 32 = 0) →
    let w (op : BitVec 6) : Word32 := lmWord grd op r an upd ofs
    let S (k : Nat) : Nat := regNow s.dev c ⟨.s, r.toNat + k⟩
    let V : Nat := vNow s.dev c r
    (r.toNat < 32 →
        Stores (.stb c grd r an upd ofs) s c (w 0x09) (S 0) ∧ Stores (.sth c grd r an upd ofs) s c (w 0x0A) (S 0)
        ∧ Stores (.stw c grd r an upd ofs) s c (w 0x0B) (S 0)
        ∧ (r.toNat % 2 = 0 → Stores (.std c grd r an upd ofs) s c (w 0x0C) (S 0 + S 1 * 2 ^ 32)))
    ∧ Stores (.stq c grd r an upd ofs) s c (w 0x0D) V ∧ Stores (.vst c grd r an upd ofs) s c (w 0x0E) V

/-- The address of an access and the update of An: An plus OFS × width without an update, else An itself; the update is linear modulo
2^32 for A8 to A15 and where Ln is 0, else it stays in the circular buffer, at the offset (An − Bn + m) modulo Ln (R176, R177, R211).
An access that is not aligned to its width takes exception 2, one that reaches no local memory, stream or register takes exception 3;
neither updates An nor a memory (R166, R167, R189, R191). -/
def Obligations.Addressing : Prop :=
  (∀ (s : Device) (c : CoreId) (grd : BitVec 5) (op r : BitVec 6) (an : BitVec 4) (ofs : BitVec 9), 1 ≤ op.toNat → op.toNat ≤ 0x0E →
     let A := regNow s c ⟨.a, an.toNat⟩
     let B := regNow s c ⟨.b, an.toNat⟩
     let L := regNow s c ⟨.l, an.toNat⟩
     let M := (BitVec.ofNat 32 (regNow s c ⟨.m, ofs.toNat / 32⟩)).toInt
     let step := ofs.toInt * lsWidth op.toNat
     let linear (m : Int) : Nat := (BitVec.ofInt 32 (A + m)).toNat
     let at' (upd : BitVec 2) := lsAddress (lmWord grd op r an upd ofs) (regNow s c)
     at' 0 = (linear step, none)
     ∧ ∀ upd : BitVec 2, upd ≠ 0 → (at' upd).1 = A ∧ ∃ v, (at' upd).2 = some (⟨.a, an.toNat⟩, v)
         ∧ (upd ≠ 3 → 8 ≤ an.toNat ∨ L = 0 → v = linear (if upd = 1 then M else step))
         ∧ (upd ≠ 3 → an.toNat < 8 → 0 < L → B + L ≤ 2 ^ 32 →
             B ≤ v ∧ v < B + L ∧ ((v : Int) - B) % L = ((A : Int) - B + if upd = 1 then M else step) % L)
         ∧ (upd = 3 → 8 ≤ an.toNat → v = linear M))
  ∧ (∀ (s : State) (c : CoreId) (grd : BitVec 5) (r : BitVec 6) (an : BitVec 4) (upd : BitVec 2) (ofs : BitVec 9),
       Plain s.dev c → guardOn s.dev c grd = true → (upd = 1 ∨ upd = 3 → ofs.toNat % 32 = 0) →
       (coreAt s.dev c.val).regs.istat.getLsbD 0 = false →
       let stops (i : Instr) (op : BitVec 6) : Prop :=
         let a := (lsAddress (lmWord grd op r an upd ofs) (regNow s.dev c)).1
         let n := lsWidth op.toNat
         (a % n ≠ 0 → Issues i s c ((coreAt s.dev c.val).excAt 2))
         ∧ (a % n = 0 → localMem a = none → ¬(0x40000 ≤ a ∧ a < 0x40050) → ¬(0x50000 ≤ a ∧ a < 0x60000) →
             Issues i s c ((coreAt s.dev c.val).excAt 3))
       (r.toNat < 32 → stops (.ldb c grd r an upd ofs) 0x01 ∧ stops (.ldhu c grd r an upd ofs) 0x04 ∧ stops (.ldw c grd r an upd ofs) 0x05
           ∧ stops (.stb c grd r an upd ofs) 0x09 ∧ stops (.sth c grd r an upd ofs) 0x0A ∧ stops (.stw c grd r an upd ofs) 0x0B)
       ∧ stops (.ldq c grd r an upd ofs) 0x07 ∧ stops (.vld c grd r an upd ofs) 0x08 ∧ stops (.stq c grd r an upd ofs) 0x0D
       ∧ stops (.vst c grd r an upd ofs) 0x0E)

/-- Stream ports: a 16-byte load takes the oldest token of L_IN, a 16-byte store appends to L_OUT while it has room for it, in plain flow
(R201, R202).
Exclusive accesses: the bundle sends one atomic request with the 48-bit address of the pair SA, SA + 1 and is held; once the answer
is there the bundle issues: LDX writes SD, or the pair, STX writes PD with all ones for success and zeros for failure (R200, R216). -/
def Obligations.SharedAccess : Prop :=
  (∀ (s : State) (c : CoreId) (grd : BitVec 5) (r : BitVec 6) (an : BitVec 4) (ofs : BitVec 9),
     Plain s.dev c → guardOn s.dev c grd = true → (coreAt s.dev c.val).enL = true →
     let x := coreAt s.dev c.val
     let a (op : BitVec 6) := (lsAddress (lmWord grd op r an 0 ofs) (regNow s.dev c)).1
     let io := coreIoAt s.dev c.val
     let does (i : Instr) (ls : List (Nat × Landing)) (io' : CoreIo) : Prop := Completes i s fun d =>
       d = { s.dev with cores := d.cores, coreIo := d.coreIo, free := d.free } ∧ coreAt d c.val = x.after ls
       ∧ (∀ m, m ≠ c.val → coreAt d m = coreAt s.dev m ∧ coreIoAt d m = coreIoAt s.dev m) ∧ coreIoAt d c.val = io'
     (∀ t q, a 0x07 = 0x40000 → io.lIn = t :: q → does (.ldq c grd r an 0 ofs)
         [(5, .write ⟨.v, physV (rrbNow s.dev c) r.toNat⟩ (2 ^ 512 - 1) t.toNat)] { io with lIn := q })
     ∧ (a 0x0D = 0x40020 → io.lOut.length < 2 → does (.stq c grd r an 0 ofs) []
         { io with lOut := io.lOut ++ [BitVec.ofNat 128 (vNow s.dev c r)] }))
  ∧ (∀ (s : State) (c : CoreId) (grd sd sa : BitVec 5) (pd : BitVec 4), Plain s.dev c → guardOn s.dev c grd = true →
       sa.toNat % 2 = 0 →
       let x := coreAt s.dev c.val
       let a := sNow s.dev c sa + regNow s.dev c ⟨.s, sa.toNat + 1⟩ % 2 ^ 16 * 2 ^ 32
       let lo := sNow s.dev c sd
       let hi := regNow s.dev c ⟨.s, sd.toNat + 1⟩
       let sends (i : Instr) (opc : AtType) (n v : Nat) (w : Word32) : Prop := x.hold = .none → a % n = 0 →
         ∀ q p, issue (initFrozen s.dev (lsInit c.val)) .atomic opc
             { init := lsInit c.val, tag := none, enters := false, odd := none, addr := BitVec.ofNat 48 a, len := 0, bcnt := BitVec.ofNat 8 (n - 1), data := [],
               opA := BitVec.ofNat 64 v, opB := 0 } s.dev = some (q, p) →
           coreAt q c.val = x → Completes i s fun d => d = { q with cores := d.cores, trl := { q.trl with net := q.trl.net ++ [p] } }
             ∧ coreAt d c.val = { x with hold := .excl, held := some (bundleOf 2 w), stall := 0 }
             ∧ ∀ m, m ≠ c.val → coreAt d m = coreAt q m
       let ends (i : Instr) (n : Nat) (ok : Byte → List (Nat × Landing)) : Prop :=
         ∀ rc v, x.hold = .answered rc v → isErr rc = false → x.dbg.cut = false → a % n = 0 → Issues i s c (x.after (ok rc))
       let val : Word64 := match x.hold with | .answered _ v => v | _ => 0
       let done (rc : Byte) : List (Nat × Landing) := [(1, toP s.dev c pd (if rc = rcOkay then all64 else 0))]
       sends (.ldxW c grd sd sa pd) .xload 4 0 (lxWord grd 0x0F sd sa pd)
       ∧ sends (.stxW c grd sd sa pd) .xstore 4 lo (lxWord grd 0x11 sd sa pd)
       ∧ ends (.ldxW c grd sd sa pd) 4 (fun _ => [(1, toS sd (val.toNat % 2 ^ 32))]) ∧ ends (.stxW c grd sd sa pd) 4 done
       ∧ (sd.toNat % 2 = 0 →
           sends (.ldxD c grd sd sa pd) .xload 8 0 (lxWord grd 0x10 sd sa pd)
           ∧ sends (.stxD c grd sd sa pd) .xstore 8 (lo + hi * 2 ^ 32) (lxWord grd 0x12 sd sa pd)
           ∧ ends (.ldxD c grd sd sa pd) 8 (fun _ => [(1, toS sd (val.toNat % 2 ^ 32)), (1, .write ⟨.s, sd.toNat + 1⟩ all32 (val.toNat / 2 ^ 32))])
           ∧ ends (.stxD c grd sd sa pd) 8 done))

/-- Writes of a core's registers: CORE_CTL starts an idle core with the state of R162 cleared and PC and VBASE loaded, and stops an
active one; TIMER_LOAD loads the count, WDT_SERVICE reloads the watchdog with its word, the doorbell makes sources 16 to 31 pend,
STREAM_CTL.CLR empties the inbound FIFOs of an idle core, and DMA_CTL.START starts an idle channel on a legal transfer, which a core that
stops ends at once as aborted, and is refused otherwise (R183, R192, R194, R199, R203).
The end of a start and of a stop: an active core, and an idle one with its watchdog control reset; an idle core whose EN was
written meanwhile starts at once (R41, R192, R196). -/
def Obligations.CoreRegisters : Prop :=
  (∀ (s : State) (i : InitId) (c : CoreId), MgmtQuiet s.dev →
     let x := coreAt s.dev c.val
     let writes (off v : Nat) : Prop := RegAccepts s.dev i (.core c.val) (coreOff c.val) off v (2 ^ 32 - 1)
     (writes 0 1 → x.st = .idle → (coreIoAt s.dev c.val).unusable = false → Completes (.coreCtl i c true) s fun d =>
       ∃ y, d = okay (setCore c.val y (csrRecord i (coreOff c.val) (bit x.en 0) 1 s.dev)) ∧ y.en = true ∧ y.st = .starting
         ∧ y.pc = x.bootPc ∧ y.regs = { CoreRegs.zero with vbase := x.bootVbase } ∧ y.flights = [] ∧ y.exc = none ∧ y.wfi = false
         ∧ y.dma0 = x.dma0 ∧ y.dma1 = x.dma1 ∧ y.timerLoad = x.timerLoad ∧ y.wdtCnt = (if x.wdtPeriod = 0 then 1 else x.wdtPeriod))
     ∧ (writes 0 0 → x.st = .active → Completes (.coreCtl i c false) s fun d =>
       ∃ y, d = okay (setCore c.val y (csrRecord i (coreOff c.val) (bit x.en 0) 0 s.dev)) ∧ y.en = false ∧ y.st = .stopping
         ∧ y.lastStop = 1 ∧ y.flights = [] ∧ y.regs = x.regs.landAll x.flights ∧ y.pc = x.pc)
     ∧ (∀ v, writes 0x24 v.toNat → Completes (.timerLoad i c v) s fun d =>
       d = okay (setCore c.val { x with timerLoad := v, timerCnt := v } s.dev))
     ∧ (writes 0x3C 0x5AFE → Completes (.wdtService i c 0x5AFE) s fun d =>
       d = okay (setCore c.val { x with wdtCnt := if x.wdtPeriod = 0 then 1 else x.wdtPeriod, wdtStage := false } s.dev))
     ∧ (∀ v, writes 0x18 v.toNat → Completes (.doorbell i c v) s fun d =>
       d = okay (setCore c.val { x with regs := { x.regs with ipend := x.regs.ipend ||| (v.setWidth 32 <<< 16) } } s.dev))
     ∧ (∀ l u tmo, writes 0x48 (bit l 0 + bit u 1 + 4 + tmo.toNat * 2 ^ 16) → x.st = .idle → Completes (.streamCtlClr i c l u tmo) s fun d =>
       let y := { x with enL := l, enU := u, tmo }
       let e := setCore c.val y (csrRecord i (coreOff c.val + 0x48) (streamCtl x) (streamCtl y) s.dev)
       d = okay (setCoreIo c.val { coreIoAt e c.val with lIn := [], uIn := [] } e))
     ∧ ∀ (ch : Fin 2) (m : BitVec 3) (irq : Bool), writes (0x114 + 0x40 * ch.val) (1 + m.toNat * 2 + bit irq 4) →
       let q := dmaOf x ch.val
       let legal := !q.busy && decide (0 < q.len.toNat ∧ q.len.toNat ≤ 2 ^ 24 ∧ m.toNat ≤ 4) && (m = 0 || q.len.toNat % 16 = 0)
         && (!(m = 1 || m = 2) || q.dst.toNat % 16 = 0) && (!(m = 3 || m = 4) || q.src.toNat % 16 = 0)
       Completes (.dmaStart i c ch m irq) s fun d => ∃ q', d = okay (setCore c.val (setDma ch.val q' x) s.dev) ∧ q'.smode = m ∧ q'.irq = irq
         ∧ if legal then q'.busy = true ∧ q'.stop = (if x.st = .stopping ∨ x.st = .fault then some 0xFF else none) ∧ q'.tLen = q.len.toNat ∧ q'.tMode = m.toNat ∧ q'.tSrc = q.src.toNat % 2 ^ 48
             ∧ q'.tDst = q.dst.toNat % 2 ^ 48 ∧ q'.next = 0 ∧ q'.put = 0 ∧ q'.fin = 0 ∧ q'.code = q.code ∧ q'.refused = q.refused
           else q' = { q with smode := m, irq, refused := true })
  ∧ (∀ (s : State) (c : CoreId), MgmtQuiet s.dev → s.dev.start.due = false →
       let x := coreAt s.dev c.val
       (x.st = .starting → x.pendStop = false → Completes (.coreStartComplete c) s fun d => d = setCore c.val { x with st := .active } s.dev)
       ∧ (x.st = .starting → x.pendStop = true → Completes (.coreStartComplete c) s fun d => ∃ y, d = setCore c.val y s.dev
           ∧ y.st = .stopping ∧ y.lastStop = x.lastStop)
       ∧ (x.st = .stopping → x.dma0.busy = false → x.dma1.busy = false → (coreIoAt s.dev c.val).lOut = [] → (coreIoAt s.dev c.val).uOut = [] →
           (x.en = false → Completes (.coreStopComplete c) s fun d => d = setCore c.val { x with
             st := .idle, wdtEn := false, wdtAction := false, wdtLock := false, wdtStage := false, deferral := none } s.dev)
           ∧ (x.en = true → x.deferral = none → Completes (.coreStopComplete c) s fun d => ∃ y, d = setCore c.val y s.dev
               ∧ y.st = .starting ∧ y.en = true ∧ y.pc = x.bootPc ∧ y.regs = { CoreRegs.zero with vbase := x.bootVbase })))

/-- SWI makes source 8 pend, TRAP takes exception 7 with the address of the next bundle, WFI holds issue, and NOP does nothing in
any slot (R183, R189, R217).
Events of an active core: an interrupt enters its handler in the other bank with IRA, IPSTAT and ISTAT saved and PSTAT cleared, its
edge source no longer pends and its reservations end; WFI ends; the timer makes source 0 pend and reloads if periodic; the first expiry
of a watchdog whose ACTION is 1 makes source 1 pend; a DMA transfer ends with DONE and its source; a stream access that has waited
longer than TMO takes exception 6 (R183 to R189, R193, R195, R199 to R202, R217). -/
def Obligations.CoreEvents : Prop :=
  (∀ (s : State) (c : CoreId) (grd : BitVec 5) (slot : Fin 4), Plain s.dev c → guardOn s.dev c grd = true →
     let x := (coreAt s.dev c.val).after []
     Issues (.swi c grd) s c { x with regs := { x.regs with ipend := x.regs.ipend ||| 0x100 } }
     ∧ ((coreAt s.dev c.val).regs.istat.getLsbD 0 = false → Issues (.trap c grd) s c { x with exc := some (7, x.pc, true) })
     ∧ Issues (.wfi c grd) s c { x with wfi := true }
     ∧ Issues (.nop c slot) s c x)
  ∧ (∀ (s : State) (c : CoreId), MgmtQuiet s.dev →
       let x := coreAt s.dev c.val
       let pends (y : Core) (m : Word32) : Core := { y with regs := { y.regs with ipend := y.regs.ipend ||| m } }
       (∀ src : Nat, x.exc = none → haltDue s.dev c.val = false → interruptDue s.dev c.val = some src → x.flights = [] →
         Completes (.interruptEntry c) s fun d =>
           d = { s.dev with cores := d.cores, trl := { s.dev.trl with resvs := s.dev.trl.resvs.filter fun r => r.init ≠ lsInit c.val } }
           ∧ (∀ n, n ≠ c.val → coreAt d n = coreAt s.dev n)
           ∧ let y := coreAt d c.val
             y.regs.bank = !x.regs.bank ∧ y.regs.ira = x.pc ∧ y.regs.ipstat = x.regs.pstat.setWidth 32 ∧ y.regs.pstat = 0
             ∧ y.regs.istat.toNat = (1 + src * 4 + 128) % 2 ^ 8 ∧ y.pc = x.regs.vbase + BitVec.ofNat 16 (0x40 * (src + 1))
             ∧ y.regs.ipend = (if bitAt levelMask src then x.regs.ipend else x.regs.ipend &&& ~~~(1#32 <<< src))
             ∧ y.regs.v = x.regs.v ∧ y.regs.ac = x.regs.ac ∧ y.regs.p = x.regs.p ∧ y.regs.main = x.regs.main ∧ y.regs.shadow = x.regs.shadow
             ∧ y.lock = 0 ∧ y.rpt = 0 ∧ y.branch = none)
       ∧ (x.st = .active → x.wfi = true → (enabledSource s.dev c.val).isSome = true → Completes (.wfiWake c) s fun d =>
           d = setCore c.val { x with wfi := false } s.dev)
       ∧ (timerRuns s.dev c.val = true → x.timerCnt = 1 → Completes (.timer c) s fun d =>
           coreAt d c.val = pends { x with timerCnt := if x.periodic then x.timerLoad else 0 } 1 ∧ onlyCore s.dev d c)
       ∧ (wdtRuns s.dev c.val = true → x.wdtCnt = 1 → x.dbg.halted = false → stalledNow s.dev c.val = false → x.wdtStage = false → x.wdtAction = true →
           Completes (.wdtExpiry c) s fun d => onlyCore s.dev d c ∧
             coreAt d c.val = pends { x with wdtCnt := if x.wdtPeriod = 0 then 1 else x.wdtPeriod, wdtStage := true } 2)
       ∧ (∀ ch : Fin 2, let q := dmaOf x ch.val
           q.busy = true → q.reads = [] → q.writes = [] → q.stop = none → q.fin = q.tLen → Completes (.dmaDone c ch) s fun d =>
             onlyCore s.dev d c ∧ coreAt d c.val = (let y := setDma ch.val { q with busy := false, done := true } x
               if q.irq then pends y (1#32 <<< (2 + ch.val)) else y))
       ∧ (∀ n r an ofs tk q, x.hold = .stream n → x.held = some (bundleOf 2 (lmWord 0 0x07 r an 0 ofs)) → stalledNow s.dev c.val = false →
           x.dbg.feeding = false → x.flights = [] → x.branch = none → x.lock = 0 → x.rpt = 0 → endsAt x.regs.cur 0 x.pc = false →
           endsAt x.regs.cur 1 x.pc = false → (lsAddress (lmWord 0 0x07 r an 0 ofs) (regNow s.dev c)).1 = 0x40000 → x.enL = true →
           (coreIoAt s.dev c.val).lIn = tk :: q → Completes (.streamStallEnd c) s fun d =>
             d = { s.dev with cores := d.cores, coreIo := d.coreIo, free := d.free }
             ∧ coreAt d c.val = { x.after [(5, .write ⟨.v, physV (rrbNow s.dev c) r.toNat⟩ (2 ^ 512 - 1) tk.toNat)] with
                 held := none, stall := 0, idle := 0, wfi := false, returning := false }
             ∧ coreIoAt d c.val = { coreIoAt s.dev c.val with lIn := q }
             ∧ ∀ m, m ≠ c.val → coreAt d m = coreAt s.dev m ∧ coreIoAt d m = coreIoAt s.dev m)
       ∧ (∀ n, x.hold = .stream n → x.tmo ≠ 0 → x.tmo.toNat * 1024 ≤ n → x.dbg.feeding = false → x.regs.istat.getLsbD 0 = false →
           Completes (.streamTmo c) s fun d => onlyCore s.dev d c ∧
             coreAt d c.val = { x with exc := some (6, x.pc, !x.fragile), hold := .none, held := none }))

/-! ## Shells and registers -/

/-- CTL and CAL of a shell: EN moves the state machine, MSPEC is stored, a stop aborts a calibration with RESULT 3, a start loads the
written trim and, for a bed clock, samples LOCK_CFG and FREE_CODE; CAL.START runs a calibration of a kind that the macro has in ACTIVE and
is refused with RESULT 3 elsewhere; a PHY's stop aborts its retraining (R37 to R39, R95, R102, R105, R515).
Events of a shell: a calibration ends with RESULT 1 or 2, a start reaches ACTIVE, a stop reaches IDLE, a measurement is numbered and
valid, and a macro fault stops the shell in FAULT with ERR set while EN is 1 and raises a report with CAUSE 3; a generator that fails its
calibration faults so, and one without its reference does not start (R37, R39, R40, R100, R103, R609). A shell whose window the spec
gives no address reports the model's own class (log 157). -/
def Obligations.Shells : Prop :=
  (∀ (s : State) (i : InitId) (id : ShellId), MgmtQuiet s.dev → LaneQuiet s.dev id →
     let x := shellAt s.dev id
     (∀ v : Word32, ShellAccepts s.dev i id 0 v.toNat →
       (∀ b, id = .gen b → ¬((v.extractLsb' 1 2).toNat = 2 ∧ s.dev.trust.lifecycle = .deployed)) →
       let w := v.toNat &&& ctlMask id
       let en := v.getLsbD 0
       ¬(en = true ∧ x.en = false ∧ (x.st = .stopping ∨ (x.st = .starting ∧ x.pendStop = true))) →
       (∀ c, id = .phy c → MemCalm s.dev) →
       Completes (.shellCtlWrite i id v) s fun d => ∃ y : Shell,
         y.st = shellNext x.st en ∧ y.en = en ∧ y.mspec = BitVec.ofNat 15 (w / 2)
         ∧ y.pendStop = (if x.st = .starting ∧ en = false then true else if x.st = .idle ∧ en = true then false else x.pendStop)
         ∧ (y.start, y.result) = (if x.st = .active ∧ en = false ∧ x.start = true then (false, 3) else (x.start, x.result))
         ∧ y.applied = (if x.st = .idle ∧ en = true then x.trim else x.applied) ∧ y.err = x.err ∧ y.trim = x.trim ∧ y.trimLock = x.trimLock
         ∧ y.measVal = x.measVal ∧ y.measSeq = x.measSeq ∧ y.mstat = x.mstat
         ∧ match id with
           | .gen b => d = okay (setBed b.val { bedAt s.dev b.val with clock :=
                 if x.st = .idle ∧ en = true then
                   { (bedAt s.dev b.val).clock with lockEff := (bedAt s.dev b.val).clock.lockCfg, freeEff := (bedAt s.dev b.val).clock.freeCode }
                 else if x.st = .active ∧ en = false then { (bedAt s.dev b.val).clock with stopDue := true }
                 else (bedAt s.dev b.val).clock } (setShell id y (ctlRecorded s.dev i id w)))
               ∨ ((x.st ≠ .idle ∨ en = false) ∧ (x.st ≠ .active ∨ en = true) ∧ d = okay (setShell id y (ctlRecorded s.dev i id w)))
           | .phy c => d = okay (if x.st = .active ∧ en = false
               then modCh c.val (fun z => { z with retrain := none }) (setShell id y (ctlRecorded s.dev i id w))
               else setShell id y (ctlRecorded s.dev i id w))
           | _ => d = okay (hushed id (setShell id y (ctlRecorded s.dev i id w))))
     ∧ ∀ (kind : BitVec 3) (cont : Bool), ShellAccepts s.dev i id 4 (1 + kind.toNat * 2 + bit cont 4) → x.start = false →
         (∀ c, id ≠ .phy c) → Completes (.calStart i id kind cont) s fun d =>
           d = okay (setShell id (if x.st = .active ∧ kindOk id kind.toNat = true then { x with kind, cont, start := true }
             else { x with kind, cont, result := 3 }) s.dev))
  ∧ (∀ (s : State) (id : ShellId), MgmtQuiet s.dev → LaneQuiet s.dev id → s.dev.start.due = false →
       let x := shellAt s.dev id
       (∀ pass lat eye, x.start = true → (∀ l, id = .pma l → pass = true → x.kind ≠ 3 ∧ x.kind ≠ 4) → (∀ c, id ≠ .phy c) →
         (∀ b, id = .gen b → pass = true) → Completes (.calibrationComplete id pass lat eye) s fun d =>
           d = hushed id (setShell id { x with start := false, result := if pass then 1 else 2 } s.dev))
       ∧ (∀ c lat eye n, id = .phy c → x.start = true → (chAt s.dev c.val).retrain = some n → MemCalm s.dev →
         Completes (.calibrationComplete id true lat eye) s fun d =>
           d = setShell id { x with start := false, result := 1 } (modCh c.val (fun y => { y with retrain := none, eye := eye.extractLsb' 8 16 }) s.dev))
       ∧ (∀ b lat eye, id = .gen b → x.start = true → x.st = .active → x.en = true → x.deferral = none → (bedAt s.dev b.val).st ≠ .running →
         (bedAt s.dev b.val).st ≠ .waiting → Completes (.calibrationComplete id false lat eye) s fun d =>
           let t := raise (.bed b) 2 0x03 (csrBase + shellOff id)
             (setShell id { x with start := false, result := 2, err := true, pendStop := false, st := .fault } s.dev)
           d = if (bedAt s.dev b.val).st = .paused then modBed b.val (fun y => { y with st := .stopped }) t else t)
       ∧ (∀ l lat eye, id = .pma l → x.start = true → x.kind = 3 → Completes (.calibrationComplete id true lat eye) s fun d =>
           (laneAt d l.val).pmaLat = lat ∧ shellAt d id = { x with start := false, result := 1 })
       ∧ (∀ v, x.st = .starting → x.pendStop = false →
           (∀ c : ChanId, id = .phy c → Completes (.shellStartComplete id true v) s fun d =>
             d = setShell id { x with st := .active, measValid := false } s.dev)
           ∧ (∀ c : ChanId, id = .phy c → Completes (.shellStartComplete id false v) s fun d =>
             d = setShell id { x with st := .idle, en := false } s.dev)
           ∧ (((∃ l : LaneId, id = .pma l) ∨ shellHidden id = true) → Completes (.shellStartComplete id true v) s fun d =>
             d = setShell id { x with st := .active, measValid := false } s.dev)
           ∧ (∀ g : BankId, id = .gpio g → vccoOk (x.sampled.toNat % 16) v.toNat = true →
               Completes (.shellStartComplete id true v) s fun d => d = setShell id
                 { x with st := .active, mstat := 1, measVal := v, measSeq := x.measSeq + 1, measValid := true } s.dev)
           ∧ (∀ b : BedId, id = .gen b → refFound s.dev b.val = false → Completes (.shellStartComplete id true v) s fun d => d = s.dev)
           ∧ (∀ b : BedId, id = .gen b → lockTooFast s.dev b.val = false → refFound s.dev b.val = true → (bedAt s.dev b.val).st ≠ .committed →
               (bedAt s.dev b.val).st ≠ .stopped → Completes (.shellStartComplete id true v) s fun d => d = setShell id { x with
                 st := .active, measValid := false, mstat := if genMode x = 1 then x.mstat ||| 1 else x.mstat &&& ~~~1#16 }
                 (modBed b.val (fun y => { y with clock := { y.clock with refFreq := (reference s.dev b.val).getD 0 } }) s.dev)))
       ∧ (x.st = .stopping → x.en = false → (∀ b, id ≠ .gen b) → Completes (.shellStopComplete id) s fun d =>
           d = hushed id (setShell id { x with st := .idle, deferral := none } s.dev))
       ∧ (∀ v, x.st = .active → (∀ c, id ≠ .phy c) → Completes (.shellMeasurement id v) s fun d =>
           d = setShell id { x with measVal := v, measSeq := x.measSeq + 1, measValid := true } s.dev)
       ∧ (shellHidden id = true → x.st = .active → x.en = true → x.deferral = none → Completes (.shellMacroFault id) s fun d => ∃ y,
           d = raise (shellSource id) (Config.shellFault id) 0x03 (csrBase + shellOff id) (setShell id y s.dev) ∧ y.st = .fault ∧ y.err = true
           ∧ (y.start, y.result) = (if x.start then (false, 3) else (x.start, x.result)))
       ∧ (∀ g : BankId, id = .gpio g → x.st = .active → x.en = true → x.deferral = none → Completes (.shellMacroFault id) s fun d => ∃ y,
           d = raise (shellSource id) 2 0x03 (csrBase + shellOff id) (setShell id y s.dev) ∧ y.st = .fault ∧ y.err = true ∧ y.mstat = 0
           ∧ (y.start, y.result) = (if x.start then (false, 3) else (x.start, x.result))))

/-- A register write: an address in no block is answered DECODE_ERROR, a block of another plot ACCESS_DENIED with a C0 note, a wrong width
or alignment BAD_ACCESS, each without effect; an offset with no register is ignored, and any other write has its register's effect
(R8, R9, R11, R31, R32).
Halves of a 64-bit register: a read of the lower half latches the upper half for its initiator, a read of the upper half returns what
was latched for the same initiator and else the upper half as it stands, and clears no latch; a read of TB_NOW latches SEC (R10, R403). -/
def Obligations.RegisterWrite : Prop :=
  (∀ (s : State) (acc : CsrAcc), MgmtQuiet s.dev →
     let o := acc.addr.toNat - csrBase
     let i := acc.init
     (blkOf o = none → Completes (.csrWrite acc) s fun d => d = { s.dev with answer := some (rcDecode, 0) })
     ∧ ∀ b blk, blkOf o = some (b, blk) →
       let w := regWrite (blkWidth b) (o - blk) acc.size acc.data.toNat
       (csrOpen s.dev i (stampPlot s.dev i) b (o - blk) = false → Completes (.csrWrite acc) s fun d =>
         d = { noteAccess i acc.addr.toNat s.dev with answer := some (rcDenied, 0) })
       ∧ (csrOpen s.dev i (stampPlot s.dev i) b (o - blk) = true →
           (w = none → Completes (.csrWrite acc) s fun d => d = { s.dev with answer := some (rcBad, 0) })
           ∧ (w = some none → Completes (.csrWrite acc) s fun d => d = okay s.dev)
           ∧ (∀ r v m e, w = some (some (r, v, m)) → RegAccepts s.dev i b blk r v m → blkWrite i b blk r v m s.dev = some e →
               e.trust = s.dev.trust → e.bist = s.dev.bist → MgmtQuiet e → Completes (.csrWrite acc) s fun d => d = okay e)))
  ∧ (∀ (s : State) (i : InitId),
       (∀ b blk off, blkOf (blk + off) = some (b, blk) → blkOf (blk + off + 4) = some (b, blk) → blkWidth b off = some (off, 64) →
         blkWidth b (off + 4) = some (off, 64) → b ≠ .tim → (∀ c, b ≠ .core c) →
         csrOpen s.dev i (stampPlot s.dev i) b off = true → csrOpen s.dev i (stampPlot s.dev i) b (off + 4) = true → blk + off + 4 < 2 ^ 28 →
         let v := blkRead s.dev b off
         let a (k : Nat) : BitVec 48 := BitVec.ofNat 48 (csrBase + blk + off + k)
         (Completes (.halfRead i (a 0)) s fun d => d = { setLatch i (blk + off) (v / 2 ^ 32 % 2 ^ 32) s.dev with
             answer := some (rcOkay, BitVec.ofNat 64 (v % 2 ^ 32)) })
         ∧ Completes (.halfRead i (a 4)) s fun d => d = { s.dev with
             answer := some (rcOkay, BitVec.ofNat 64 ((latched i (blk + off) s.dev).getD (v / 2 ^ 32 % 2 ^ 32))) })
       ∧ (∀ (off h : Nat) (t : Device), t = setLatch i off h s.dev → latched i off t = some h)
       ∧ ∀ n : TbId, csrOpen s.dev i (stampPlot s.dev i) .tim (0x108 + 0x40 * n.val) = true → i ≠ islandInit →
           let t := tb s.dev n.val
           Completes (.tbNowRead i n true) s fun d => d = { setTb n.val (fun x => { x with secLatch := x.sec }) s.dev with
             answer := some (rcOkay, BitVec.ofNat 64 (t.frac + t.ns * 2 ^ 16)) })

/-! ## Beds -/

/-- Stretching, lock and throttle of a bed clock: a margin flag raises s from 0 to FIRST or by INC, capped at MAX, and counts the first of a
run of flagged micro-cycles; RECOVER unflagged micro-cycles lower s by 1; 1,024 at MAX set SAT and are measured; lock lost is a C1 fault
with CAUSE 8, and the generator relocks; a lock timeout in STARTING is a macro fault; THROTTLE takes its STEP (R98 to R100, R103).
Two taps on one line in a phase: both are disabled, the first event is recorded, the bed's plot hears of a C2 fault with CAUSE 6, the
almanac records "line disabled", and the sensor measures (R90). -/
def Obligations.BedClocks : Prop :=
  (∀ (s : State) (b : BedId), MgmtQuiet s.dev →
     let n := b.val
     let x := shellAt s.dev (.gen b)
     let k := (bedAt s.dev n).clock
     let atLeast1 (v : Nat) : Nat := if v = 0 then 1 else v
     let first := min (atLeast1 (k.stretchCfg.extractLsb' 0 5).toNat) 16
     let inc := atLeast1 (k.stretchCfg.extractLsb' 8 4).toNat
     let max := min (atLeast1 (k.stretchCfg.extractLsb' 16 5).toNat) 16
     let recover := atLeast1 (k.stretchCfg.extractLsb' 24 8).toNat
     let up := min (if k.s = 0 then first else k.s + inc) max
     (∀ late, x.st = .active → genMode x = 0 → Completes (.marginFlag b late) s fun d => d = withClock n { k with
         s := up, sEdge := if late then k.sEdge else up, flagged := true, clean := 0
         droopEvents := if k.flagged = true ∨ k.run = true ∨ k.droopEvents = BitVec.allOnes 32 then k.droopEvents else k.droopEvents + 1 } s.dev)
     ∧ (0 < k.s → recover ≤ k.clean → Completes (.stretchRecover b) s fun d =>
         d = withClock n { k with s := k.s - 1, sEdge := k.s - 1, clean := 0 } s.dev)
     ∧ (1024 ≤ k.atMax → Completes (.stretchSaturated b) s fun d =>
         d = noticed 0x0B n (setShell (.gen b) { x with mstat := x.mstat ||| 4 } (withClock n { k with atMax := 0 } s.dev)))
     ∧ (genMode x = 1 → x.st = .active → x.mstat.getLsbD 0 = true → Completes (.lockLost b) s fun d =>
         d = raise (.bed b) 1 0x08 0 (setShell (.gen b) { x with mstat := x.mstat &&& ~~~1#16 } s.dev))
     ∧ (genMode x = 1 → x.st = .active → Completes (.lockRegained b) s fun d =>
         d = match reference s.dev n with
           | some f => withClock n { k with refFreq := f } (setShell (.gen b) { x with mstat := x.mstat ||| 1 } s.dev)
           | none => s.dev)
     ∧ (genMode x = 1 → x.st = .starting → x.deferral = none → (bedAt s.dev n).st ≠ .committed → Completes (.generatorLockTimeout b) s fun d => ∃ y,
         d = raise (.bed b) 2 0x03 (csrBase + shellOff (.gen b)) (setShell (.gen b) y s.dev) ∧ y.st = (if x.en then .fault else .idle) ∧ y.err = true)
     ∧ (∀ (i : InitId) (step : BitVec 4), isMgmtCore i = true → RegAccepts s.dev i (.bed n) (bedOff n) 0x12C step.toNat (2 ^ 32 - 1) →
         Completes (.throttle i b step) s fun d =>
           d = okay (csrRecord i (bedOff n + 0x12C) k.throttle.toNat step.toNat (withClock n { k with throttle := step } s.dev))))
  ∧ (∀ (s : State) (b : BedId) (o : Bool) (i l : Nat) (taps : List Nat),
       let x := bedAt s.dev b.val
       x.st = .running → x.border.bound = none → contended x x.phase = [(o, i, l, taps)] → Completes (.lineContention b) s fun d =>
         let y : Bed := { x with
           tapsOff := x.tapsOff ++ taps
           contention := { seen := true, count := min (x.contention.count + 1) 255, first := some (x.contention.first.getD (o, i, l, x.phase)) } }
         ∃ d0 d1, d = noticed 0x0C b.val (selfRec 0x03 b.val 0x8005 0 d0 d1
           { raise (.bed b) 2 0x06 (contentionReg y.contention) (setBed b.val y s.dev) with free := s.dev.free + 2 }))

/-- The boundary of a user cycle completes when every channel in O has room and every channel in I a token, and then the next user cycle
begins: an outgoing channel captures its payload, an incoming one takes its head token, a level channel takes its value; else the bed
waits and says on what; it waits longer than WAIT_LIMIT once with an alarm, a C0 note and a measurement (R112, R113, R123). A wait that
a pause interrupts goes on afterwards as the same wait: the model's choice (log 155). -/
def Obligations.Boundaries : Prop :=
  ∀ (s : State) (b : BedId) (bd : Boundary), (bedAt s.dev b.val).border.bound = some bd →
    let n := b.val
    let x := bedAt s.dev n
    let runs (d : Device) : Prop := (bedAt d n).st = .running ∧ (bedAt d n).phase = 0 ∧ (bedAt d n).cycle = x.cycle + 1
      ∧ (bedAt d n).border.bound = none ∧ (bedAt d n).pinOut = bd.pins.1 ∧ (bedAt d n).pinEn = bd.pins.2
      ∧ (bedAt d n).cfg = x.cfg ∧ d = { s.dev with beds := d.beds, free := d.free }
    (firstUnmet s.dev n bd = none → x.st = .waiting ∨ x.st = .running ∧ x.clock.stopDue = false → Completes (.boundaryComplete b) s fun d => runs d
      ∧ (∀ k v, bd.outs = [(k, v)] → bd.ins = [] → bd.levels = [] → sinks s.dev n k = false →
          (chan (bedAt d n) k).tx = (chan x k).tx ++ [⟨v, captureDest s.dev n k⟩]
          ∧ (chan (bedAt d n) k).credits = (chan x k).credits - if crossDie s.dev n (k / 64) (k % 64) then 1 else 0)
      ∧ (∀ k v q, bd.outs = [] → bd.ins = [k] → bd.levels = [] → (chan x k).fifo = v :: q → chKind (chan x k).cfg = 2 →
          streamOf n (k / 64) (k % 64) = none →
          (chan (bedAt d n) k).fifo = q ∧ (chan (bedAt d n) k).arrive = v.setWidth 32)
      ∧ (∀ k v, bd.outs = [] → bd.ins = [] → bd.levels = [(k, v)] → chKind (chan x k).cfg = 3 → (chan x k).level ≠ v →
          (chan (bedAt d n) k).level = v
            ∧ (chan (bedAt d n) k).levels = (chan x k).levels ++ [(v, partner s.dev n (k / 64) (k % 64))]))
    ∧ (∀ u, firstUnmet s.dev n bd = some u → x.st = .running → x.clock.stopDue = false → Completes (.boundaryComplete b) s fun d =>
        d = setBed n { x with st := .waiting, border := match bd.waited with
          | none => { x.border with
            waitStart := devNs s.dev, alarmed := false, blk := some u, bound := some { bd with waited := some 0 }
            waitCount := if x.border.waitCount = BitVec.allOnes 32 then x.border.waitCount else x.border.waitCount + 1 }
          | some t => { x.border with waitStart := devNs s.dev - t } } s.dev)
    ∧ (x.st = .waiting → x.border.waitLimit ≠ 0 → x.border.waitStart + x.border.waitLimit.toNat * 1000 < devNs s.dev →
        x.border.alarmed = false → Completes (.borderWaitAlarm b) s fun d =>
          let y : Bed := { x with border := { x.border with alarm := true, alarmed := true } }
          d = noticed 0x0D n (raise (.bed b) 0 0x07 (borderStatus y) (setBed n y s.dev)))
    ∧ (x.st = .waiting → x.clock.pauseDue = true → MgmtQuiet s.dev → ∀ f, Completes (.bedPauseTaken b f) s fun d =>
        d = setBed n { x with st := .paused, border := { x.border with
          bound := some { bd with waited := some (devNs s.dev - x.border.waitStart) } } } s.dev)

/-- Tokens, levels and credits move between channel ends: the oldest token of a transmit buffer goes to the tail of its receive FIFO, on
either side of a core too, the oldest level update becomes what its receiver shows, live once the sender's bed is in service, and credits
on their way reach their sender, across dies where a path for them stands (R107, R113, R117, R119, R124, R127, R130). -/
def Obligations.BorderMovement : Prop :=
  ∀ (s : State) (e : BedEnd),
    let n := e.bed.val
    let x := bedAt s.dev n
    let c := chan x (endKey e)
    (∀ (r : BedEnd) t q, r.bed ≠ e.bed → (crossDie s.dev n e.side.val e.ch.val = true → c.flight = [] ∧ canCross s.dev n e.side.val e.ch.val = true) → c.tx = t :: q → t.dest = some (.bed r) → (bedAt s.dev r.bed.val).st.holdsConfig = true →
      (bedAt s.dev r.bed.val).st ≠ .waiting → x.st ≠ .waiting →
      (x.st.holdsConfig = true → joined s.dev n (endKey e / 64) (endKey e % 64) = true) →
      let y := bedAt s.dev r.bed.val
      (chan y (endKey r)).fifo.length < fifoCap s.dev r.bed.val r.side.val r.ch.val →
      Completes (.tokenArrival (.bed e)) s fun d =>
        d = setBed n (setChan (endKey e) { c with tx := q } x)
          (setBed r.bed.val (setChan (endKey r) { chan y (endKey r) with fifo := (chan y (endKey r)).fifo ++ [t.val] } y) s.dev))
    ∧ (∀ (k : CoreId) t q, (crossDie s.dev n e.side.val e.ch.val = true → c.flight = [] ∧ canCross s.dev n e.side.val e.ch.val = true) → c.tx = t :: q → t.dest = some (.core k .lIn) → x.st ≠ .waiting →
        (x.st.holdsConfig = true → joined s.dev n (endKey e / 64) (endKey e % 64) = true) →
        (coreIoAt s.dev k.val).lIn.length < 8 → Completes (.tokenArrival (.bed e)) s fun d =>
          d = setBed n (setChan (endKey e) { c with tx := q } x)
            (setCoreIo k.val { coreIoAt s.dev k.val with lIn := (coreIoAt s.dev k.val).lIn ++ [t.val] } s.dev))
    ∧ (∀ (k : CoreId) v q, (coreIoAt s.dev k.val).lOut = v :: q → streamBed k.val .lOut = (n, e.side.val, e.ch.val) → x.st ≠ .waiting →
        (x.st.holdsConfig = true → joined s.dev n e.side.val e.ch.val = true) →
        c.fifo.length < 8 → Completes (.tokenArrival (.core k .lOut)) s fun d =>
          d = setCoreIo k.val { coreIoAt s.dev k.val with lOut := q } (setBed n (setChan (endKey e) { c with fifo := c.fifo ++ [v] } x) s.dev))
    ∧ (∀ (r : BedEnd) v q, r.bed ≠ e.bed → c.levels = (v, some (.bed r)) :: q → levelTaken s.dev e (some (.bed r)) = some r →
        (crossDie s.dev n e.side.val e.ch.val = true → c.lvlFly = [] ∧ canCross s.dev n e.side.val e.ch.val = true) → Completes (.levelUpdateArrival e) s fun d =>
        d = setBed r.bed.val (setChan (endKey r) { chan (bedAt s.dev r.bed.val) (endKey r) with
            rxLevel := some v, rxLive := x.st.holdsConfig && decide (x.st ≠ .committed) } (bedAt s.dev r.bed.val))
          (setBed n (setChan (endKey e) { c with levels := q } x) s.dev))
    ∧ (x.st ≠ .waiting → Completes (.creditReturn e) s fun d =>
        d = if canCross s.dev n e.side.val e.ch.val = false then s.dev else setBed n (setChan (endKey e) { c with credits := c.credits + c.credBack, credBack := 0 } x) s.dev)

/-- The accesses of a block memory in a phase: a port stores the bits that its word, its WE and its byte enables select, port A prevails in
a byte that both write, and then COLL is set; a port that reads, and a read-first write, returns the word as it stood, a write-first one
the new bits where it writes, a no-change one leaves RD. Nothing happens without an access. Nothing else of the device changes (R135,
R138 to R141). -/
def Obligations.BlockMemoryAccess : Prop :=
  ∀ (s : State) (b : BedId) (m : Fin 48),
    let n := b.val
    let key := n * 48 + m.val
    let x := bedAt s.dev n
    let cfg := x.cfg.bms.get BmCfg.reset m.val
    let c := arrayAt s.dev 0 key
    let pa := portAcc s.dev n m.val 0
    let pb := portAcc s.dev n m.val 1
    let coll := collides pa pb
    (coll = true ↔ ∃ a, accHit pa a = true ∧ accHit pb a = true)
    ∧ (x.st = .running → x.border.bound = none → c.dec = [] → x.inject.arm = false → (cfg.check = true → ∀ a, synClass (c.read a).syn = .clean) →
      Completes (.blockMemoryPortAccess b m) s fun d =>
        (∀ k, memBit (arrayAt d 0 key) k =
          if accBit pa k then accVal pa k else if accBit pb k && !accHit pa (k / 8) then accVal pb k else memBit c k)
        ∧ (cfg.check = true → ∀ a, synClass ((arrayAt d 0 key).read a).syn = .clean)
        ∧ (∀ k, k ≠ arrayKey 0 key → d.arrays.get Coded.filled k = s.dev.arrays.get Coded.filled k)
        ∧ (∀ q, (bedAt d n).ports.get PortOut.zero q =
            let old := x.ports.get PortOut.zero q
            let acc := if q = m.val * 2 then pa else if q = m.val * 2 + 1 then pb else none
            match acc with
            | none => old
            | some p =>
              let st : BitVec 4 := if p.we && coll then 8 else 0
              if p.we && p.rdw = 2 then { old with rstat := if coll then 8 else 0 }
              else { rstat := st, rd := BitVec.ofNat 64 (maskOf ((List.range p.width).map fun i =>
                let k := p.addr * p.width + i
                if p.we && p.rdw = 1 && accBit (some p) k then accVal (some p) k else memBit c k)) })
        ∧ bedAt d n = { x with ports := (bedAt d n).ports, bmStat := (bedAt d n).bmStat }
        ∧ (∀ q, (bedAt d n).bmStat.get BmStat.reset q =
            let old := x.bmStat.get BmStat.reset q
            if q = m.val && coll then { old with coll := true, collCnt := if old.collCnt = 255 then 255 else old.collCnt + 1 } else old)
        ∧ (∀ q, q ≠ n → bedAt d q = bedAt s.dev q) ∧ d = { s.dev with beds := d.beds, arrays := d.arrays, free := d.free })

/-- The on-chip code: a byte is stored with the XOR of the columns of its data and signature bits; a read gives the syndrome of what is
stored against the address requested, and its class: CLEAN, a corrected data or check bit, ADDRESS, or UNCORRECTABLE. So a byte reads back
as written and leaves every other byte as it was, one flipped bit is corrected, and an access that the decoder sends to the address
differing in one bit is of class ADDRESS (R144 to R149). -/
def Obligations.CodeClasses : Prop :=
  let colD : List (BitVec 6) := [0x07, 0x0B, 0x0D, 0x0E, 0x13, 0x15, 0x19, 0x23]
  let colC : List (BitVec 6) := [0x01, 0x02, 0x04, 0x08, 0x10, 0x20]
  let colG : List (BitVec 6) := [0x3E, 0x3D, 0x3B, 0x37, 0x2F, 0x1F]
  (∀ syn : BitVec 6,
    (synClass syn = .clean ↔ syn = 0) ∧ (∀ i, synClass syn = .corrData i ↔ colD[i]? = some syn) ∧ (synClass syn = .corrCheck ↔ syn ∈ colC)
    ∧ (synClass syn = .address ↔ syn ∈ colG) ∧ (synClass syn = .uncorrectable ↔ syn ≠ 0 ∧ syn ∉ colD ∧ syn ∉ colC ∧ syn ∉ colG))
  ∧ (∀ (d : Byte) (a : Nat),
      let parts : List (BitVec 6) := (List.range 8).map (fun i => if d.getLsbD i then colD.getD i 0 else 0)
        ++ (List.range 6).map fun i => if (sigOf a).getLsbD i then colG.getD i 0 else 0
      checkOf d a = parts.foldl (· ^^^ ·) 0)
  ∧ ∀ (c : Coded) (a : Nat) (d : Byte),
      let w := c.write a d
      (c.dec = [] → w.read a = ⟨d, 0, .clean⟩ ∧ (∀ b, b ≠ a → w.read b = c.read b)
        ∧ (∀ i < 8, (w.upset a i).read a = ⟨d, colD.getD i 0, .corrData i⟩) ∧ (∀ i < 6, (w.upset a (8 + i)).read a = ⟨d, colC.getD i 0, .corrCheck⟩)
        ∧ ∀ k < 25, a < 2 ^ 25 → ∀ v, let b := { w with dec := [(k, v)] }
            let other := if v then a ||| 2 ^ k else a - (if a.testBit k then 2 ^ k else 0)
            (other = a → b.read a = ⟨d, 0, .clean⟩)
            ∧ (other ≠ a → ∀ x : Byte, ({ c.write other x with dec := [(k, v)] } : Coded).read a = ⟨x, colG.getD (k % 6) 0, .address⟩))

/-- Upsets and injection: an upset of one bit of a clean byte leaves a CORRECTED byte whose data reads as before, a decoder fault stays, and
BM_INJECT takes MEM, POS and ARM, ARM only with both in range, but is ignored with a note in DEPLOYED and refused in DECOMMISSIONED; an
upset of a tap changes its phase mask, one bit of a flit on a ring is corrected, counted and raises C1 with CAUSE 9 (R90, R145, R147 to
R149, R159, R235, R474).
A rake: a slot that the arbiter grants examines the next word and, in REPAIR, writes back a CORRECTED byte; a word of a block memory whose
bed runs is skipped after 1 ms without a slot; the last slots of a pass may come with its end; the end raises C1 for a CORRECTED and C2 for a bad byte and answers with the summary record (R154 to R157). -/
def Obligations.CodedArrays : Prop :=
  (∀ (s : State),
     (∀ (cls : Fin 7) (idx : Fin 18432) off (pos : Fin 14), wfUpset (.bit cls idx off pos) = true →
       let c := arrayAt s.dev cls.val idx.val
       c.dec = [] → synClass (c.read off).syn = .clean → Completes (.upset (.bit cls idx off pos)) s fun d =>
         let e := arrayAt d cls.val idx.val
         (e.read off).data = (c.read off).data ∧ (e.read off).cls = (if pos.val < 8 then .corrData pos.val else .corrCheck)
         ∧ (∀ a, a ≠ off → e.read a = c.read a) ∧ d = setArray cls.val idx.val e s.dev)
     ∧ (∀ (cls : Fin 7) (idx : Fin 18432) (line : Fin 25) stuck, wfUpset (.decoder cls idx line stuck) = true →
         let c := arrayAt s.dev cls.val idx.val
         Completes (.upset (.decoder cls idx line stuck)) s fun d =>
           d = setArray cls.val idx.val { c with dec := c.dec ++ [(line.val, stuck)] } s.dev)
     ∧ (∀ (i : InitId) (b : BedId) (v : Word32), isMgmtCore i = true → RegAccepts s.dev i (.bed b.val) (bedOff b.val) 0xB08 v.toNat (2 ^ 32 - 1) →
         (s.dev.trust.lifecycle ≠ .deployed → s.dev.trust.lifecycle ≠ .decommissioned → Completes (.bmInject i b v) s fun d =>
           let mem := v.extractLsb' 0 6
           let pos := v.extractLsb' 6 5
           let y : BmInject := { mem, pos, arm := v.getLsbD 11 && decide (mem.toNat < 48) && decide (pos.toNat < 20) }
           let x := bedAt s.dev b.val
           d = okay (csrRecord i (bedOff b.val + 0xB08) (injectReg x.inject) (injectReg y) (setBed b.val { x with inject := y } s.dev)))
         ∧ (s.dev.trust.lifecycle = .deployed → Completes (.bmInject i b v) s fun d =>
             d = okay (noteAccess i (csrBase + bedOff b.val + 0xB08) s.dev))
         ∧ (s.dev.trust.lifecycle = .decommissioned → Completes (.bmInject i b v) s fun d =>
             d = { noteAccess i (csrBase + bedOff b.val + 0xB08) s.dev with answer := some (rcDenied, 0) }))
     ∧ (∀ (b : BedId) vert x l i k, wfUpset (.tap b vert x l i k) = true → Completes (.upset (.tap b vert x l i k)) s fun d =>
         d = setBed b.val (upsetTap vert x.val l.val i.val k.val (bedAt s.dev b.val)) s.dev)
     ∧ ∀ site ring pos f, wfUpset (.ring site ring pos false) = true → (slotHere s.dev site.val ring.val pos.val).bind (·.flit) = some f →
         Completes (.upset (.ring site ring pos false)) s fun d => d = raise (ringSource (siteAt site.val)) 1 0x09 (pos.val * 2)
           (setRings (siteAt site.val) (fun r => { r with corr := if r.corr = BitVec.allOnes 16 then r.corr else r.corr + 1 }) s.dev))
  ∧ (∀ (s : State) (cls : Fin 7) (idx : Fin 18432) (r : Rake), findRake s.dev cls.val idx.val = some r → r.cls = cls.val → r.index = idx.val →
       let c := arrayAt s.dev cls.val idx.val
       let w := arrayWord cls.val
       let word := (List.range w).map fun i => c.read (r.start + r.done + i)
       let y : Rake := { r with done := r.done + w, words := min (r.words + 1) (2 ^ 32 - 1), slotAt := devNs s.dev }
       (cls = 0 → r.done < r.len → (bedAt s.dev (idx.val / 48)).st = .running → noCheck s.dev 0 idx.val = false → r.slotAt + 1000000 ≤ devNs s.dev →
         Completes (.rakeWordSkip cls idx) s fun d =>
           d = putRake { r with done := r.done + 8, skipped := min (r.skipped + 1) (2 ^ 32 - 1), slotAt := devNs s.dev } s.dev)
       ∧ (cls = 0 → Completes (.rakePriorityBoost cls idx) s fun d => d = s.dev)
       ∧ (cls ≠ 0 → r.done < r.len → c.dec = [] →
           ((∀ v ∈ word, v.cls = .clean) → Completes (.rakePriorityBoost cls idx) s fun d =>
             d = putRake y { s.dev with arrays := d.arrays } ∧ sameArrays s.dev d)
           ∧ (∀ j, j < w → (c.read (r.start + r.done + j)).cls.corrected = true → (∀ i, i < w → i ≠ j → (c.read (r.start + r.done + i)).cls = .clean) →
               let a := r.start + r.done + j
               let z : Rake := { y with corr := min (r.corr + 1) (2 ^ 32 - 1), firstCorr := some (r.firstCorr.getD (a, (c.read a).syn.toNat)) }
               (r.repairMode = true → Completes (.rakePriorityBoost cls idx) s fun d =>
                 d = putRake { z with repaired := min (r.repaired + 1) (2 ^ 32 - 1) } { s.dev with arrays := d.arrays }
                 ∧ (arrayAt d cls.val idx.val).read a = ⟨(c.read a).data, 0, .clean⟩
                 ∧ (∀ k, k ≠ a → (arrayAt d cls.val idx.val).read k = c.read k)
                 ∧ ∀ k, k ≠ arrayKey cls.val idx.val → d.arrays.get Coded.filled k = s.dev.arrays.get Coded.filled k)
               ∧ (r.repairMode = false → Completes (.rakePriorityBoost cls idx) s fun d =>
                 d = putRake z { s.dev with arrays := d.arrays } ∧ sameArrays s.dev d)))
       ∧ (∀ p z, (r.done = r.len ∧ z = r ∨ r.done + w = r.len ∧ z = y ∧ (∀ v ∈ word, v.cls = .clean) ∧ c.dec = [] ∧ noCheck s.dev cls.val idx.val = false
             ∧ rakeable s.dev cls.val idx.val = true ∧ (cls = 0 → (bedAt s.dev (idx.val / 48)).st ≠ .running)) →
           s.dev.rakes = [r] → s.dev.mgmt.progress = [p] → p.inst = r.inst → p.opcode = 0x0402 → s.dev.mgmt.parked = [] → Completes (.rakePassEnd cls idx) s fun d =>
             let e : Device := { s.dev with rakes := [], arrays := d.arrays }
             let report (k : Fin 5) (cause : Nat) (hit : Option (Nat × Nat)) (e : Device) : Device :=
               (hit.map fun h => raise (arraySource cls.val idx.val) k cause (sramDetail cls.val h.1 (BitVec.ofNat 6 h.2)) e).getD e
             sameArrays s.dev d
             ∧ d = finish p 0 (z.summary false (devNs s.dev)) (report 2 0x02 r.firstBad (report 1 0x01 r.firstCorr e))))

/-! ## Faults, sensors and self-test -/

/-- Reports: each is noted in its source word; a hub source's forms a record at once, a die's goes out on FREPORT if its STICKY was 0, its
class rises or is C2, or is merged into the one being sent, and forms its record when it has arrived; a first record, and a STICKY that
rises at IRQ_MIN or above, signal (R530, R531, R534, R535, R538, R539, R548).
Fault commands: FAULT_READ hands out first-error records, history entries and source words, zeros where they do not concern the plot, and
changes nothing; FAULT_CLEAR clears what it names; ERRPIN_RELEASE clears LOW at once or at the end of the minimum; HISTORY_MODE sets the
collector; the last three make a record (R536, R549 to R553). -/
def Obligations.FaultReports : Prop :=
  (∀ (s : State), MgmtQuiet s.dev → s.dev.start.due = false → s.dev.flt.first.length = 5 → s.dev.flt.fsafe ≠ .c4 →
     let f := s.dev.flt
     (∀ rep rest, f.arriving = rep :: rest → rep.cls.val ≤ 2 →
       let w := srcWord s.dev (srcSlot rep.src)
       let p := (concerns s.dev rep.src).getD 0
       let rises := !w.sticky && decide (f.irqMin.toNat ≤ rep.cls.val)
       let noted : SrcWord := { sticky := true, maxCls := if w.sticky then max w.maxCls rep.cls.val else rep.cls.val,
                                count := min ((if w.sticky then w.count else 0) + 1) 0xFFFF }
       let words (d : Device) : Prop := ∀ k, srcWord d k = if k = srcSlot rep.src then noted else srcWord s.dev k
       (srcDie rep.src = none → Completes (.faultReport .waiting) s fun d => words d ∧ Forms s.dev d (recOf s.dev rep 0)
         ∧ d.msix = (signals (s.dev.flt.first.getD rep.cls.val none).isNone p (signals rises p s.dev)).msix
         ∧ d = { s.dev with msix := d.msix, flt := { f with
             arriving := rest, words := d.flt.words, first := d.flt.first, history := d.flt.history, histOvf := d.flt.histOvf
             low := d.flt.low, pulse := d.flt.pulse, clearDue := d.flt.clearDue } })
       ∧ ∀ die, srcDie rep.src = some die → Completes (.faultReport .waiting) s fun d => words d
         ∧ d = { s.dev with msix := (signals rises p s.dev).msix, flt := { f with arriving := rest, words := d.flt.words, sending := d.flt.sending } }
         ∧ (w.sticky = true → rep.cls.val ≤ w.maxCls → rep.cls.val ≤ 1 → d.flt.sending = f.sending)
         ∧ (w.sticky = false ∨ w.maxCls < rep.cls.val ∨ rep.cls = 2 →
             ((∀ x ∈ f.sending, x.die ≠ die) → d.flt.sending = f.sending ++ [{ die, rep, merged := 0 }])
             ∧ ∀ x q, f.sending = x :: q → x.die = die → (∀ y ∈ q, y.die ≠ die) → rep.cls ≤ x.rep.cls →
                 d.flt.sending = { x with merged := min (x.merged + 1) 255 } :: q))
     ∧ ∀ x q, f.sending = x :: q → x.rep.cls.val ≤ 2 → Completes (.faultReport (.line x.die)) s fun d =>
         Forms s.dev d (recOf s.dev x.rep x.merged)
         ∧ d.msix = (signals (s.dev.flt.first.getD x.rep.cls.val none).isNone ((concerns s.dev x.rep.src).getD 0) s.dev).msix
         ∧ d = { s.dev with msix := d.msix, flt := { f with
             sending := q, first := d.flt.first, history := d.flt.history, histOvf := d.flt.histOvf
             low := d.flt.low, pulse := d.flt.pulse, clearDue := d.flt.clearDue } })
  ∧ (∀ (s : State) (inst : Inst) (pkt : Packet),
       let pl := pkt.payload
       let plot := pkt.plot.toNat % 16
       let first := leAt pl 2 2
       let count := leAt pl 4 2
       let bytes (r : FltRec) : List Byte :=
         leBytes 1 (srcKind r.rep.src) ++ leBytes 1 (r.rep.cls.val + bit r.plotValid 3 + place r.plot 4) ++ leBytes 2 (srcIndex r.rep.src)
           ++ leBytes 1 r.rep.cause.toNat ++ leBytes 1 r.merged ++ leBytes 2 (1 + bit r.safe 1 + bit r.overflowed 2) ++ leBytes 8 r.rep.time
           ++ leBytes 8 r.rep.detail.toNat ++ leBytes 6 r.almSeq ++ leBytes 2 0
       let shown (r : Option FltRec) : List Byte :=
         match r with
         | some r => if plot = 0 ∨ (r.plotValid = true ∧ r.plot = plot) then bytes r else List.replicate 32 0
         | none => List.replicate 32 0
       let word (a : Device) (k : Nat) : List Byte :=
         let w := srcWord a k
         if plot = 0 ∨ slotPlot a k = some plot then leBytes 4 (bit w.sticky 0 + place w.maxCls 1 + place w.count 16) else [0, 0, 0, 0]
       let read (item : Device → Nat → List Byte) : Prop := Replies (.faultRead inst pkt) s opFaultRead inst pkt stOk
         (fun a => (List.range count).flatMap fun i => item a (first + i)) id
       (leAt pl 0 1 = 0 → read fun a k => shown (a.flt.first.getD k none))
       ∧ (leAt pl 0 1 = 1 → read fun a k => shown a.flt.history[k]?)
       ∧ (leAt pl 0 1 = 2 → read word)
       ∧ (s.dev.flt.first.length = 5 → Replies (.faultClear inst pkt) s opFaultClear inst pkt stOk (fun _ => []) fun a =>
           let c := leAt pl 0 1
           let o := leAt pl 1 1
           cmdRecPayload (ctxOf opFaultClear inst pkt) 0x01 0 { a with flt := { a.flt with
             first := (List.range 5).map fun k => if bitAt c k then none else a.flt.first.getD k none
             words := if bitAt o 0 then .empty else a.flt.words
             history := if bitAt o 1 then [] else a.flt.history
             histOvf := if bitAt o 1 then 0 else a.flt.histOvf } })
       ∧ (s.dev.flt.pulse = none → Replies (.errpinRelease inst pkt) s opErrpinRelease inst pkt stOk (fun _ => [0, 0, 0, 0]) fun a =>
           cmdRecPayload (ctxOf opErrpinRelease inst pkt) 0x01 0 { a with flt := { a.flt with low := false } })
       ∧ (s.dev.flt.pulse ≠ none → Replies (.errpinRelease inst pkt) s opErrpinRelease inst pkt stOk (fun _ => [1, 0, 0, 0]) fun a =>
           cmdRecPayload (ctxOf opErrpinRelease inst pkt) 0x01 0 { a with flt := { a.flt with clearDue := true } })
       ∧ Replies (.historyMode inst pkt) s opHistoryMode inst pkt stOk (fun _ => []) fun a =>
           cmdRecPayload (ctxOf opHistoryMode inst pkt) 0x01 0 { a with flt := { a.flt with
             mode := decide (leAt pl 0 1 = 1), errMask := BitVec.ofNat 3 (leAt pl 1 1), irqMin := BitVec.ofNat 2 (leAt pl 2 1)
             autoReset := BitVec.ofNat 16 (leAt pl 4 2) } })

/-- The safe state: a C3 fault of a hub source makes DEV_STATE FATAL, drives FSAFE and holds ERR_N, CXL goes viral, DONE is let go and
tiller operations stop; C4 also ends every transport, brings the CXL link down and destroys every key; FSAFE reaches a die, whose cores
stop; an error of the collector itself goes the same way without a record (R431, R533, R541, R543, R544).
FSAFE at a die: it applies a class above the one that it has; its cores stop with LAST_STOP 3 when it first applies one. ERR_N is let
go 100 µs after the last record that drove it, if LOW has been cleared (R541, R543, R548, R549). -/
def Obligations.SafeState : Prop :=
  (∀ (s : State), CalmC3 s.dev → s.dev.start.due = false → s.dev.flt.first.length = 5 →
     let f := s.dev.flt
     let fatal (d : Device) : Prop := d.mgmt.dev = .fatal ∧ d.flt.held = true ∧ d.flt.fatalAt = some (devNs s.dev) ∧ d.cxl.viral = true
       ∧ d.cfg.doneHeld = false ∧ (∀ t ∈ d.mem.tillers, t.op = .idle) ∧ d.cores = s.dev.cores ∧ d.beds = s.dev.beds
     (∀ rep rest, f.arriving = rep :: rest → srcDie rep.src = none →
       (rep.cls = 3 → Completes (.faultReport .waiting) s fun d => fatal d ∧ d.flt.fsafe = .c3 ∧ d.flt.low = true
         ∧ d.flt.first.getD 3 none = some ((f.first.getD 3 none).getD (recOf s.dev rep 0)) ∧ d.flt.lastFault = some (recOf s.dev rep 0)
         ∧ d.trust = s.dev.trust ∧ d.mem = { s.dev.mem with tillers := d.mem.tillers, renews := s.dev.mem.renews.filter fun x => x.tiller.isNone } ∧ d.mgmt = { s.dev.mgmt with dev := .fatal })
       ∧ (rep.cls = 4 → Completes (.faultReport .waiting) s fun d => fatal d ∧ d.flt.fsafe = .c4 ∧ d.mgmt.up = false ∧ d.mgmt.replies = []
         ∧ d.cxl.linkUp = false ∧ d.trust.dk = false ∧ d.trust.kw = false ∧ (∀ p ∈ d.trust.plots, p.ownerKey = none)
         ∧ (∀ x ∈ d.mgmt.sessions, ∀ y, x = some y → y.secret = [])))
     ∧ Completes (.faultReport (.selfFault)) s (fun d => fatal d ∧ d.flt.fsafe = .c3 ∧ d.flt.selfFault = true ∧ d.flt.first = f.first
         ∧ d.flt.history = f.history ∧ ∃ r, d.flt.lastFault = some r ∧ r.rep.cause = 0x19)
     ∧ Completes (.faultReport .selfCorr) s (fun d => d = { s.dev with flt := { f with selfCorr := min (f.selfCorr + 1) 255 } }))
  ∧ (∀ (s : State) (die : DieId), MgmtQuiet s.dev → s.dev.start.due = false → s.dev.flt.dieSafe.length = 8 →
       let f := s.dev.flt
       let had := f.dieSafe.getD die.val .none
       (levelNo f.fsafe ≤ levelNo had → Completes (.fsafe die) s fun d => d = s.dev)
       ∧ (levelNo had < levelNo f.fsafe → had ≠ .none → Completes (.fsafe die) s fun d =>
           d = { s.dev with flt := { f with dieSafe := f.dieSafe.set die.val f.fsafe } })
       ∧ (had = .none → f.fsafe ≠ .none → (∀ i, i < 48 → outOfService s.dev (die.val * 48 + i) = true) →
           (∀ i k, i < 8 → k < 8 → subEn (subAt s.dev (die.val * 8 + i) k) = false) →
           Completes (.fsafe die) s fun d => d.flt = { f with dieSafe := f.dieSafe.set die.val f.fsafe }
             ∧ (∀ i, i < 16 → (coreAt s.dev (die.val * 16 + i)).st = .active →
                 (coreAt d (die.val * 16 + i)).st = .stopping ∧ (coreAt d (die.val * 16 + i)).lastStop = 3 ∧ (coreAt d (die.val * 16 + i)).en = false)
             ∧ (∀ n, n / 16 ≠ die.val → coreAt d n = coreAt s.dev n) ∧ d = { s.dev with flt := d.flt, cores := d.cores })
       ∧ (∀ t, f.pulse = some t → t + 100000 ≤ devNs s.dev → Completes .errNPulseEnd s fun d =>
           d = { s.dev with flt := { f with pulse := none, low := f.low && !f.clearDue, clearDue := false } }))

/-- A rule of the policy table: what qualifies for it, and the count, the window and the hold-off of R502. -/
def Obligations.PolicyCounting : Prop :=
  RuleCount.zero = { n := 0, s := 0, h := 0 }
  ∧ (∀ (r : Rule) (kind inst : Nat) (v : Int), r.matches kind inst v = true ↔
      kind = r.kind.toNat ∧ (r.inst = 0xFFFF ∨ inst = r.inst.toNat) ∧ (r.cmp = 1 → r.thresh ≤ v) ∧ (r.cmp = 2 → v ≤ r.thresh))
  ∧ (∀ (r : Rule) (t : Nat) (c : RuleCount),
      let opens : Bool := c.n = 0 || (r.window ≠ 0 && decide (r.window * 1000 ≤ t - c.s))
      let s := if opens then t else c.s
      let n := if opens then 1 else c.n + 1
      (t < c.h → c.take r t = (c, false))
      ∧ (c.h ≤ t → n < r.count → c.take r t = ({ n, s, h := c.h }, false))
      ∧ (c.h ≤ t → r.count ≤ n → c.take r t = ({ n := 0, s, h := t + r.holdoff * 1000000 }, true)))
  ∧ ∀ (kind inst : Nat) (v : Int) (t : Nat) (s : Device) (k : Nat),
      let r := (rulesInForce s)[k]?
      let d := (evaluate kind inst v t s).1
      (∀ q, r = some q → q.matches kind inst v = true → inst < 65536 →
        d.policy.counts.get RuleCount.zero (k * 65536 + inst) = ((s.policy.counts.get RuleCount.zero (k * 65536 + inst)).take q t).1)
      ∧ (∀ j < 65536, (∀ q, r = some q → q.matches kind inst v = true → j ≠ inst) → inst < 65536 →
          d.policy.counts.get RuleCount.zero (k * 65536 + j) = s.policy.counts.get RuleCount.zero (k * 65536 + j))
      ∧ (evaluate kind inst v t s).2.Pairwise fun a b =>
          b.rule.action.toNat < a.rule.action.toNat ∨ a.rule.action = b.rule.action ∧ a.idx < b.idx

/-- Sensors: an occurrence waits while the warden pair does not run; under the built-in rules TAMPER and MESH destroy every key and raise
C4, VGLITCH and CLKMON are logged against their die with a C0 note and a record of origin 8, the third VGLITCH of a sensor in 1 s destroys
every key, a TEMP sample between the limits only
updates THERM_N; 115 °C and a rail outside its limits raise C3 with CAUSE 0xFF (R498, R502 to R506, R600, R618).
The SMBus word: DEV_STATE, 0xFFFF before the management cores run and 0x00FF after C4; the hottest sensor of all or of a die; a NACK
for any other command and without VCCAUX; the power estimate is some word (R619). -/
def Obligations.Sensors : Prop :=
  (∀ (s : State), MgmtQuiet s.dev → s.dev.dbg.vccaux = true →
     let now := devNs s.dev
     let waits (i : Instr) (kind inst : Nat) : Prop := Completes i s fun d =>
       d = { s.dev with policy := { s.dev.policy with queue := s.dev.policy.queue ++ [(kind, inst, 0, now)] } }
     let src (n : Nat) : Source := if n < 8 then .die (Fin.ofNat 8 n) else .device
     let obj (n : Nat) : Nat × Nat := if n < 8 then (0x02, n) else (0x01, 0)
     let warm (k : Fin 144) (v : BitVec 12) : Device :=
       let temps := s.dev.board.temps.set (-10000) k.val v.toInt
       { s.dev with board := { s.dev.board with temps, therm := thermOf { s.dev.board with temps } } }
     (wardenRuns s.dev = false → waits .tamper 5 0 ∧ waits .mesh 4 0 ∧ ∀ n : Fin 9, waits (.vglitch n) 1 n.val ∧ waits (.clkmon n) 2 n.val)
     ∧ (wardenRuns s.dev = true → s.dev.policy.table = none → (∀ k, (s.dev.policy.counts.get RuleCount.zero k).h ≤ now) →
         s.dev.alm.unacked < 131072 → s.dev.alm.next < 2 ^ 48 - 1 →
         (∀ i rule, (i, rule) ∈ [(Instr.tamper, 0), (.mesh, 1)] → Completes i s fun d =>
           d.flt.arriving = s.dev.flt.arriving ++ [{ src := .device, cls := 4, cause := 0x16, detail := BitVec.ofNat 64 (rule + 7 * 256), time := now }]
           ∧ d.trust.dk = false ∧ d.trust.kw = false ∧ (∀ p ∈ d.trust.plots, p.ownerKey = none)
           ∧ d.policy.fired.get 0 rule = min (s.dev.policy.fired.get 0 rule + 1) (2 ^ 32 - 1))
         ∧ ∀ n : Fin 9, Completes (.clkmon n) s fun d => ∃ b a,
             d.flt = { s.dev.flt with arriving := s.dev.flt.arriving ++ [{ src := src n.val, cls := 0, cause := 0x16, detail := 4, time := now }] }
             ∧ d.alm = (almMake { origin := 8, principal := 0, objClass := (obj n.val).1, objId := (obj n.val).2, action := 0x8100, status := 0,
                                  before := b, after := a } none s.dev).alm
             ∧ (d.policy.counts.get RuleCount.zero (4 * 65536 + n.val)).h = now + 1000 * 1000000
             ∧ d.cores = s.dev.cores ∧ d.beds = s.dev.beds ∧ d.mem = s.dev.mem ∧ d.trust = s.dev.trust
         ∧ ∀ n : Fin 9, s.dev.policy.counts.wf RuleCount.zero = true →
             let c := s.dev.policy.counts.get RuleCount.zero (3 * 65536 + n.val)
             let fresh : Bool := c.n = 0 || decide (10 ^ 9 ≤ now - c.s)
             (fresh = true ∨ c.n < 2 → Completes (.vglitch n) s fun d => ∃ b a,
               d.flt = { s.dev.flt with arriving := s.dev.flt.arriving ++ [{ src := src n.val, cls := 0, cause := 0x16, detail := 2, time := now }] }
               ∧ d.alm = (almMake { origin := 8, principal := 0, objClass := (obj n.val).1, objId := (obj n.val).2, action := 0x8100, status := 0,
                                    before := b, after := a } none s.dev).alm
               ∧ d.policy.counts.get RuleCount.zero (3 * 65536 + n.val) = { c with s := if fresh then now else c.s, n := if fresh then 1 else c.n + 1 }
               ∧ d.cores = s.dev.cores ∧ d.beds = s.dev.beds ∧ d.mem = s.dev.mem ∧ d.trust = s.dev.trust)
             ∧ (fresh = false → 2 ≤ c.n → Completes (.vglitch n) s fun d =>
               d.trust.dk = false ∧ d.trust.kw = false ∧ (∀ p ∈ d.trust.plots, p.ownerKey = none)
               ∧ d.policy.fired.get 0 3 = min (s.dev.policy.fired.get 0 3 + 1) (2 ^ 32 - 1)
               ∧ d.policy.counts.get RuleCount.zero (3 * 65536 + n.val) = { c with n := 0, h := now }))
     ∧ (∀ (k : Fin 144) (v : BitVec 12), 360 < v.toInt → v.toInt < 400 → s.dev.policy.table = none → wardenRuns s.dev = true →
         Completes (.temp k v) s fun d => d = warm k v)
     ∧ (∀ (k : Fin 144) (v : BitVec 12), wardenRuns s.dev = false → Completes (.temp k v) s fun d =>
         d = { warm k v with policy := { s.dev.policy with queue := s.dev.policy.queue ++ [(3, k.val, v.toInt, now)] } })
     ∧ (∀ k : Fin 144, Completes (.overtemperature k) s fun d =>
         d = raise (if k.val < 128 then .die (Fin.ofNat 8 (k.val / 16)) else .device) 3 0xFF k.val s.dev)
     ∧ (∀ rail : Fin 29, Completes (.supplyFault rail) s fun d => d = raise .device 3 0xFF rail.val s.dev))
  ∧ (∀ (s : State),
       let b := s.dev.board
       let word (w : Option Word16) : Device := { s.dev with board := { b with smbus := w } }
       (∀ c, s.dev.dbg.vccaux = false → Completes (.smbusReadWord c) s fun d => d = word none)
       ∧ (s.dev.dbg.vccaux = true →
         (Completes (.smbusReadWord 0) s fun d => d = word (some
           (if s.dev.flt.fsafe = .c4 then 0x00FF else if s.dev.mgmt.up = false then 0xFFFF else match s.dev.mgmt.dev with
             | .start => 0 | .ready => 1 | .user => 2 | .shutdown => 3 | .fatal => 4)))
         ∧ (∀ c : Byte, c = 1 ∨ (0x10 ≤ c.toNat ∧ c.toNat ≤ 0x18) → b.temps.wf (-10000) = true →
             let mine (k : Nat) : Prop := c = 1 ∨ k / 16 = c.toNat - 0x10
             (∃ k, mine k ∧ b.temps.get (-10000) k ≠ -10000) → Completes (.smbusReadWord c) s fun d => ∃ k, mine k ∧
               (∀ j, mine j → b.temps.get (-10000) j = -10000 ∨ b.temps.get (-10000) j ≤ b.temps.get (-10000) k)
               ∧ b.temps.get (-10000) k ≠ -10000 ∧ d = word (some (BitVec.ofInt 16 (b.temps.get (-10000) k))))
         ∧ (Completes (.smbusReadWord 2) s fun d => ∃ w, d = { word (some w) with free := s.dev.free + 1 })
         ∧ ∀ c : Byte, c ≠ 0 → c ≠ 1 → c ≠ 2 → ¬(0x10 ≤ c.toNat ∧ c.toNat ≤ 0x18) → Completes (.smbusReadWord c) s fun d => d = word none))

/-- Self-test and the open record: a BIST that ends drops its holds and its run, and one without findings leaves the soft repairs; the
monitors' verdict is kept and a bad one aborts a BIST; an open record closes when it is 1 ms old (R516, R561, R569).
Self-test commands: BIST_RUN answers at once, holds its beds, saves those that keep a configuration, clears what is
under test and starts the test with the history queue on; BIST_RESULT returns the
header and the records asked for; REPAIR_COMMIT burns each soft repair that no fuse record holds, a record that fails its read-back keeping
its slot, and answers how many were burnt and how many slots are left; RAKE stays in progress, holding its array; over a memory with CHECK = 0
it ends at once with NOCHECK (R152 to R154, R157, R566 to R570, R573). -/
def Obligations.SelfTest : Prop :=
  (∀ (s : State), MgmtQuiet s.dev →
     let ended (d : Device) (r : BistRun) : Prop := d.bist.run = none ∧ d.bist.soft = s.dev.bist.soft ∧ d.flt.histRun = r.hist
       ∧ (∀ o, o ∈ d.mgmt.held ↔ o ∈ s.dev.mgmt.held ∧ ∀ i, i < r.count → o ≠ .bed (r.first + i))
       ∧ d.trust = s.dev.trust ∧ d.cores = s.dev.cores
     (∀ r, s.dev.bist.run = some r → r.kind = 2 →
       (Completes (.bistComplete [] []) s fun d => ended d r ∧ d.bist.condOk = s.dev.bist.condOk)
       ∧ (Completes (.bistConditionCheck false) s fun d => ended d r ∧ d.bist.condOk = false))
     ∧ (Completes (.bistConditionCheck true) s fun d => d = { s.dev with bist := { s.dev.bist with condOk := true } })
     ∧ (s.dev.bist.run = none → ∀ ok, Completes (.bistConditionCheck ok) s fun d => d = { s.dev with bist := { s.dev.bist with condOk := ok } })
     ∧ ∀ r, s.dev.alm.opened = some r →
         (r.time + 1000000 ≤ devNs s.dev → Completes .recordClose s fun d => d.alm = { s.dev.alm with
             opened := none, chain := chainNext s.dev.alm.chain r
             recs := (s.dev.alm.recs.filter fun x => decide (r.seq < x.seq + 131072)) ++ [{ r with chain := chainNext s.dev.alm.chain r }] }
           ∧ d = { s.dev with alm := d.alm, arrays := d.arrays }
           ∧ ∀ k, k ≠ arrayKey 5 0 → d.arrays.get Coded.filled k = s.dev.arrays.get Coded.filled k)
         ∧ (devNs s.dev < r.time + 1000000 → Completes .recordClose s fun d => d = s.dev))
  ∧ (∀ (s : State) (inst : Inst) (pkt : Packet),
       let pl := pkt.payload
       let first := leAt pl 0 2
       let count := leAt pl 2 2
       (CmdGood s.dev opBistRun inst pkt → Completes (.bistRun inst pkt) s fun d =>
         let ns := (List.range count).map (· + first)
         let keeps (n : Nat) : Bool := (bedAt s.dev n).kept && (bedAt s.dev n).st = .fallow
         d.bist = { s.dev.bist with run := some {
           kind := 2, repair := bitAt (leAt pl 4 1) 0, beds := ns, first, count, start := devNs s.dev, before := (softOn s.dev).length, hist := s.dev.flt.histRun
           saves := (ns.filter keeps).map fun n => { bed := n, state := bedAt s.dev n, mems := (List.range 48).map fun m => arrayAt s.dev 0 (n * 48 + m) } } }
         ∧ (∀ n, bedAt d n = if n ∉ ns then bedAt s.dev n else
             let b := bedAt s.dev n
             if keeps n then { b with cells := .empty, blines := List.replicate 8 0, ports := .empty, bmStat := .empty, bmBad := .empty, inject := .reset }
             else { Bed.reset with st := b.st, cutFlag := b.cutFlag, repair := b.repair, unusable := b.unusable, byPolicy := b.byPolicy, rowCe := b.rowCe
                                   rowCeSrc := b.rowCeSrc, clock := b.clock, pinOut := b.pinOut, pinEn := b.pinEn })
         ∧ (∀ n m, n < 384 → m < 48 → arrayAt d 0 (n * 48 + m) = if n ∈ ns then (arrayAt s.dev 0 (n * 48 + m)).fill else arrayAt s.dev 0 (n * 48 + m))
         ∧ d.flt = { s.dev.flt with histRun := true } ∧ d.mgmt.held = s.dev.mgmt.held ++ (List.range count).map (fun i => Obj.bed (i + first))
         ∧ d.mgmt.progress = [] ∧ (∃ r, (inst, r) ∈ d.mgmt.replies ∧ r.status = 0 ∧ r.payload = [])
         ∧ d.cores = s.dev.cores ∧ d.mem = s.dev.mem ∧ d.trl = s.dev.trl)
       ∧ Replies (.bistResult inst pkt) s opBistResult inst pkt stOk
           (fun a => (readResult a).2.take 32 ++ sliceBytes (readResult a).2 (32 + 16 * first) (16 * count)) (fun a => (readResult a).1)
       ∧ (toBurn s.dev = [] → ∀ bad, Replies (.repairCommit inst pkt bad) s (opRepairCommit bad) inst pkt stOk
           (fun _ => [0, 0] ++ leBytes 2 (64 - s.dev.bist.fuses.length)) id)
       ∧ (toBurn s.dev ≠ [] → Replies (.repairCommit inst pkt []) s (opRepairCommit []) inst pkt stOk
           (fun _ => leBytes 2 (toBurn s.dev).length ++ leBytes 2 (64 - (s.dev.bist.fuses.length + (toBurn s.dev).length))) fun a =>
             cmdRec (ctxOf (opRepairCommit []) inst pkt) 0x15 0 s.dev.bist.fuses.length (s.dev.bist.fuses.length + (toBurn s.dev).length)
               { a with bist := { a.bist with fuses := a.bist.fuses ++ toBurn s.dev } })
       ∧ (∀ r, toBurn s.dev = [r] → s.dev.bist.fuses.length ≤ 62 → Replies (.repairCommit inst pkt [true]) s (opRepairCommit [true]) inst pkt stOk
           (fun _ => [1, 0] ++ leBytes 2 (64 - (s.dev.bist.fuses.length + 2))) fun a =>
             cmdRec (ctxOf (opRepairCommit [true]) inst pkt) 0x15 0 s.dev.bist.fuses.length (s.dev.bist.fuses.length + 2)
               { a with bist := { a.bist with fuses := a.bist.fuses ++ [r ^^^ 2 ^ 48, r] } })
       ∧ (let cls := leAt pl 0 1
          let idx := leAt pl 4 4
          let fresh : Rake := {
            cls, repairMode := decide (leAt pl 1 1 = 1), index := idx, start := leAt pl 8 4, len := leAt pl 12 4, done := 0, words := 0, corr := 0, unc := 0
            addr := 0, repaired := 0, firstCorr := none, firstBad := none, skipped := 0, tStart := devNs s.dev, aborted := false, inst, slotAt := devNs s.dev }
          let recorded (a : Device) : Device :=
            let c := ctxOf opRake inst pkt
            if cls = 0 then cmdRecObj c 0x03 (idx / 48) a else if cls ≤ 2 then cmdRecObj c 0x04 idx a else cmdRecObj c 0x01 0 a
          let unchecked : List Byte := leBytes 1 cls ++ leBytes 1 (leAt pl 1 1) ++ [2, 0] ++ leBytes 4 idx ++ leBytes 4 (leAt pl 8 4) ++ List.replicate 24 0
            ++ [0xFF, 0xFF, 0xFF, 0xFF] ++ List.replicate 8 0 ++ leBytes 8 (devNs s.dev) ++ leBytes 8 (devNs s.dev)
          (noCheck s.dev cls idx = true →
            (leAt pl 1 1 = 0 → Replies (.rake inst pkt) s opRake inst pkt stOk (fun _ => unchecked) id)
            ∧ (leAt pl 1 1 = 1 → Replies (.rake inst pkt) s opRake inst pkt stOk (fun _ => unchecked) recorded))
          ∧ (noCheck s.dev cls idx = false → leAt pl 1 1 = 0 → Stays (.rake inst pkt) s opRake inst pkt [.array cls 0 idx] fun a d =>
             d = { a with rakes := a.rakes ++ [fresh], mgmt := d.mgmt })
          ∧ (noCheck s.dev cls idx = false → leAt pl 1 1 = 1 → Stays (.rake inst pkt) s opRake inst pkt [.array cls 0 idx] fun a d =>
             d = { recorded a with rakes := a.rakes ++ [fresh], mgmt := d.mgmt })))

/-! ## Time -/

/-- Pins and servos: an edge on TIME_PPS_IN captures every base; a base that the pin disciplines steps onto the whole second at its first
edge and beyond 1 µs, else gets a new FADJ for microsecond m + 2 and locks at four edges within 100 ns in a row; it unlocks after 2.5 s;
TIME_PPS_OUT is high for the routed width; a base that TIME_FREQ_IN disciplines locks to a present input and unlocks without one (R388,
R396, R400).
Time across the package: RADJ changes take effect at their microsecond, on a replica those that it heard of; the hub sends its words to
the eight dies, those of a base set or stepped and a coming RADJ at once; a die that hears a good copy takes NS and SEC[3:0] of a word 0
against its own time less the latency, slews out up to 2 ns and steps out more with a C0 note, takes SEC from words 1 and 2 and RADJ from
word 3, and leaves HOLDOVER, which it enters after 16 µs with a C1 fault. An armed start that fires enables the beds and cores of
every session that waits for it and ends it; with none it lapses with a C0 note (R394 to R396, R402, R464, R466).
Time base commands: TB_SET loads a value at the next tick, cancels a slew and restarts a PPS servo; TB_ADJUST steps at the next tick,
slews at 500 ppm from the second next microsecond, and sets FADJ there, in a record that coalesces; TB_ROUTE selects the base of a subport,
a PPS output or a discipline; START_AT arms one start; each of the others makes a record of the base (R389 to R393, R396, R402, R516). -/
def Obligations.TimeBases : Prop :=
  (∀ (s : State) (pin : Fin 2),
     let now := devNs s.dev
     let ns (n : Nat) : Int := n * 2 ^ 48
     (Completes (.timePpsIn pin) s fun d =>
       (∀ n, n < 8 → d.time.ppsCap.get 0 (pin.val * 8 + n) = (tb s.dev n).value96)
       ∧ (∀ k, ¬(pin.val * 8 ≤ k ∧ k < pin.val * 8 + 8) → d.time.ppsCap.get 0 k = s.dev.time.ppsCap.get 0 k)
       ∧ (∀ n, let t := tb s.dev n
           let e := secError t.val
           ((t.mode ≠ .pps ∨ t.pin ≠ decide (pin = 1)) → tb d n = t)
           ∧ (t.mode = .pps → t.pin = decide (pin = 1) →
               (t.gotEdge = false ∨ e < -ns 1000 ∨ ns 1000 < e →
                 tb d n = { t with step := t.step - e, moved := true, locked := false, gotEdge := true, good := 0, lastEdge := now })
               ∧ (t.gotEdge = true → -ns 1000 ≤ e → e ≤ ns 1000 → ∃ f : BitVec 32,
                   let good := if -ns 100 ≤ e ∧ e ≤ ns 100 then t.good + 1 else 0
                   tb d n = { t with
                     good, locked := t.locked || decide (4 ≤ good), lastEdge := now, fadj := f.toInt
                     pend := (t.pend.filter fun c => c.fadj.isNone || decide (c.atUs < now / 1000 + 2))
                       ++ [{ atUs := now / 1000 + 2, fadj := some f.toInt, contrib := none, ends := false }] })))
       ∧ d = { s.dev with time := { s.dev.time with ppsCap := d.time.ppsCap, bases := d.time.bases }, free := s.dev.free + 1 })
     ∧ (∀ n : TbId, Completes (.ppsEdgeTimeout n) s fun d =>
         d = setTb n.val (fun t => if t.mode = .pps ∧ t.lastEdge + 2500000000 ≤ now then { t with locked := false, good := 0 } else t) s.dev)
     ∧ (∀ o, s.dev.time.ppsOut[pin.val]? = some o →
         let put (x : PpsOut) : Device := { s.dev with time := { s.dev.time with ppsOut := s.dev.time.ppsOut.set pin.val x } }
         (Completes (.timePpsOut pin) s fun d =>
           d = put (if o.width = 0 then o else { o with high := some (now + o.width.toNat * 1000000) }))
         ∧ ∀ t, o.high = some t → Completes (.ppsPulseEnd pin) s fun d => d = put (if t ≤ now then { o with high := none } else o))
     ∧ (∀ cls : Fin 4, Completes (.timeFreqIn cls) s fun d => d.time.freqClass.toNat = cls.val
         ∧ (∀ n, let t := tb s.dev n
             (t.mode ≠ .freq → tb d n = t) ∧ (t.mode = .freq → cls = 0 → tb d n = { t with locked := false })
             ∧ (t.mode = .freq → cls ≠ 0 → ∃ f : BitVec 32, tb d n = { t with
                 locked := true, fadj := f.toInt
                 pend := (t.pend.filter fun c => c.fadj.isNone || decide (c.atUs < now / 1000 + 2))
                   ++ [{ atUs := now / 1000 + 2, fadj := some f.toInt, contrib := none, ends := false }] }))
         ∧ d = { s.dev with time := { s.dev.time with freqClass := d.time.freqClass, bases := d.time.bases }, free := s.dev.free + 1 }))
  ∧ (∀ (s : State), MgmtQuiet s.dev →
       let now := devNs s.dev
       let hub : Source := .hub 6
       (∀ (n : TbId) c, s.dev.time.replicas.wf Replica.reset = true → (tb s.dev n.val).pend = [c] → c.atUs ≤ now / 1000 →
         let t := tb s.dev n.val
         let u : TimeBase := { t with
           fadjEff := c.fadj.getD t.fadjEff, contrib := c.contrib.getD t.contrib, slew := if c.ends then 0 else t.slew, pend := [] }
         Completes (if c.ends then .slewEnd n else .radjChange n) s fun d => tb d n.val = u
           ∧ (∀ m, m ≠ n.val → tb d m = tb s.dev m)
           ∧ (∀ k : Fin 72, let r := s.dev.time.replicas.get Replica.reset k.val
               d.time.replicas.get Replica.reset k.val =
                 if k.val % 9 = n.val then { r with
                   radj := ((r.due.filter fun c => decide (c.1 ≤ now / 1000)).getLast?.map (·.2)).getD r.radj
                   due := r.due.filter fun c => decide (now / 1000 < c.1) } else r)
           ∧ d = { s.dev with time := { s.dev.time with bases := d.time.bases, replicas := d.time.replicas } })
       ∧ (∀ ms, Completes (.timeBroadcast ms) s fun d => d = { s.dev with time := { s.dev.time with
               sent := d.time.sent, bases := s.dev.time.bases.map fun (t : TimeBase) => { t with moved := false } } }
           ∧ (ms = true → d.time.sent.length = 200)
           ∧ (ms = false → (∀ b < 8, (tb s.dev b).moved = false ∧ ∀ c ∈ (tb s.dev b).pend, c.atUs ≠ now / 1000 + 2) → d.time.sent.length = 72)
           ∧ ∀ (die : DieId) (b : Fin 8), let t := tb s.dev b.val
               (ms = false → (die.val, b.val + (t.ns + t.sec % 16 * 2 ^ 30) * 64) ∈ d.time.sent ∧ (die.val, 8 + now % 2 ^ 34 * 64) ∈ d.time.sent
                 ∧ (t.moved = true → (die.val, b.val + 16 + t.sec / 16 % 2 ^ 34 * 64) ∈ d.time.sent
                   ∧ (die.val, b.val + 32 + t.sec / 2 ^ 38 % 2 ^ 10 * 64) ∈ d.time.sent)
                 ∧ ∀ c, t.pend = [c] → c.atUs = now / 1000 + 2 →
                   (die.val, b.val + 48 + ofSigned 34 (c.fadj.getD t.fadjEff + c.contrib.getD t.contrib) * 64) ∈ d.time.sent)
               ∧ (ms = true → (die.val, b.val + 16 + t.sec / 16 % 2 ^ 34 * 64) ∈ d.time.sent
                 ∧ (die.val, b.val + 32 + t.sec / 2 ^ 38 % 2 ^ 10 * 64) ∈ d.time.sent
                 ∧ (die.val, b.val + 48 + ofSigned 34 t.radj * 64) ∈ d.time.sent ∧ (die.val, 24 + now / 2 ^ 34 % 2 ^ 30 * 64) ∈ d.time.sent))
       ∧ (∀ (die : DieId) (b : Fin 8) (m : SbMsg),
           let heard : Prop := (∃ l, hubPath s.dev die.val = some [l] ∧ sbGood s.dev l 1 7 m = true)
             ∨ ∃ l k, hubPath s.dev die.val = some [l, k] ∧ sbGood s.dev l (if k < die.val then 0 else 1) 7 m = true
           let t := tb s.dev b.val
           let r := replica s.dev die.val b.val
           let data := m.body.toNat / 64
           let own := ((t.val : Int) + r.off).toNat
           let sec := own / secUnits
           let sent : Int := (data % 2 ^ 30 * 2 ^ 48 + data / 2 ^ 30 % 16 * secUnits : Nat)
           let rate : Int := tickUnits + 320 * r.radj
           let e := centred ((t.val : Int) + r.off - (s.dev.time.latency.getD die.val 0 : Nat) * rate - sent) (16 * secUnits : Nat)
           (¬heard → Completes (.time die m) s fun d => d = s.dev)
           ∧ (heard → m.body.toNat % 64 = b.val → -2 * 2 ^ 48 ≤ e → e ≤ 2 * 2 ^ 48 → Completes (.time die m) s fun d =>
             d = setReplica die.val b.val { r with lastRx := now, holdover := false, slew := e, slewTicks := 800 } s.dev)
           ∧ (heard → m.body.toNat % 64 = b.val → ¬(-2 * 2 ^ 48 ≤ e ∧ e ≤ 2 * 2 ^ 48) → Completes (.time die m) s fun d => d = raise hub 0 0x17 die.val
               (setReplica die.val b.val { r with lastRx := now, holdover := false, off := r.off - e, slew := 0, slewTicks := 0 } s.dev))
           ∧ (heard → ∀ w : Nat, w = 1 ∨ w = 2 → m.body.toNat % 64 = b.val + 16 * w → Completes (.time die m) s fun d =>
               let new : Nat := if w = 1 then sec % 16 + data % 2 ^ 34 * 16 + sec / 2 ^ 38 * 2 ^ 38 else sec % 2 ^ 38 + data % 2 ^ 10 * 2 ^ 38
               d = setReplica die.val b.val { r with holdover := false, off := r.off + ((new : Int) - (sec : Int)) * (secUnits : Int) } s.dev)
           ∧ (heard → m.body.toNat % 64 = b.val + 48 → Completes (.time die m) s fun d =>
               let at' := (s.dev.time.ticks - s.dev.time.latency.getD die.val 0) * 5 / 4000 + 2
               d = setReplica die.val b.val { r with holdover := false, due := r.due ++ [(at', toSigned 34 data)] } s.dev))
       ∧ (∀ (die : DieId) (src : Fin 9), let r := replica s.dev die.val src.val
           (r.holdover = false → max r.lastRx s.dev.time.began + 16000 ≤ now → Completes (.holdover die src) s fun d =>
             d = raise hub 1 0x17 die.val (setReplica die.val src.val { r with holdover := true } s.dev))
           ∧ (now < max r.lastRx s.dev.time.began + 16000 → Completes (.holdover die src) s fun d => d = s.dev))
       ∧ (∀ a, s.dev.time.startAt = some a → a.target ≤ (tb s.dev a.tb.val).val → (∀ e ∈ entries s.dev, ¬(e.2.st = .waitingStart ∧ e.2.start = 2)) →
           Completes .startAtFire s fun d => d = raise (.hub 2) 0 0x1C 0
             { s.dev with time := { s.dev.time with startAt := none }, cfg := { s.dev.cfg with missed := true } })
       ∧ (∀ a, s.dev.time.startAt = some a → a.target ≤ (tb s.dev a.tb.val).val → (∃ e ∈ entries s.dev, e.2.st = .waitingStart ∧ e.2.start = 2) →
           let ws := (entries s.dev).filter fun x => x.2.st = .waitingStart && x.2.start = 2
           Completes .startAtFire s fun d =>
             let t := ws.foldl (fun d x => setSes x.1 none (x.2.cores.foldl enableCore (startBeds x.2.beds d)))
               { s.dev with time := { s.dev.time with startAt := none } }
             d = (if t.mgmt.dev = .ready ∧ t.cfg.ignored = true then enterUser t else t)
             ∧ ∀ x ∈ ws, sesAt t x.1 = none
               ∧ (∀ n : BedId, n.val ∈ x.2.beds → (bedAt s.dev n.val).st = .committed → (shellAt s.dev (.gen n)).st = .idle →
                   (shellAt t (.gen n)).st = .starting ∧ (shellAt t (.gen n)).en = true)
               ∧ (∀ c : CoreId, c.val ∈ x.2.cores → (coreAt s.dev c.val).st = .idle → (coreAt t c.val).st = .starting ∧ (coreAt t c.val).en = true))
       ∧ (s.dev.time.startAt = none ∨ (∃ a, s.dev.time.startAt = some a ∧ (tb s.dev a.tb.val).val < a.target) →
           Completes .startAtFire s fun d => d = s.dev))
  ∧ (∀ (s : State) (inst : Inst) (pkt : Packet),
       let pl := pkt.payload
       let n := leAt pl 0 1
       let base (k : Nat) (f : TimeBase → TimeBase) (a : Device) : Device := { a with time := { a.time with bases := a.time.bases.modify k f } }
       let value : Nat :=
         let v := leAt pl 4 12
         v / 2 ^ 48 * (10 ^ 9 * 2 ^ 48) + v / 2 ^ 16 % 2 ^ 32 * 2 ^ 48 + v % 2 ^ 16 * 2 ^ 32
       Replies (.tbSet inst pkt) s opTbSet inst pkt stOk (fun _ => []) (fun a =>
         cmdRecObj (ctxOf opTbSet inst pkt) 0x0F n (base n (fun t => { t with
           load := some value, step := 0, moved := true, isSet := true, gotEdge := false, good := 0, slew := 0
           pend := (t.pend.filter fun x => x.contrib.isNone)
             ++ if t.contrib = 0 then [] else [{ atUs := devNs a / 1000 + 2, fadj := none, contrib := some 0, ends := true }]
           locked := if t.mode = .pps then false else t.locked }) a))
       ∧ (let flags := leAt pl 1 1
          let fadj := (BitVec.ofNat 32 (leAt pl 4 4)).toInt
          let off := (BitVec.ofNat 64 (leAt pl 8 8)).toInt
          let us := devNs s.dev / 1000
          let adj (f : TimeBase → TimeBase) : Prop := Replies (.tbAdjust inst pkt) s opTbAdjust inst pkt stOk (fun _ => []) fun a =>
            let (x, a) := freshDigest (base n f a)
            almCoalesce { origin := instOrigin inst, principal := principalOf (ctxOf opTbAdjust inst pkt), objClass := 0x0F, objId := n, action := 0x0602
                          status := 0, before := 0, after := x } none a
          (flags = 0 → adj id)
          ∧ (flags = 2 → adj fun t => { t with
               fadj, pend := (t.pend.filter fun x => x.fadj.isNone || decide (x.atUs < us + 2))
                 ++ [{ atUs := us + 2, fadj := some fadj, contrib := none, ends := false }] })
          ∧ (flags = 5 → adj fun t => { t with step := t.step + off * 2 ^ 32, moved := true })
          ∧ (flags = 1 → 0 ≤ off → (tb s.dev n).slew = 0 → (tb s.dev n).pend = [] → adj fun t =>
               let k := off.toNat / 32768
               { t with slew := off, slewFrom := us + 2
                        pend := [{ atUs := us + 2, fadj := none, contrib := some 549755814, ends := false }
                                 , { atUs := us + 2 + k, fadj := none, contrib := some (((off.toNat % 32768 : Nat) * 2 ^ 24 + 500) / 1000), ends := false }
                                 , { atUs := us + 2 + k + 1, fadj := none, contrib := some 0, ends := true }] }))
       ∧ (let k := leAt pl 1 1
          let i := leAt pl 2 2
          let route (f : Device → Device) : Prop := Replies (.tbRoute inst pkt) s opTbRoute inst pkt stOk (fun _ => []) fun a =>
            cmdRecObj (ctxOf opTbRoute inst pkt) 0x0F k (f a)
          (n = 0 → route fun a => { a with time := { a.time with rxBase := a.time.rxBase.set 0 i k } })
          ∧ (n = 1 → route fun a => { a with time := { a.time with ppsOut := a.time.ppsOut.modify (i % 256) fun o =>
               { o with tb := Fin.ofNat 8 k, width := BitVec.ofNat 8 (i / 256), high := if i / 256 = 0 then none else o.high } } })
          ∧ (n = 2 → route (base k fun t => { t with
               mode := if i % 256 = 0 then .software else if i % 256 = 3 then .freq else .pps, pin := decide (i % 256 = 2), tc := BitVec.ofNat 8 (i / 256)
               locked := false, gotEdge := false, good := 0, lastEdge := devNs s.dev })))
       ∧ Replies (.startAt inst pkt) s opStartAt inst pkt stOk (fun _ => []) fun a =>
           cmdRecObj (ctxOf opStartAt inst pkt) 0x0F n { a with time := { a.time with startAt := some { tb := Fin.ofNat 8 n, target := value, fired := false } } })

/-! ## Trellis -/

/-- Requests to a core's data memory: reads answer the bytes, writes and posted writes store them and end others' reservations on their
lines, FETCH_ADD, SWAP and CAS answer the old value, a CAS that differs and an XSTORE without a reservation answer EXFAIL and store
nothing, an XLOAD records a reservation that its XSTORE consumes; another plot's request is refused with a note (R31, R32, R240, R243, R245 to
R247, R254). -/
def Obligations.TrellisRequests : Prop :=
  ∀ (s : State) (r : TrlReq) (t c off : Nat), MgmtQuiet s.dev → spotOf r.addr.toNat = .core c 2 off →
    let n := r.bcnt.toNat + 1
    let arr := arrayAt s.dev 2 c
    let clean : Prop := arr.dec = [] ∧ cleanRun s.dev 2 c off n
    let line := r.addr.toNat / 64
    let old := numAt s.dev 2 c off n
    let size := 2 ^ (8 * n)
    let A := r.opA.toNat % size
    let B := r.opB.toNat % size
    let mine (opc : Opc) (at' : AtType) : Prop := CanSend s.dev opc at' r t ∧ formOk (sentPkt s.dev opc at' r t) = true
      ∧ coreOwner s.dev c = actPlot s.dev (sentPkt s.dev opc at' r t)
    let same := s.dev.trl.resvs
    let broken := brokenBy s.dev r.init c line r.len.toNat
    (arr.dec = [] →
      (mine .write .xload → CoreMemDoes (.write r) s .write .xload r t c off rcOkay [] (some r.data) broken)
      ∧ (mine .pwrite .xload → CoreMemDoes (.pwrite r) s .pwrite .xload r t c off rcOkay [] (some r.data) broken))
    ∧ (clean →
      (mine .read .xload → CoreMemDoes (.read r) s .read .xload r t c off rcOkay (leBytes n old) none same)
      ∧ (mine .atomic .fetchAdd → CoreMemDoes (.fetchAdd r) s .atomic .fetchAdd r t c off rcOkay (leBytes n old)
          (some (leBytes n ((old + A) % size))) broken)
      ∧ (mine .atomic .swap → CoreMemDoes (.swap r) s .atomic .swap r t c off rcOkay (leBytes n old) (some (leBytes n A)) broken)
      ∧ (mine .atomic .cas → old = B → CoreMemDoes (.cas r) s .atomic .cas r t c off rcOkay (leBytes n old) (some (leBytes n A)) broken)
      ∧ (mine .atomic .cas → old ≠ B → CoreMemDoes (.cas r) s .atomic .cas r t c off rcExfail (leBytes n old) none same)
      ∧ (mine .atomic .xload → (∀ k, initKind r.init ≠ .ls k) →
          let others := same.filter fun x => !(x.stop = 2 + c && x.init = r.init && x.line = line)
          (others.filter fun x => x.stop = 2 + c).length < 16 →
          CoreMemDoes (.xload r) s .atomic .xload r t c off rcOkay (leBytes n old) none (others ++ [{ stop := 2 + c, init := r.init, line }]))
      ∧ (mine .atomic .xstore → (∀ k, initKind r.init ≠ .ls k) → hasResv (2 + c) r.init line s.dev = true →
          CoreMemDoes (.xstore r) s .atomic .xstore r t c off rcOkay [] (some (leBytes n A))
            (broken.filter fun x => !(x.stop = 2 + c && x.init = r.init && x.line = line))))
    ∧ (mine .atomic .xstore → (∀ k, initKind r.init ≠ .ls k) → hasResv (2 + c) r.init line s.dev = false →
        CoreMemDoes (.xstore r) s .atomic .xstore r t c off rcExfail [] none same)
    ∧ (CanSend s.dev .read .xload r t → formOk (sentPkt s.dev .read .xload r t) = true →
        coreOwner s.dev c ≠ actPlot s.dev (sentPkt s.dev .read .xload r t) → Completes (.read r) s fun d =>
          TagTaken s.dev d .read r t ∧ d.arrays = s.dev.arrays ∧ d.flt = (noteAccess r.init r.addr.toNat s.dev).flt
          ∧ d.trl.rsps = s.dev.trl.rsps ++ [{ req := sentPkt s.dev .read .xload r t, rcode := rcDenied, data := [] }])

/-- Responses and timers at a management core's stop: a response whose tag is BUSY with its generation is delivered and frees the tag, any
other is discarded and counted late; a request that expires is answered TIMEOUT and its tag is TAINTED while an entry is free; a taint
that runs out frees the tag with the next generation (R253 to R255, R257, R260).
Bridges, age, promotion, marks and counters: a packet that comes to a bridge waits there for the flit credits of its link, or crosses as
units on the packet strand with the fewest bytes queued, and a request with no route is answered NO_ROUTE at the bridge; packets of age 31
are gone wherever they wait, but those that a bed has accepted; PROMOTE and STARVE take effect when their time is over; ST_CTL.CLR clears
its counters (R30, R236, R237, R248, R250, R252, R262, R344). -/
def Obligations.TrellisTags : Prop :=
  (∀ (s : State) (i : InitId) (tag : BitVec 10), MgmtQuiet s.dev → isMgmtCore i = true →
     let w := win s.dev i
     let x := tagOf w tag.toNat
     let others (d : Device) : Prop := (∀ k, k ≠ tag.toNat → tagOf (win d i) k = tagOf w k) ∧ ∀ j, j ≠ i → win d j = win s.dev j
     let sat (v : Nat) : Nat := min (v + 1) (2 ^ 32 - 1)
     (∀ r q user, s.dev.trl.rsps = r :: q → r.req.init = i → r.req.tag = tag → tooOld s.dev r.req = false →
       (route s.dev (rspSite s.dev r) (initSite i)).isSome = true →
       (x.st = .busy → x.gen = r.req.gen → Completes (.trellisResponse ⟨i, tag, r.req.gen⟩ user) s fun d =>
         d.answer = some (r.rcode, BitVec.ofNat 64 (leAt r.data 0 8)) ∧ tagOf (win d i) tag.toNat = { Tag.reset with gen := x.gen }
         ∧ (win d i).stats.err = (if 2 ≤ r.rcode.toNat then sat w.stats.err else w.stats.err) ∧ others d
         ∧ d = { s.dev with answer := d.answer, trl := { s.dev.trl with wins := d.trl.wins, rsps := q } })
       ∧ (x.st = .busy ∧ x.gen ≠ r.req.gen ∨ x.st = .free → Completes (.trellisResponse ⟨i, tag, r.req.gen⟩ user) s fun d =>
         tagOf (win d i) tag.toNat = x ∧ (win d i).stats.late = sat w.stats.late ∧ others d
         ∧ d = { s.dev with trl := { s.dev.trl with wins := d.trl.wins, rsps := q } })
       ∧ (x.st = .tainted → w.expired = [] → Completes (.trellisResponse ⟨i, tag, r.req.gen⟩ user) s fun d =>
         tagOf (win d i) tag.toNat = { Tag.reset with gen := x.gen + 1 } ∧ (win d i).stats.late = sat w.stats.late ∧ others d
         ∧ (win d i).taints = w.taints.filter (·.1 ≠ tag.toNat)
         ∧ d = { s.dev with trl := { s.dev.trl with wins := d.trl.wins, rsps := q } }))
     ∧ (x.st = .busy → x.start + x.tmo ≤ devNs s.dev → w.taints.length < 63 → Completes (.initTmo i tag) s fun d =>
         d.answer = some (rcTimeout, 0) ∧ tagOf (win d i) tag.toNat = { x with st := .tainted }
         ∧ (win d i).taints = w.taints ++ [(tag.toNat, devNs s.dev + max w.taint.toNat 512 * 1000)]
         ∧ (win d i).stats.tmo = sat w.stats.tmo ∧ others d
         ∧ d = { s.dev with answer := d.answer, trl := { s.dev.trl with wins := d.trl.wins } })
     ∧ (∀ e, (tag.toNat, e) ∈ w.taints → e ≤ devNs s.dev → w.expired = [] → Completes (.taintExpiry i tag) s fun d =>
         tagOf (win d i) tag.toNat = { Tag.reset with gen := x.gen + 1 } ∧ (win d i).taints = w.taints.filter (·.1 ≠ tag.toNat) ∧ others d
         ∧ d = { s.dev with trl := { s.dev.trl with wins := d.trl.wins } }))
  ∧ (∀ (s : State),
       (∀ (site : Site) (x : Parcel), s.dev.trl.legs = [] → tooOld s.dev x.pkt = false →
         (match x with | .req p => s.dev.trl.net.head? = some p | .rsp r => s.dev.trl.rsps.head? = some r) →
         (boundFrom s.dev x).1 = siteNo site → (boundFor s.dev x).1 ≠ siteNo site →
         let n := siteNo site
         let k : RspKey := ⟨x.pkt.init, x.pkt.tag, x.pkt.gen⟩
         let t := s.dev.trl
         let e : Device := { s.dev with trl := { t with lastRoute := (route s.dev site (siteAt (boundFor s.dev x).1)).getD [] } }
         (∀ b l dir, bridgeFor s.dev n (boundFor s.dev x).1 = some b → bridgeLink n b = some (l, dir) →
           let y := linkAt s.dev l
           let fits : Prop := y.mode = .up ∧ x.flits ≤ flitCredits y dir (parcelCls x)
           (¬fits ∨ emptiestStrand l dir y = none → Completes (.bridgeForward site x.isRsp k) s fun d =>
             d = addLeg { newLeg e (ringCycles s.dev.time.ticks) x n (boundFrom s.dev x).2 none with
               stop := b, dst := b, stage := .bridge l dir } e)
           ∧ ∀ m, fits → emptiestStrand l dir y = some m → Completes (.bridgeForward site x.isRsp k) s fun d =>
             d = setLink l { y.setStrand dir m { y.strand dir m with txq := (y.strand dir m).txq ++ x.units } with
                 credits := y.credits.modify (credKey dir (parcelCls x)) (· - x.flits) }
               (leaveNet x { e with trl := { e.trl with serial := t.serial + 1 } }))
         ∧ (bridgeFor s.dev n (boundFor s.dev x).1 = none →
           (∀ p, x = .req p → p.opc ≠ .pwrite → Completes (.bridgeForward site false k) s fun d =>
             d = enterAt (.rsp { req := p, rcode := rcNoRoute, data := [] }) n (deadEnd n (boundFor s.dev x).1) none (leaveNet x e))
           ∧ (x.isRsp = true → Completes (.bridgeForward site true k) s fun d => d = leaveNet x e)))
       ∧ (MgmtQuiet s.dev → Completes .packetAgeDiscard s fun d =>
           let young (p : Pkt) : Bool := decide (((devStamp s.dev) - p.stamp).toNat < 31)
           d = { s.dev with trl := { s.dev.trl with
             net := s.dev.trl.net.filter young, waiting := s.dev.trl.waiting.filter fun w => begun w || young w.pkt
             rsps := s.dev.trl.rsps.filter fun r => young r.req } })
       ∧ (∀ (i : InitId) (g : Leg) (h : Nat), s.dev.trl.legs.find? (fun x => x.stage = .queue && x.own && x.init = i) = some g → g.head = some h →
           let p := (ringsOf s.dev (siteAt g.site)).promote.toNat
           Completes (.promote i) s fun d =>
             d = if g.body.pkt.pri.toNat ≤ 1 ∧ p ≠ 0 ∧ h + 16 * p ≤ ringCycles s.dev.time.ticks then setWin i { win s.dev i with promoted := true } s.dev
                 else s.dev)
       ∧ (∀ (i : InitId) (ring : Fin 8) (r : Nat), initKind i ≠ .none →
           let site := siteNo (initSite i)
           let stop := initStop i
           (ringsOf s.dev (initSite i)).marks.contains (stop, ring.val) = false → (stopAt s.dev site stop).ready.get 0 ring.val = r + 1 →
           Completes (.starveMark i ring) s fun d =>
             d = if r + max 16 (ringsOf s.dev (initSite i)).starve.toNat ≤ ringCycles s.dev.time.ticks
                 then setRings (initSite i) (fun x => { x with marks := x.marks ++ [(stop, ring.val)] }) s.dev else s.dev)
       ∧ ∀ (i j : InitId) (freeze : Bool), isMgmtCore i = true → initKind j ≠ .none →
           (∀ b, blkOf (winOff j + 0x80) = some b → RegAccepts s.dev i b.1 b.2 (winOff j + 0x80 - b.2) (1 + bit freeze 1) (2 ^ 32 - 1)) →
           Completes (.stCtlClr i j freeze) s fun d => d = okay (setWin j { win s.dev j with freeze, stats := Stats.reset } s.dev))

/-! ## Memory -/

/-- Channels: an owed refresh counts; the retraining interval, unless it is 0, and a changed indication with RETRAIN_TEMP retrain; a poll keeps
each rank's indication, and one above its range sets TEMP_HI with a C2 fault and a measurement of that indication; a retraining issues owed
refreshes, stops commands, takes the eye that it finds, is repeated once, and a second failure loses the channel with DATA_ERROR and C3; a
drain begins and ends by HIGH, LOW and WR_AGE; self-refresh is left with MSTAT.SR clear (R280 to R283, R287, R293). Which bits of a poll are
whose is the model's reading (log 141).
The entry of self-refresh completes: each channel named has done its reads and writes, lost its dropped segments and sleeps, and the
command is answered (R285, R286). -/
def Obligations.MemoryChannels : Prop :=
  (∀ (s : State) (ch : ChanId), MgmtQuiet s.dev → MemCalm s.dev → s.dev.mem.chans.wf Chan.reset = true →
     let c := chAt s.dev ch.val
     let put (x : Chan) : Device := setCh ch.val x s.dev
     let stopped (x : Chan) : Chan := { x with retrain := some 1, owed := .empty, rows := .empty }
     (∀ (rank : Fin 2) (bank : Fin 16), c.fitted = true → c.sr = .off ∨ c.sr = .entering → rank.val < c.present.toNat →
       Completes (.refreshDue ch rank bank) s fun d =>
         let k := rank.val * 16 + bank.val
         d = put { c with owed := c.owed.set 0 k (c.owed.get 0 k + 1) })
     ∧ (c.fitted = true → c.retrain = none → c.sr = .off →
       Completes (.periodicRetraining ch) s (fun d => d = if c.refresh.extractLsb' 0 8 = 0 then s.dev else put (stopped c))
       ∧ ∀ (rates : Byte × Byte) (high : BitVec 2),
           let two : Bool := decide (c.present = 2)
           let hot (k : Nat) : Bool := high.getLsbD k && (decide (k = 0) || two)
           let polled : Chan := { c with rateCode := rates.1, rateCode1 := if two then rates.2 else 0, tempHi := c.tempHi || hot 0 || hot 1 }
           let after := if (rates.1 ≠ c.rateCode ∨ two = true ∧ rates.2 ≠ c.rateCode1) ∧ c.refresh.getLsbD 8 = true then stopped polled else polled
           let note (k : Nat) (r : Byte) (d : Device) : Device :=
             if hot k then occur 0x09 ch.val r.toNat (raise (.channel ch) 2 0x0E r.toNat d) else d
           Completes (.refreshRatePoll ch rates high) s fun d =>
             d = fuseHold s.dev (drainPolicy (note 1 rates.2 (note 0 rates.1 (put after)))))
     ∧ (∀ b0 b1 w0 w1, wfAltered w0 = true → wfAltered w1 = true → c.retrain ≠ none → s.dev.policy.queue = [] →
         Completes (.dramReadComplete ch b0 b1 w0 w1) s fun d => d = s.dev)
     ∧ (∀ n, c.retrain = some n →
       (∀ eye, Completes (.retrainingComplete ch (some eye)) s fun d =>
         d = modShell (.phy ch) (fun x => x.calDone true) (put { c with retrain := none, eye }))
       ∧ (n = 1 → Completes (.retrainingComplete ch none) s fun d => d = put { c with retrain := some 2 })
       ∧ (n ≠ 1 → (shellAt s.dev (.phy ch)).st = .active → (shellAt s.dev (.phy ch)).en = true → (shellAt s.dev (.phy ch)).deferral = none →
           (∀ t ∈ s.dev.mem.txns, t.pkt.opc ≠ .pwrite) → AlmTakes s.dev → Completes (.retrainingComplete ch none) s fun d =>
             let here (l : Nat) : Bool := (memWindow s.dev (l * 64)).any fun w => (w.map (l * 64)).1 = ch.val
             let hit (t : Txn) : Bool := (c.rd.any fun r => r.txn = t.id) || t.reads.todo.any here
             let lost := s.dev.mem.txns.filter hit
             (chAt d ch.val).failed = true ∧ (chAt d ch.val).retrain = none
             ∧ (chAt d ch.val).rd = [] ∧ (chAt d ch.val).wr = [] ∧ (chAt d ch.val).held = []
             ∧ (shellAt d (.phy ch)).st = .fault
             ∧ d.mem.txns = s.dev.mem.txns.filter (fun t => !lost.any fun u => u.id = t.id)
             ∧ d.trl.rsps = s.dev.trl.rsps ++ lost.map (fun t => { req := t.pkt, rcode := rcData, data := [] })
             ∧ d.flt.arriving = s.dev.flt.arriving ++ [{ src := .channel ch, cls := 3, cause := 0x0F, detail := 0, time := devNs s.dev }]
             ∧ d.alm = (selfRec 0x08 ch.val 0x800A 0 0 0 s.dev).alm))
     ∧ (let high := if c.sched.extractLsb' 0 7 = 0 then 1 else min (c.sched.extractLsb' 0 7).toNat 64
        let low := min (c.sched.extractLsb' 8 7).toNat (high - 1)
        let age := (c.sched.extractLsb' 16 8).toNat
        let aged := age ≠ 0 ∧ ∃ e ∈ c.wr, e.time + age * 1000 < devNs s.dev
        ∃ b : Bool, (b = true ↔ if c.draining then ¬(c.wr.length ≤ low ∧ ¬aged) else high ≤ c.wr.length ∨ aged)
          ∧ Completes (.wrAgeExpiry ch) s fun d => d = put { c with draining := b })
     ∧ ∀ eye,
       (c.sr ≠ .exiting → Completes (.selfRefreshExitComplete ⟨ch, eye⟩) s fun d => d = s.dev)
       ∧ (c.sr = .exiting → (∀ w ∈ s.dev.trl.waiting, w.why ≠ .selfRefresh ch.val) → Completes (.selfRefreshExitComplete ⟨ch, eye⟩) s fun d =>
         d = put { c with sr := .off, seg0 := 0, seg1 := 0, autoExit := false, eye }))
  ∧ (∀ (s : State) (p : Progress), MemTidy s.dev → s.dev.rakes = [] → s.dev.mgmt.progress = [p] → s.dev.mgmt.parked = [] → p.opcode = 0x0403 →
       let named (ch : Nat) : Prop := ch < 24 ∧ bitAt (leAt p.pkt.payload 0 4) ch = true
       (∀ ch, named ch → let c := chAt s.dev ch
         c.sr = .entering ∧ c.rd = [] ∧ c.held = [] ∧ c.exitDue = false ∧ c.autoExit = false ∧ (c.wr.map (·.line)).Nodup ∧ c.wr.length ≤ 64
           ∧ ∀ e ∈ c.wr, e.line < 2 ^ 29) →
       Completes .selfRefreshEntryComplete s fun d =>
         (∀ ch, named ch → let c := chAt s.dev ch
           chAt d ch = { c with sr := .on, draining := false, owed := .empty, rows := .empty, wr := [] }
           ∧ (∀ l, l < 2 ^ 29 → storedLine d ch l =
               if storedLine s.dev ch l = .blank ∧ (∀ e ∈ c.wr, e.line ≠ l) then .blank
               else if dropsSeg c.seg0.toNat c.seg1.toNat (segOf c.density.toNat (l * 64)) then .lost else currentLine s.dev ch l)
           ∧ ∀ g, g < 16 → bitAt (d.mem.lostSegs.get 0 ch) g = (bitAt (s.dev.mem.lostSegs.get 0 ch) g || dropsSeg c.seg0.toNat c.seg1.toNat (g / 8, g % 8)))
         ∧ (∀ ch, ¬named ch → chAt d ch = chAt s.dev ch ∧ ∀ l, l < 2 ^ 29 → ch < 24 → storedLine d ch l = storedLine s.dev ch l)
         ∧ d = { finish p stOk [] s.dev with mem := { s.dev.mem with chans := d.mem.chans, lines := d.mem.lines, lostSegs := d.mem.lostSegs } })

/-- Reads as they return to a request outside P2: the entry that R280 serves leaves its queue and passes are counted; a line of class CLEAN or
CORRECTED is delivered, with the bytes that altered bursts bring, CORRECTED with a count, ERR_FIRST, a C1 fault and a write-back;
UNCORRECTABLE or ADDRESS answers DATA_ERROR with C2 (R280, R290, R291, R315). -/
def Obligations.MemoryReads : Prop :=
  ∀ (s : State) (ch : ChanId) (b0 b1 : Burst) (w0 w1 : Option (List Byte)) (i : Nat) (e : RdEntry) (t : Txn) (x : Span),
    MgmtQuiet s.dev → MemTidy s.dev → MemCalm s.dev → wfAltered w0 = true → wfAltered w1 = true →
    let c := chAt s.dev ch.val
    let isOpen (l : Nat) : Bool := rowOpen s.dev ch.val l
    let limit := if c.sched.extractLsb' 24 4 = 0 then 1 else (c.sched.extractLsb' 24 4).toNat
    c.failed = false → c.retrain = none → c.sr = .off → c.draining = false → c.held = [] → c.rd[i]? = some e →
    ((limit ≤ e.passed ∧ ∀ j, j < i → ∀ y, c.rd[j]? = some y → y.passed < limit)
      ∨ (∀ y ∈ c.rd, y.passed < limit) ∧ (isOpen e.line = true ∧ (∀ j, j < i → ∀ y, c.rd[j]? = some y → isOpen y.line = false)
        ∨ i = 0 ∧ ∀ y ∈ c.rd, isOpen y.line = false)) →
    (∀ k, c.owed.get 0 k ≤ min (c.refresh.extractLsb' 16 4).toNat 8) →
    s.dev.mem.txns.find? (fun u => u.id = e.txn) = some t → t.job = .access → t.region = none → t.spans = [x] → x.dline = e.dline →
    t.reads.need = [e.dline] → t.reads.todo = [] → (∀ g ∈ t.reads.got, g.1 ≠ e.dline) → t.pkt.opc = .read →
    (∀ k y, y ∈ (chAt s.dev k).rd → y.txn = t.id → k = ch.val ∧ y = e) → c.rd.Nodup → s.dev.policy.queue = [] →
    let rest : List RdEntry := (c.rd.take i).map (fun y => { y with passed := y.passed + 1 }) ++ c.rd.drop (i + 1)
    let k := coordOf s.dev ch.val e.line
    let served : Chan := { c with rd := rest, rows := c.rows.set 0 (bankKey k) (k.row + 1) }
    let answered (rc : Byte) (data : List Byte) (u : Device) (d : Device) : Prop :=
      (∀ n, chAt d n = chAt u n) ∧ d.trl.rsps = s.dev.trl.rsps ++ [{ req := t.pkt, rcode := rc, data }]
      ∧ d.mem.txns = s.dev.mem.txns.filter (fun y => y.id ≠ t.id)
      ∧ d = { u with mem := { u.mem with chans := d.mem.chans, txns := d.mem.txns }, trl := { u.trl with rsps := d.trl.rsps } }
    let first (code pos sub : Nat) : Word64 :=
      if c.first.getLsbD 63 then c.first else BitVec.ofNat 64 (e.line % 2 ^ 29 * 2 ^ 6 + pos * 2 ^ 35 + sub * 2 ^ 41 + code * 2 ^ 42 + 2 ^ 63)
    let detail (code pos sub : Nat) : Nat := e.line % 2 ^ 29 * 2 ^ 6 + pos * 2 ^ 35 + sub * 2 ^ 41 + code * 2 ^ 42
    ∀ data, storedLine s.dev ch.val e.line = .held data none → data.length = 64 →
      let bytes := w0.getD (data.take 32) ++ w1.getD (data.drop 32)
      (b0.errs = 0 → b1.errs = 0 → Completes (.dramReadComplete ch b0 b1 w0 w1) s fun d =>
        answered rcOkay (sliceBytes bytes x.lo x.n) (setCh ch.val served s.dev) d)
      ∧ (b0.errs = 1 → b0.pos.val < 36 → b1.errs = 0 → c.wr = [] → wardenRuns s.dev = false → Completes (.dramReadComplete ch b0 b1 w0 w1) s fun d =>
          let counted : Chan := { served with corr := min (c.corr + 1) 0xFFFF, first := first 1 b0.pos.val 0 }
          answered rcOkay (sliceBytes bytes x.lo x.n) (occur 0x07 ch.val 0 (raise (.channel ch) 1 0x0C (detail 1 b0.pos.val 0)
            (setCh ch.val ({ counted with wr := [{ line := e.line, data := bytes, ctx := none, keyId := t.keyId, time := devNs s.dev, passed := 0 }] }.drainState
              (devNs s.dev)) s.dev))) d)
      ∧ (wardenRuns s.dev = false → b0.errs = 0 → (b1.errs = 2 ∨ b1.errs = 3) → Completes (.dramReadComplete ch b0 b1 w0 w1) s fun d =>
          answered rcData [] (occur 0x08 ch.val 0 (raise (.channel ch) 2 0x0D (detail 2 0 1)
            (setCh ch.val { served with unc := min (c.unc + 1) 255, first := first 2 0 1 } s.dev))) d)
      ∧ (wardenRuns s.dev = false → b0.errs = 1 → 36 ≤ b0.pos.val → b1.errs = 0 → Completes (.dramReadComplete ch b0 b1 w0 w1) s fun d =>
          answered rcData [] (occur 0x08 ch.val 0 (raise (.channel ch) 2 0x0D (detail 3 b0.pos.val 0)
            (setCh ch.val { served with addr := min (c.addr + 1) 255, first := first 3 b0.pos.val 0 } s.dev))) d)

/-- Reads as they return to a request of a P2 region whose counter block is cached: with the right MAC the line is decrypted and delivered; with
another it answers INTEGRITY, is counted, raises a security event and poisons its region with cause 1; a counter block or node that comes
UNCORRECTABLE or ADDRESS answers INTEGRITY and poisons with cause 2 (R299, R309, R312, R314, R316, R317). -/
def Obligations.ProtectedReads : Prop :=
  ∀ (s : State) (ch : ChanId) (b0 b1 : Burst) (e : RdEntry) (t : Txn) (idx : Nat), MgmtQuiet s.dev → MemTidy s.dev → MemCalm s.dev →
    let c := chAt s.dev ch.val
    c.failed = false → c.retrain = none → c.sr = .off → c.draining = false → c.rd = [e] → (∀ k, c.owed.get 0 k = 0) →
    s.dev.mem.txns.find? (fun u => u.id = e.txn) = some t → t.job = .access → t.region = some idx → idx < 1024 →
    t.reads.need = [e.dline] → t.reads.todo = [] → (∀ g ∈ t.reads.got, g.1 ≠ e.dline) → t.pkt.opc = .read →
    (∀ k, k ≠ ch.val → ∀ y ∈ (chAt s.dev k).rd, y.txn ≠ t.id) → (∀ y ∈ s.dev.mem.txns, y.region = some idx → y.id = t.id) →
    s.dev.policy.queue = [] → wardenRuns s.dev = false →
    let r := regionAt s.dev idx
    r.level = 2 → r.keyId ≠ 0 → r.st = .active →
    let a := e.dline * 64
    let poisoned (inst : Fin 3) (cause : Nat) (before : List Report) (occurred : List (Nat × Nat × Int × Nat)) (d : Device) : Prop :=
      d.trl.rsps = s.dev.trl.rsps ++ [{ req := t.pkt, rcode := rcIntegrity, data := [] }]
      ∧ regionAt d idx = { r.settled with st := .poisoned, poison := cause } ∧ (∀ j, j ≠ idx → regionAt d j = regionAt s.dev j)
      ∧ d.mem.due = s.dev.mem.due ++ [idx]
      ∧ d.mem.dataInteg = (if cause = 1 then min (s.dev.mem.dataInteg + 1) 255 else s.dev.mem.dataInteg)
      ∧ d.mem.metaInteg = (if cause = 1 then s.dev.mem.metaInteg else min (s.dev.mem.metaInteg + 1) 255)
      ∧ d.flt.arriving.take (s.dev.flt.arriving.length + before.length + 1) = s.dev.flt.arriving ++ before ++
          [{ src := .hub 8, cls := evClass s.dev inst.val, cause := 0x14, detail := BitVec.ofNat 64 (inst.val + idx * 256), time := devNs s.dev }]
      ∧ d.policy.queue = occurred ++ [((0x0A : Nat), inst.val, (idx : Int), devNs s.dev)]
      ∧ ∀ tl ∈ d.mem.tillers, tl.op ≠ .idle → tl.region ≠ idx
    (b0.errs = 0 → (b1.errs = 2 ∨ b1.errs = 3) → isNode s.dev (some idx) e.dline = true →
      Completes (.dramReadComplete ch b0 b1 none none) s (poisoned 1 2
        [{ src := .channel ch, cls := 2, cause := 0x0D, detail := BitVec.ofNat 64 (e.line % 2 ^ 29 * 2 ^ 6 + 2 ^ 41 + 2 * 2 ^ 42), time := devNs s.dev }]
        [(0x08, ch.val, 0, devNs s.dev)]))
    ∧ ∀ (x : Span) (cl : CacheLine) (macs : List Byte), b0.errs = 0 → b1.errs = 0 → isNode s.dev (some idx) e.dline = false →
        s.dev.mem.unread.contains e.dline = false → t.spans = [x] → x.dline = e.dline →
        cached s.dev (r.nodeAddr 0 (r.pageIdx t.pkt.addr.toNat)) = some cl → (∀ y ∈ s.dev.mem.cache, y.line = cl.line → y = cl) →
        (∀ b ∈ cacheBytes s.dev cl, b.cls = .clean) →
        let blk := ofLe (dataOf (cacheBytes s.dev cl))
        blkKgen blk = r.keyGen % 16 → t.reads.at (r.macAddr a) = some macs → r.macAddr a / 64 ≠ e.dline →
        let raw := (asFilled s.dev a (storedLine s.dev ch.val e.line)).raw
        let under := p2Seal s.dev r a blk
        (lineMac under raw ≠ sliceBytes macs (r.macSlot a) 8 →
          Completes (.dramReadComplete ch b0 b1 none none) s (poisoned 0 1 [] []))
        ∧ (lineMac under raw = sliceBytes macs (r.macSlot a) 8 → Completes (.dramReadComplete ch b0 b1 none none) s fun d =>
            let k := coordOf s.dev ch.val e.line
            chAt d ch.val = { c with rd := [], rows := c.rows.set 0 (bankKey k) (k.row + 1) } ∧ (∀ n, n ≠ ch.val → chAt d n = chAt s.dev n)
            ∧ d.trl.rsps = s.dev.trl.rsps ++ [{ req := t.pkt, rcode := rcOkay, data := sliceBytes (xorBytes raw (keystream under)) x.lo x.n }]
            ∧ d.mem.txns = s.dev.mem.txns.filter (fun y => y.id ≠ t.id) ∧ (∀ y, y ∈ d.mem.cache ↔ y ∈ s.dev.mem.cache)
            ∧ d = { s.dev with mem := { s.dev.mem with chans := d.mem.chans, txns := d.mem.txns, cache := d.mem.cache }
                               trl := { s.dev.trl with rsps := d.trl.rsps } })

/-- MAP_SET replaces all eight windows at once, with one record that carries the digests of the old and the new table; an entry into
self-refresh takes its masks and holds the channels until they sleep, and is answered at once where all sleep already; an exit takes sleeping
channels out, is deferred for one that is still entering, and makes no record for one that is awake (R275 to R277, R284, R286 to R288). The
bytes that a table's digest covers are the model's choice (log 142). -/
def Obligations.MapAndSelfRefresh : Prop :=
  ∀ (s : State) (inst : Inst) (pkt : Packet),
    let pl := pkt.payload
    let named := (List.range 24).filter fun ch => bitAt (leAt pl 0 4) ch
    let recorded (ch status : Nat) (a : Device) : Device :=
      let (b, a) := freshDigest a
      let (n, a) := freshDigest a
      cmdRecS (ctxOf opSelfRefresh inst pkt) 0x08 ch status b n a
    let masked (ch : Nat) (a : Device) : Device :=
      modCh ch (fun x => { x with autoExit := decide (leAt pl 5 1 = 1), seg0 := BitVec.ofNat 8 (leAt pl 6 1), seg1 := BitVec.ofNat 8 (leAt pl 7 1)
                                  sr := if x.sr = .on then .on else .entering }) (recorded ch stOk a)
    Replies (.mapSet inst pkt) s opMapSet inst pkt stOk (fun _ => []) (fun a =>
      let new := (List.range 8).map fun k =>
          let o := 32 * k
          ({ base := leAt pl o 8, size := leAt pl (o + 8) 8, chBase := leAt pl (o + 16) 8, mask := leAt pl (o + 24) 4
             grain := leAt pl (o + 28) 1, valid := bitAt (leAt pl (o + 29) 1) 0, hash := bitAt (leAt pl (o + 29) 1) 1 } : Window)
      let a := cmdRec (ctxOf opMapSet inst pkt) 0x09 0 (tableDigest a.mem.windows) (tableDigest new) a
      { a with mem := { a.mem with windows := new } })
    ∧ (leAt pl 4 1 = 0 → (∃ ch ∈ named, (chAt s.dev ch).sr ≠ .on) →
        Stays (.memSelfrefreshEnter inst pkt) s opSelfRefresh inst pkt (named.map Obj.chan) fun a d =>
          (∀ ch, let c := chAt a ch
            chAt d ch = if ch ∉ named then c else
                { c with sr := if c.sr = .on then .on else .entering, autoExit := decide (leAt pl 5 1 = 1)
                         seg0 := BitVec.ofNat 8 (leAt pl 6 1), seg1 := BitVec.ofNat 8 (leAt pl 7 1) })
          ∧ d.alm = (named.foldl (fun a ch => recorded ch stOk a) a).alm
          ∧ ((∀ ch ∈ named, (chAt a ch).sr ≠ .on) → d.mem = { a.mem with chans := d.mem.chans }) ∧ d.trl = a.trl ∧ d.flt = a.flt)
    ∧ (leAt pl 4 1 = 0 → (∀ ch ∈ named, (chAt s.dev ch).sr = .on) →
        Replies (.memSelfrefreshEnter inst pkt) s opSelfRefresh inst pkt stOk (fun _ => []) fun a =>
          named.foldl (fun a ch => loseSegs ch (leAt pl 6 1) (leAt pl 7 1) a) (named.foldl (fun a ch => masked ch a) a))
    ∧ (leAt pl 4 1 = 1 →
        Replies (.memSelfrefreshExit inst pkt) s opSelfRefresh inst pkt
          (if named.any fun ch => decide ((chAt s.dev ch).sr = .entering) then stDeferred else stOk) (fun _ => []) fun a =>
          named.foldl (fun a ch => match (chAt a ch).sr with
            | .off => a
            | .entering => modCh ch (fun x => { x with exitDue := true }) (recorded ch stDeferred a)
            | .on => modCh ch (fun x => { x with sr := .exiting }) (recorded ch stOk a)
            | .exiting => modCh ch (fun x => x) (recorded ch stOk a)) a)

/-- Accepted region and key commands: REGION_INIT writes its entry INITIALISING, on-chip and in the table, and starts a fill; KEY_ROTATE sets
ROTATING with TILL 0 and starts a rotation; the engine works for the command's plot (R240, R307, R322, R324, R325, R327).
An accepted KEY_RETIRE: the slot and its regions become RETIRING, requests in flight to them are denied, their queued lines are dropped,
and the command waits (R329, R330, steps 1 and 2). -/
def Obligations.RegionCommands : Prop :=
  (∀ (s : State) (inst : Inst) (pkt : Packet) (e : Nat), e < 4 → freeTiller s.dev = some e →
     let pl := pkt.payload
     let idx := leAt pl 0 2
     let plot := pkt.plot.toNat % 16
     Replies (.regionInit inst pkt) s opRegionInit inst pkt stOk (fun _ => []) (fun a =>
       let level := leAt pl 2 1
       let key := leAt pl 4 1
       let size := leAt pl 16 8
       let rate := leAt pl 36 4
       setTiller e { op := .fill, region := idx, rate, pages := size / 4096, page := none, last := none }
         (opPlot (8 + e) plot (beginRoot idx (cmdRecPayload (ctxOf opRegionInit inst pkt) 0x0A idx (putRegion idx
           { Region.reset with
             st := .initialising, level, owner := leAt pl 3 1, keyId := key, keyGen := if level = 0 then 0 else (keySlot a key).gen
             base := leAt pl 8 8, size, metaBase := leAt pl 24 8, metaSize := if level = 2 then metaSizeOf size else 0
             rmask := BitVec.ofNat 16 (leAt pl 32 2), wmask := BitVec.ofNat 16 (leAt pl 34 2), rate } a)))))
     ∧ Replies (.keyRotate inst pkt) s opKeyRotate inst pkt stOk (fun _ => []) (fun a =>
         let key := leAt pl 4 1
         let rate := leAt pl 8 4
         let a := cmdRecPayload (ctxOf opKeyRotate inst pkt) 0x0A idx a
         let a := putRegion idx { regionAt a idx with st := .rotating, newKeyId := key, newGen := (keySlot a key).gen, till := 0, rate } a
         setTiller e { op := .rotation, region := idx, rate, pages := (regionAt a idx).size / 4096, page := none, last := none }
           (opPlot (8 + e) plot a)))
  ∧ (∀ (s : State) (inst : Inst) (pkt : Packet), MemTidy s.dev → s.dev.cxl.filterW = [] → s.dev.cxl.filterE = [] → regionAt s.dev 1024 = Region.reset →
       let key := leAt pkt.payload 0 1
       let idx := leAt pkt.payload 2 2
       let goes (i : Nat) : Prop := (regionAt s.dev i).st ≠ .free ∧
         if key = 0 then i = idx ∧ (regionAt s.dev i).level = 0 else (regionAt s.dev i).keyId = key
       let hit (t : Txn) : Prop := ∃ i, t.region = some i ∧ goes i
       (∀ t ∈ s.dev.mem.txns, hit t → t.pkt.opc ≠ .pwrite) →
       Stays (.keyRetire inst pkt) s opKeyRetire inst pkt [if key = 0 then .region idx else .key key] fun a d =>
         (key ≠ 0 → ∀ k, keySlot d k = if k = key then { keySlot a k with st := .retiring } else keySlot a k)
         ∧ (∀ i, (goes i → regionAt d i = { (regionAt a i).settled with st := .retiring }) ∧ (¬goes i → regionAt d i = regionAt a i))
         ∧ d.mem.tillers = a.mem.tillers.map (fun t =>
             if t.op ≠ .idle ∧ t.page = none ∧ (s.dev.mem.regions.cells.any fun x => decide (goes x.1) && decide (x.1 = t.region)) then Tiller.reset else t)
         ∧ (∀ t ∈ d.mem.txns, ¬hit t)
         ∧ (∀ t ∈ a.mem.txns, (∀ u ∈ a.mem.txns, u.id = t.id → ¬hit u) → ∃ u ∈ d.mem.txns, u.id = t.id ∧ u.pkt = t.pkt)
         ∧ (∀ t ∈ a.mem.txns, hit t → ({ req := t.pkt, rcode := rcDenied, data := [] } : Rsp) ∈ d.trl.rsps)
         ∧ (key ≠ 0 → ∀ ch, ∀ x ∈ (chAt d ch).wr ++ (chAt d ch).held, x.keyId ≠ key)
         ∧ (key ≠ 0 → s.dev.mem.rtReady = false → ∀ ch, (chAt d ch).wr = (chAt a ch).wr.filter fun x => x.keyId ≠ key)
         ∧ (∀ x ∈ d.mem.cache, ∀ i, goes i → (regionAt s.dev i).holdsMeta (x.line * 64) = false)
         ∧ d.mem.retires = a.mem.retires ++ [{ keyId := key, index := idx, reply := true }] ∧ d.mem.lines = a.mem.lines)

/-- What tiller engines do on their own: a fill leaves its region ACTIVE and reading zeros; renewals start no sooner than 4,096 / RATE µs
apart, snoop recorded lines first, lock their page and issue the engine's reads; each advances TILL, with every line's data kept under the
new key, for P2 with a new MAJOR, no MINOR and the new KGEN; the last one makes the new key the region's; a P2 renewal that meets a bad line
poisons its region with cause 5 (R239, R317, R319, R320, R321, R324, R327, R328, R412).
The end of a retirement: nothing happens while the in-flight count is not 0; then the slot is EMPTY at the next generation, its regions
are FREE and their roots gone, what their memory holds is open, and the command is answered (R330, steps 3 to 5). -/
def Obligations.RegionProgress : Prop :=
  (∀ (s : State) (e : Fin 4), MgmtQuiet s.dev → MemTidy s.dev → s.dev.mem.tillers.length = 4 → s.dev.policy.queue = [] →
     (∀ w ∈ s.dev.trl.waiting, (∀ n, w.why ≠ .queue n) ∧ ∀ n, w.why ≠ .pageLock n) → regionAt s.dev 1024 = Region.reset → AlmTakes s.dev →
     (∀ x ∈ s.dev.mem.renews, x.id < s.dev.mem.nextTxn) →
     let t := tillerAt s.dev e.val
     let r := regionAt s.dev t.region
     let others (d : Device) : Prop := (∀ i, i ≠ t.region → regionAt d i = regionAt s.dev i) ∧ (∀ k, k < 4 → k ≠ e.val → tillerAt d k = tillerAt s.dev k)
       ∧ d.mem.keys = s.dev.mem.keys ∧ d.mem.windows = s.dev.mem.windows
     let filled : Region := { r with st := .active, till := 0, rate := 0 }
     let rotated : Region := { r.settled with st := .active, keyId := r.newKeyId, keyGen := r.newGen, till := 0 }
     let moves (op : Nat) (last : Region) (page : Nat) (d : Device) : Prop :=
       regionAt d t.region = (if page + 1 < t.pages then { r with till := page + 1 } else last)
       ∧ tillerAt d e.val = (if page + 1 < t.pages then { t with page := none } else Tiller.reset)
       ∧ others d ∧ d.mem.renews = [] ∧ d.alm = if page + 1 < t.pages then s.dev.alm else (doneRec op 0x0A t.region 0 0 s.dev).alm
     (t.op = .fill → r.st = .initialising → Completes (.regionFillComplete e) s fun d =>
       regionAt d t.region = filled ∧ tillerAt d e.val = Tiller.reset ∧ others d
       ∧ (∀ ch l a, l < 2 ^ 29 → deviceAddr s.dev ch (l * 64) = some a → r.base + r.till * 4096 ≤ a → a < r.base + r.size / 4096 * 4096 →
           storedLine d ch l = .blank ∧ (s.dev.mem.rtReady = false → currentLine d ch l = .blank))
       ∧ d.alm = (doneRec 0x0401 0x0A t.region 0 0 s.dev).alm)
     ∧ (t.op ≠ .fill ∨ r.st ≠ .initialising → Completes (.regionFillComplete e) s fun d => d = s.dev)
     ∧ (let early := ∃ l, t.last = some l ∧ devNs s.dev * t.rate < l * t.rate + 4096 * 1000
        let mayStart := (t.op = .fill ∧ r.st = .initialising ∨ t.op = .rotation ∧ r.st = .rotating) ∧ t.page = none ∧ ¬early ∧ r.till < t.pages
          ∧ pageLocked s.dev (r.base + r.till * 4096) = false
        let started : Tiller := { t with page := some r.till, last := some (devNs s.dev) }
        (¬mayStart → Completes (.tillerRenewalStart e) s fun d => d = s.dev)
        ∧ (mayStart → t.op = .fill → Completes (.tillerRenewalStart e) s fun d =>
             d = setTiller e.val started { s.dev with mem := { s.dev.mem with nextTxn := s.dev.mem.nextTxn + 1, renews := s.dev.mem.renews ++
               [{ id := s.dev.mem.nextTxn, region := t.region, page := r.till, tiller := some e.val, keyId := (r.keyFor r.till).1
                  under := (r.keyId, r.keyGen), reads := Reads.of [], bad := [], carry := [], answer := none, tags := [] }] } })
        ∧ (mayStart → t.op = .rotation →
             let held := recordedIn (r.base + r.till * 4096) 4096 s.dev
             (held ≠ [] → Completes (.tillerRenewalStart e) s fun d => d = snoopAll held s.dev)
             ∧ (held = [] → ∀ u ps, tillerIssue e.val .read (pageParts r r.till) s.dev = some (u, ps) → Completes (.tillerRenewalStart e) s fun d =>
               tillerAt d e.val = started ∧ regionAt d t.region = r ∧ others d ∧ pageLocked d (r.base + r.till * 4096) = true ∧ (∀ i, win d i = win u i)
               ∧ ∃ x ∈ d.mem.renews, x.tiller = some e.val ∧ x.region = t.region ∧ x.page = r.till ∧ x.under = (r.newKeyId, r.newGen) ∧ x.tags = ps)))
     ∧ (∀ page, (∀ x ∈ s.dev.mem.renews, x.tiller = some e.val → x.page = page → renewalReady s.dev x = false) →
         Completes (.tillerRenewalComplete e page) s fun d => d = s.dev)
     ∧ ∀ x, s.dev.mem.renews = [x] → x.tiller = some e.val → x.region = t.region → x.page = r.till → t.page = some r.till → x.answer = none → x.carry = [] →
         renewalReady s.dev x = true → (∀ k, k < 4 → k ≠ e.val → (tillerAt s.dev k).op = .idle) →
         let place (a : Nat) : Option (Nat × Nat) := (memWindow s.dev a).map fun w => ((w.map a).1, (w.map a).2 / 64)
         let now (d : Device) (a : Nat) : Option Line := (place a).map fun y => currentLine d y.1 y.2
         (t.op = .fill → r.st = .initialising → Completes (.tillerRenewalComplete e x.page) s (moves 0x0401 filled x.page))
         ∧ (t.op = .rotation → r.st = .rotating → r.level = 1 → x.bad = [] → Completes (.tillerRenewalComplete e x.page) s fun d =>
             moves 0x0307 rotated x.page d
             ∧ (s.dev.mem.rtReady = false → ((r.lines x.page).map place).Nodup → ∀ a ∈ r.lines x.page, (place a).isSome = true →
                 now d a = some (.held ((x.reads.at a).getD zeroLine) (some (sealWith (keySlot s.dev x.under.1) 1 a 0 0 0)))))
         ∧ ∀ cl, t.op = .rotation → r.st = .rotating → r.level = 2 → cached s.dev (r.nodeAddr 0 x.page) = some cl →
             (∀ b ∈ cacheBytes s.dev cl, b.cls = .clean) →
             let blk := ofLe (dataOf (cacheBytes s.dev cl))
             blkKgen blk = (r.keyFor x.page).2 % 16 →
             (x.bad ≠ [] → r.keyId ≠ 0 → (∀ y ∈ s.dev.mem.txns, y.region ≠ some t.region) → (∀ p ∈ x.tags, p.opc = .read) →
               Completes (.tillerRenewalComplete e x.page) s fun d =>
                 regionAt d t.region = { r.settled with st := .poisoned, poison := 5 } ∧ tillerAt d e.val = Tiller.reset ∧ others d ∧ d.mem.renews = []
                 ∧ d.trl.rsps = s.dev.trl.rsps ++ x.tags.map (fun p => { req := p, rcode := rcPoisoned, data := [] })
                 ∧ d.flt = (raise (.hub 8) 2 0x15 (t.region + 5 * 2 ^ 16) s.dev).flt ∧ d.alm = (selfRec 0x0A t.region 0x8009 0 0 5 s.dev).alm
                 ∧ d.mem.lines = s.dev.mem.lines)
             ∧ (x.bad = [] → blkMajor blk < 2 ^ 56 - 1 → s.dev.mem.rtReady = false → (arrayAt s.dev 4 0).dec = [] →
               ((r.lines x.page ++ r.macLines x.page).map place).Nodup → (∀ a ∈ r.lines x.page ++ r.macLines x.page, (place a).isSome = true) →
               let raw (a : Nat) : List Byte := (x.reads.at a).getD zeroLine
               (∀ a ∈ r.lines x.page, lineMac (p2Seal s.dev r a blk) (raw a) = sliceBytes (raw (r.macAddr a)) (r.macSlot a) 8) →
               Completes (.tillerRenewalComplete e x.page) s fun d =>
                 moves 0x0307 rotated x.page d
                 ∧ (∀ a ∈ r.lines x.page,
                     let under : Seal := sealWith (keySlot s.dev x.under.1) 2 a (blkMajor blk + 1) 0 x.under.2
                     now d a = some (.held (xorBytes (raw a) (keystream (p2Seal s.dev r a blk))) (some under))
                     ∧ ∃ m, now d (r.macAddr a) = some (.held m none)
                         ∧ sliceBytes m (r.macSlot a) 8 = lineMac under (cipherLine (some under) (xorBytes (raw a) (keystream (p2Seal s.dev r a blk)))))
                 ∧ ∃ c, cached d (r.nodeAddr 0 x.page) = some c ∧ c.dirty = true
                     ∧ dataOf (cacheBytes d c) = leBytes 64 (freshBlk (blkMajor blk + 1) x.under.2)))
  ∧ (∀ (s : State) (key : Byte) (region : RegionId) (p : Progress), MemTidy s.dev → key ≠ 0 → s.dev.mgmt.progress = [p] → p.opcode = 0x0308 →
       p.holds = [.key key.toNat] → s.dev.mgmt.parked = [] → s.dev.rakes = [] → s.dev.mem.retires = [{ keyId := key.toNat, index := 0, reply := true }] →
       s.dev.cxl.filterW = [] → s.dev.cxl.filterE = [] → regionAt s.dev 1024 = Region.reset →
       let goes (i : Nat) : Prop := (regionAt s.dev i).st ≠ .free ∧ (regionAt s.dev i).keyId = key.toNat
       let count := (s.dev.mem.txns.filter fun t => t.keyId = key.toNat).length
         + (s.dev.mem.renews.filter fun x => x.keyId = key.toNat || x.under.1 = key.toNat).length
       (count ≠ 0 ∨ (∃ x ∈ s.dev.mem.renews, goes x.region) → Completes (.keyRetireComplete key region) s fun d => d = s.dev)
       ∧ (count = 0 → (∀ x ∈ s.dev.mem.renews, ¬goes x.region) → Completes (.keyRetireComplete key region) s fun d =>
           (∀ i, (goes i → regionAt d i = Region.reset ∧ d.mem.roots.get none i = none) ∧ (¬goes i → regionAt d i = regionAt s.dev i))
           ∧ (∀ k, keySlot d k = if k = key.toNat then { KeySlot.reset with gen := ((keySlot s.dev k).gen + 1) % 16 } else keySlot s.dev k)
           ∧ (∀ i a, goes i → (regionAt s.dev i).level ≠ 0 →
               ((regionAt s.dev i).base ≤ a ∧ a < (regionAt s.dev i).base + (regionAt s.dev i).size ∨ (regionAt s.dev i).holdsMeta a = true) →
               openBlank d a = true)
           ∧ d.mem.retires = [] ∧ d.mgmt = (finish p stOk [] s.dev).mgmt
           ∧ (s.dev.mem.rtReady = false → d = { finish p stOk [] s.dev with mem := { s.dev.mem with
               regions := d.mem.regions, keys := d.mem.keys, retires := [], remnants := d.mem.remnants, roots := d.mem.roots, cache := d.mem.cache } })))

/-! ## Links, lanes and ports -/

/-- Frames: a strand sends what it must resend, then payloads taken over, then units of packets with the returns due, or slots of its channels;
a good frame with the SEQ expected is delivered, and every frame is kept until it is acknowledged; the eighth draws an ACK of its group; a
bad one is counted, discarded and draws one NAK; a full buffer sends nothing new; an ACK frees frames, a NAK or 256 ns without one resends
from a SEQ and counts a replay; delivered frames are acknowledged within 32 ns (R336, R338 to R341, R344, R347). How payloads move between strands is the model's reading (log 128). -/
def Obligations.LinkFrames : Prop :=
  ∀ (s : State) (link : LinkId) (dir : Fin 2) (strand : Fin 16), wfStrand link strand = true →
    let l : Nat := link.val
    let n : Nat := strand.val
    let x := linkAt s.dev l
    let t := x.strand dir.val n
    let now := devNs s.dev
    let depth := if s.dev.d2d.cap.getLsbD 32 then 64 else 32
    let put (x : Link) : Device := setLink l x s.dev
    let into (t : Strand) (x : Link) : Link := x.setStrand dir.val n t
    let back := 1 - dir.val
    let say (d : Nat) (w : Word64) (x : Link) : Link := if d = 0 then { x with msg0 := w } else { x with msg1 := w }
    let group := n / 4
    let expects (x : Link) (i : Nat) : Nat := ((x.strand dir.val (4 * group + i)).expect - 1).toNat
    let acked (x : Link) : Link :=
      let y := say back (sideWord 1 group (expects x 0 + expects x 1 * 2 ^ 8 + expects x 2 * 2 ^ 16 + expects x 3 * 2 ^ 24)) x
      (List.range 4).foldl (fun y i => y.setStrand dir.val (4 * group + i) { x.strand dir.val (4 * group + i) with unacked := 0 }) y
    let others (k : Nat) : List Load := (x.strand dir.val k).owed k
    s.dev.d2d.links.wf Link.reset = true → x.strands.wf Strand.reset = true → x.mode = .up → t.st = .working →
    (∀ (flip : BitVec 256) (seqFlip : Byte),
      let row : Instr := .frameReceived link dir strand flip seqFlip
      let crosses (f : Frame) (u : Device) : Prop := Completes row s fun d =>
        let x := linkAt u l
        let t := x.strand dir.val n
        let bits : BitVec 256 := ((crc16 (bitsOf 240 f.load.bits.toNat ++ bitsOf 8 f.seq.toNat)).setWidth 256 <<< 240 ||| f.load.bits.setWidth 256) ^^^ flip
        let seq := f.seq ^^^ seqFlip
        let good := crc16 (bitsOf 240 bits.toNat ++ bitsOf 8 seq.toNat) = bits.extractLsb' 240 16
        let y : Link := if good then x else { x with crcErr := min (x.crcErr + 1) (2 ^ 32 - 1), period := x.period + 1 }
        let got : Strand := { t with expect := t.expect + 1, nak := false, unacked := t.unacked + 1, since := if t.unacked = 0 then now else t.since }
        d = if good ∧ seq = t.expect then
              landLoad l dir.val { f.load with bits := bits.extractLsb' 0 240 } (setLink l (if 7 ≤ t.unacked then acked (into got y) else into got y) u)
            else if t.nak = true ∧ seq ≠ t.expect then setLink l y u
            else setLink l (say back (sideWord 2 n t.expect.toNat) (into { t with nak := true } y)) u
      let fresh (load : Load) (t : Strand) (x : Link) (u : Device) : Prop :=
        let f : Frame := { seq := t.next, load, sent := now, replays := 0 }
        crosses f (setLink l (into { t with next := t.next + 1, buf := t.buf ++ [f] } x) u)
      (∀ q rest f, t.resend = q :: rest → t.buf.find? (fun g => g.seq = q) = some f → crosses f (put (into { t with resend := rest } x)))
      ∧ (t.resend = [] → depth ≤ t.buf.length → Completes row s fun d => d = s.dev)
      ∧ (t.resend = [] → t.buf.length < depth →
          (∀ p ps, t.todo = p :: ps → fresh p { t with todo := ps } x s.dev)
          ∧ (t.todo = [] →
              let ahead : Prop := ∃ k, k < strandCount l ∧ k ≠ n ∧ ∃ p ∈ others k, p.fab = false ∧ p.stream = n
              (isFabStrand l x dir.val n = false → ahead → Completes row s fun d => d = s.dev)
              ∧ (isFabStrand l x dir.val n = false ∧ ¬ahead ∨ isFabStrand l x dir.val n = true ∧ t.txq ≠ [] →
                  let due (cls : Nat) : Nat := min (x.freed.getD (back * 2 + cls) 0) 0xFFF
                  let ret (cls : Nat) : List Byte := if due cls = 0 then [] else leBytes 2 (3 + cls * 2 ^ 2 + due cls * 2 ^ 4)
                  let q := t.txq ++ ret 0 ++ ret 1
                  fresh { stream := n, fab := false, bits := BitVec.ofNat 240 (ofLe (sliceBytes q 0 30)) } { t with txq := q.drop 30 }
                    { x with freed := (x.freed.modify (back * 2) (· - 0xFFF)).modify (back * 2 + 1) (· - 0xFFF) } s.dev))
          ∧ (t.todo = [] → isFabStrand l x dir.val n = true → t.txq = [] →
              let (load, u) := fabLoad l dir.val n s.dev
              fresh load ((linkAt u l).strand dir.val n) (linkAt u l) u)))
    ∧ ((0 < t.unacked → t.since + 32 ≤ now → Completes (.ackDue link dir strand) s fun d => d = put (acked x))
      ∧ (t.unacked = 0 ∨ now < t.since + 32 → Completes (.ackDue link dir strand) s fun d => d = s.dev))
    ∧ (∀ f q, t.buf = f :: q →
        let resent (k : Nat) : Link := { into { t with
          buf := (t.buf.drop k).map fun g =>
            { g with sent := now, replays := if (t.buf.drop k).head?.map (·.seq) = some g.seq then g.replays + 1 else g.replays }
          resend := (t.buf.drop k).map (·.seq) } x with replays := min (x.replays + 1) 0xFFFF }
        (f.sent + 256 ≤ now → f.replays < 4 → Completes (.replayTimeout link dir strand) s fun d => d = put (resent 0))
        ∧ (now < f.sent + 256 → Completes (.replayTimeout link dir strand) s fun d => d = s.dev)
        ∧ (∀ (msg : SbMsg) (k : Nat) (g : Frame), sbGood s.dev l back 2 msg = true → msg.sub.toNat = n → t.buf[k]? = some g →
            g.seq = msg.body.extractLsb' 0 8 → (∀ j h, j < k → t.buf[j]? = some h → h.seq ≠ g.seq) → g.replays < 4 →
            Completes (.nak link (Fin.ofNat 2 back) msg) s fun d => d = put (resent k))
        ∧ (∀ (msg : SbMsg) (k : Nat) (g : Frame), sbGood s.dev l back 1 msg = true → msg.sub.toNat = group → t.buf[k]? = some g →
            g.seq = msg.body.extractLsb' (8 * (n % 4)) 8 → (∀ j h, j < k → t.buf[j]? = some h → h.seq ≠ g.seq) → f.sent + 256 ≠ now →
            (∀ i, i < 4 → i ≠ n % 4 → (x.strand dir.val (4 * group + i)).buf = []) →
            Completes (.ack link (Fin.ofNat 2 back) msg) s fun d => d = put (into { t with buf := t.buf.drop (k + 1), resend := t.resend.filter fun q => (t.buf.drop (k + 1)).any fun h => h.seq = q } x)))
    ∧ (∀ msg, Completes (.idle link dir msg) s fun d => d = s.dev)
    ∧ ∀ (msg : SbMsg), sbGood s.dev l dir.val 3 msg = true → msg.sub.toNat < 8 → s.dev.d2d.dieCap.length = 8 → Completes (.cap link dir msg) s fun d =>
        let caps := s.dev.d2d.dieCap.set msg.sub.toNat (msg.body.extractLsb' 8 32)
        d = { s.dev with d2d := { s.dev.d2d with dieCap := caps, cap := d.d2d.cap } }
        ∧ (∀ k, k < 8 → (d.d2d.cap.extractLsb' (4 * k) 4).toNat = (((caps.getD k 0).extractLsb' 4 8).toNat - 100) / 10 % 16)
        ∧ (d.d2d.cap.getLsbD 32 = true ↔ ∀ w ∈ caps, w.getLsbD 12 = true) ∧ (d.d2d.cap >>> 33) = 0

/-- Strands out of service: TEST, or a SEQ replayed four times, quiesces a strand whose frames go to the next of its kind; a test without
findings, and a graft, return it at SEQ 0; a wire named by GRAFT takes the spare that the message names, with a C1 fault and a record; without a spare, or with
CK, or on a RETIRE message the strand is retired with a C2 fault and a record (R338, R342, R346 to R348).
Maintenance windows and LINK_STATUS: a window reports the CRC errors of its period and remembers what it saw; a sideband group that
fails two windows running is used no more, with a C1 fault; a window that falls due while a strand is quiesced is skipped. LINK_STATUS
answers one 32-byte record for each link (R337, R345, R357). -/
def Obligations.LinkStrands : Prop :=
  (∀ (s : State) (link : LinkId) (dir : Fin 2) (strand : Fin 16) (k : Nat), wfStrand link strand = true → AlmTakes s.dev →
     let l : Nat := link.val
     let n : Nat := strand.val
     let x := linkAt s.dev l
     let t := x.strand dir.val n
     let back : Fin 2 := Fin.ofNat 2 (1 - dir.val)
     let rec' (d : Device) (action : Nat) : Prop := d.alm = (selfRec 0x07 (l + dir.val * 16 + n * 32) action 0 0 0 s.dev).alm
     let tested (d : Device) : Prop := LinkIs s.dev d l { x with tests := min (x.tests + 1) 255 } (x.handed dir.val n k { t with st := .testing, testDue := false })
       ∧ (linkAt d l).said dir.val = sideWord 4 n (256 * 2 ^ 8) ∧ d = { s.dev with d2d := { s.dev.d2d with links := d.d2d.links } }
     let retired (cause : BitVec 2) (t' : Strand) (d : Device) : Prop :=
       LinkIs s.dev d l x (x.handed dir.val n k { t' with st := .retired, cause, testDue := false, faults := [] })
       ∧ (linkAt d l).said (1 - dir.val) = sideWord 6 n cause.toNat ∧ rec' d 0x8007
       ∧ (∃ g, d.flt = (raise (.link link) 2 0x11 g s.dev).flt) ∧ d = { s.dev with d2d := { s.dev.d2d with links := d.d2d.links }, flt := d.flt, alm := d.alm, arrays := d.arrays }
     let grafted (t' : Strand) (second : Bool) (w : Nat) (d : Device) : Prop :=
       LinkIs s.dev d l x (x.handed dir.val n k { t' with st := .grafting })
       ∧ (linkAt d l).said (1 - dir.val) = sideWord 5 n (w + if second then 2 ^ 6 else 0) ∧ rec' d 0x8006
       ∧ (∃ g, d.flt = (raise (.link link) 1 0x10 g s.dev).flt) ∧ d = { s.dev with d2d := { s.dev.d2d with links := d.d2d.links }, flt := d.flt, alm := d.alm, arrays := d.arrays }
     let good (type : Nat) (d : Fin 2) (msg : SbMsg) : Prop := sbGood s.dev l d.val type msg = true ∧ msg.sub.toNat = n
     (CanSpare s.dev l dir.val n → takesOver l x dir.val n k .testing →
       (∀ msg, good 4 dir msg → msg.body.extractLsb' 8 32 ≠ 0 → Completes (.test link dir msg) s tested)
       ∧ (∀ f q, t.buf = f :: q → f.sent + 256 ≤ devNs s.dev → 4 ≤ f.replays → Completes (.replayTimeout link dir strand) s tested))
     ∧ (CanSpare s.dev l dir.val n → takesOver l x dir.val n k .retired →
         (∀ msg : SbMsg, good 6 back msg → Completes (.retire link back msg) s (retired (msg.body.extractLsb' 0 2) t))
         ∧ (∀ (msg : SbMsg) w, good 5 back msg → msg.body.extractLsb' 0 6 = w → w.toNat ≤ 32 → t.wire0 ≠ w → t.wire1 ≠ w → t.wire0 ≠ 63 → t.wire1 ≠ 63 →
             t.bad0 = false → t.bad1 = false → Completes (.graft link back msg) s (retired 1 t)))
     ∧ (CanSpare s.dev l dir.val n → takesOver l x dir.val n k .grafting → ∀ (msg : SbMsg) (w : BitVec 6),
         good 5 back msg → msg.body.extractLsb' 0 6 = w → w.toNat ≤ 32 → t.wire0 ≠ w → t.wire1 ≠ w → t.bad0 = false → t.bad1 = false →
         (t.wire0 = 63 → (msg.body.getLsbD 6 = false ∨ t.wire1 ≠ 63) → Completes (.graft link back msg) s (grafted { t with wire0 := w, src0 := false } false w.toNat))
         ∧ (t.wire1 = 63 → (msg.body.getLsbD 6 = true ∨ t.wire0 ≠ 63) → Completes (.graft link back msg) s (grafted { t with wire1 := w, src1 := false } true w.toNat)))
     ∧ (let fresh (t : Strand) : Strand := { t with st := .working, next := 0, expect := 0, unacked := 0, nak := false, buf := [], resend := [] }
        let idle : Prop := ∀ j, j < 16 → (x.strand dir.val j).testDue = false ∧ (x.strand dir.val j).faults = []
        let only (d : Device) : Prop := d = { s.dev with d2d := { s.dev.d2d with links := d.d2d.links } }
        x.mode = .up → idle →
         (t.st = .testing → Completes (.wireTestComplete link dir strand []) s fun d => LinkIs s.dev d l x (x.but dir.val n (fresh t)) ∧ only d)
         ∧ (t.st = .grafting → Completes (.graftComplete link dir strand) s fun d => LinkIs s.dev d l x (x.but dir.val n (fresh t)) ∧ only d
             ∧ (linkAt d l).said 0 = sideWord 4 n 0 ∧ (linkAt d l).said 1 = sideWord 4 n 0)
         ∧ (t.st = .testing → (∀ msg, good 4 dir msg → msg.body.extractLsb' 8 32 = 0 → Completes (.test link dir msg) s fun d => d = s.dev))
         ∧ (t.st = .grafting → (∀ msg, good 4 dir msg → msg.body.extractLsb' 8 32 = 0 → Completes (.test link dir msg) s fun d =>
             LinkIs s.dev d l x (x.but dir.val n (fresh t)) ∧ only d))))
  ∧ (∀ (s : State),
       (∀ (link : LinkId) (ws : List WireRef) (groups : List (Fin 4)), wardenRuns s.dev = false →
         let l : Nat := link.val
         let x := linkAt s.dev l
         let bad (dir n : Nat) : List Nat := (ws.filter fun w => w.dir.val = dir && w.strand.val = n).map (·.wire.val)
         let lost := ((groups.map (·.val)).filter fun g => x.sbSusp.contains g && !x.sbLost.contains g).eraseDups
         let told := occur 0x06 l (x.period : Nat) s.dev
         let calm : Prop := ∀ dir n, dir < 2 → n < 16 → (x.strand dir n).st ≠ .testing ∧ (x.strand dir n).st ≠ .grafting
         x.mode = .up →
         (calm → (∀ dir n, dir < 2 → n < strandCount l → ∀ w ∈ bad dir n, w ∉ (x.strand dir n).suspect) →
           linkSound l { x with sbLost := x.sbLost ++ lost } = true → Completes (.maintenanceWindow link ws groups) s fun d =>
             LinkIs s.dev d l { x with period := 0, sbSusp := groups.map (·.val), sbLost := x.sbLost ++ lost }
               (fun dir n => if n < strandCount l then { x.strand dir n with suspect := bad dir n } else x.strand dir n)
             ∧ d.flt = (lost.foldl (fun e g => raise (.link link) 1 0x13 (g % 2) e) told).flt
             ∧ d = { told with d2d := { s.dev.d2d with links := d.d2d.links }, flt := d.flt })
         ∧ (∀ dir n, dir < 2 → n < strandCount l → (x.strand dir n).st = .testing ∨ (x.strand dir n).st = .grafting →
             Completes (.maintenanceWindow link ws groups) s fun d => d = setLink l { x with period := 0 } told))
       ∧ ∀ (inst : Inst) (pkt : Packet),
           let one (a : Device) (l : Nat) : List Byte :=
             let x := linkAt a l
             leBytes 1 l ++ leBytes 1 (linkStateNo l x) ++ leBytes 1 (workCount l x 0) ++ leBytes 1 (workCount l x 1)
               ++ leBytes 1 (fabCount l x 0) ++ leBytes 1 (fabCount l x 1)
               ++ leBytes 2 (bit (a.d2d.cap.getLsbD 32 && x.mode ≠ .down) 0 + bit (!x.sbLost.isEmpty) 1 + bit x.detour 2)
               ++ leBytes 2 (notRetired l x 0) ++ leBytes 2 (notRetired l x 1) ++ leBytes 4 x.crcErr ++ leBytes 4 x.replays
               ++ leBytes 2 (countSrc l x false) ++ leBytes 2 (countSrc l x true) ++ leBytes 8 x.tChange
           let l := leAt pkt.payload 0 1
           Replies (.linkStatus inst pkt) s opLinkStatus inst pkt stOk
             (fun a => if l = 0xFF then (List.range 14).flatMap (one a) else one a l) fun a => a)

/-- Events of a lane and its subport: clock recovery lost counts, is measured and clears the lock; gained, it sets it; the pattern checker's
lock and errors; the PCS reports what SP_STATUS shows and counts code words (R361, R362, R380, R381, R498).
Writes of a subport: SP_CTL takes its written fields and records the change, and an enable while its lanes stop is deferred with STATUS
0x0001; clearing EN leaves HEAD at TAIL; a TAIL register takes the value (R44, R378, R381, R515).
Lane commands: LANE_REFRESH holds its lanes and waits for its entries; a fetch that its target keeps waiting has no effect yet, which is the
model's form of a bulk transfer (log 71); one entry is refused by the first row of R370 that applies, with
no effect, and an accepted one is cached, starts an IDLE lane if ENABLE is 1, and is answered; LANE_CALIBRATE starts a calibration and
waits; LANE_RETIRE stops the lane, sets RETIRED and answers, and does nothing to a retired one (R369 to R374). -/
def Obligations.Lanes : Prop :=
  (∀ (s : State) (lane : LaneId),
     let l := lane.val
     let x := laneAt s.dev l
     let sh := pmaShell s.dev l
     let listens : Prop := sh.st = .starting ∨ sh.st = .active
     (listens → x.cdrLock = true → x.retired = false → ∀ sig, Completes (.laneCdr lane sig) s fun d =>
       d = noticed 0x0E l (setLane l { x with cdrLock := false, sigDet := sig, prbsLock := false, lockLoss := min (x.lockLoss + 1) 0xFFFF } s.dev))
     ∧ (listens → Completes (.cdrLockAcquired lane) s fun d => d = setLane l { x with cdrLock := true, sigDet := true } s.dev)
     ∧ (¬listens → Completes (.cdrLockAcquired lane) s fun d => d = s.dev)
     ∧ (∀ on (errs : Word32), listens → bitsAt (leAt x.entry 22 1) 4 3 ≠ 0 → Completes (.prbsLockChange lane on errs) s fun d =>
         d = setLane l { x with prbsLock := on, prbsErr := if x.prbsLock then min (x.prbsErr + errs.toNat) (2 ^ 32 - 1) else x.prbsErr } s.dev)
     ∧ ∀ (engine : EngineId) (sub : Fin 8) (r : PcsReport),
         let p := subAt s.dev engine.val sub.val
         subMapped s.dev engine.val sub.val = true → subLanesUp s.dev engine.val sub.val = true → Completes (.pcsLinkChange engine sub r) s fun d =>
           d = setSub engine.val sub.val { p with
             aligned := r.aligned, local' := r.local', remote := r.remote, fecLock := r.fecLock
             fecCorr := min (p.fecCorr + r.corr.toNat) (2 ^ 32 - 1), fecUnc := min (p.fecUnc + r.unc.toNat) (2 ^ 32 - 1) } s.dev)
  ∧ (∀ (s : State) (i : InitId) (engine : EngineId) (sub : Fin 8), MgmtQuiet s.dev → s.dev.ports.subs.wf Subport.reset = true →
       let e := engine.val
       let k := sub.val
       let p := subAt s.dev e k
       let off := engineOff e + 0x1000 + 0x100 * k
       let writes (o v : Nat) : Prop := RegAccepts s.dev i (.engine e) (engineOff e) (0x1000 + 0x100 * k + o) v (2 ^ 32 - 1)
       (∀ v : Word32, writes 0 v.toNat →
         let w := v &&& 0x3FFF000F
         (v.getLsbD 0 = true → p.deferral = false → subEn p = true ∨ subStopping s.dev e k = false → Completes (.spCtl i engine sub v) s fun d =>
           d = okay (setSub e k { p with ctl := w, deferral := false } (csrRecord i off p.ctl.toNat w.toNat s.dev)))
         ∧ (v.getLsbD 0 = true → subEn p = false → subStopping s.dev e k = true → Completes (.spCtl i engine sub v) s fun d =>
           d = okay (setSub e k { p with ctl := w, deferral := true } (csrDeferred i off p.ctl.toNat w.toNat s.dev)))
         ∧ (v.getLsbD 0 = false → ringsRun s.dev e k = false → Completes (.spCtl i engine sub v) s fun d =>
           d = okay (setSub e k { p with ctl := w, deferral := false } (csrRecord i off p.ctl.toNat w.toNat s.dev)))
         ∧ (v.getLsbD 0 = false → ringsRun s.dev e k = true → p.txr.waiting = 0 → p.rxr.waiting = 0 → Completes (.spCtl i engine sub v) s fun d =>
           d = okay (setSub e k { p with
                 ctl := w, deferral := false, aligned := false, fecLock := false
                 txr := { p.txr with head := BitVec.ofNat 16 (p.txr.idx p.txr.tail) }, rxr := { p.rxr with head := BitVec.ofNat 16 (p.rxr.idx p.rxr.tail) } }
               (csrRecord i off p.ctl.toNat w.toNat s.dev))))
       ∧ (∀ v : Word16, writes 0x14 v.toNat → Completes (.txrTail i engine sub v) s fun d => d = okay (setSub e k { p with txr := { p.txr with tail := v } } s.dev))
       ∧ ∀ v : Word16, writes 0x2C v.toNat → Completes (.rxrTail i engine sub v) s fun d => d = okay (setSub e k { p with rxr := { p.rxr with tail := v } } s.dev))
  ∧ (∀ (s : State) (inst : Inst) (pkt : Packet),
       let pl := pkt.payload
       Stays (.laneRefresh inst pkt) s opLaneRefresh inst pkt ((List.range (leAt pl 10 2)).map fun i => Obj.lane (leAt pl 8 2 + i)) (fun a d =>
         d = { a with mgmt := d.mgmt, ports := { a.ports with
           jobs := a.ports.jobs ++ [{ inst, first := leAt pl 8 2, count := leAt pl 10 2, table := leAt pl 0 8, applied := none }] } })
       ∧ (let l := leAt pl 0 2
          Stays (.laneCalibrate inst pkt) s opLaneCalibrate inst pkt [.lane l] (fun a d =>
             let sh := pmaShell a l
             d = { setShell (.pma (Fin.ofNat 512 l)) { sh with start := true, kind := BitVec.ofNat 3 (leAt pl 2 1), cont := false } a with mgmt := d.mgmt })
          ∧ ((laneAt s.dev l).retired = true → Replies (.laneRetire inst pkt) s opLaneRetire inst pkt stOk (fun _ => []) fun a => a)
          ∧ ((laneAt s.dev l).retired = false → (laneAt s.dev l).next = none → s.dev.ports.jobs = [] → enMapped (laneAt s.dev l).entry = false →
               (∀ k, k < 8 → (subAt s.dev (l / 8) k).deferral = false) → (pmaShell s.dev l).st = .idle ∨ (pmaShell s.dev l).st = .active →
               Replies (.laneRetire inst pkt) s opLaneRetire inst pkt stOk (fun _ => []) fun a =>
                 let sh := (pmaShell a l).abortCal
                 setShell (.pma (Fin.ofNat 512 l)) { sh with en := false, mspec := 0, deferral := none, st := if sh.st = .active then .stopping else sh.st }
                   (setLane l { laneAt a l with retired := true, cdrLock := false, sigDet := false, prbsLock := false }
                     (cmdRecObj (ctxOf opLaneRetire inst pkt) 0x05 l a))))
       ∧ ∀ (j : LaneJob) (p : Progress) (net : NetIn) (t : Device) (rc : Byte) (e : List Byte) (rest : NetIn), s.dev.mgmt.progress = [p] → p.inst = inst →
           s.dev.mgmt.parked = [] → p.opcode = 0x0501 → s.dev.rakes = [] → s.dev.ports.jobs = [j] → j.inst = inst → j.applied = none → j.count = 1 → j.first < 512 →
           busRead 0x802 p.ctx.plot net (j.table + 128 * j.first) 128 s.dev = (t, rc, e, rest) → t.mgmt = s.dev.mgmt → t.ports = s.dev.ports →
           t.shells = s.dev.shells → t.trust = s.dev.trust → t.bist.fuses = s.dev.bist.fuses → t.rakes = [] →
           let l := j.first
           let x := laneAt t l
           let good : Prop := rc.toNat < 2 ∧ laneMacOk t e = true ∧ leAt e 2 1 % 16 = laneOwner t l
           let newer : Prop := x.version < leAt e 4 4 ∨ leAt e 4 4 = x.version ∧ e = x.next.getD x.entry
           let fits : Prop := entryOk l e = true ∧ (bitAt (leAt e 3 1) 0 = true → refOk t l = true)
             ∧ groupOk t (laneEngine l) (fun k => if k = l then e else comingEntry t k) = true
           let refusedWith (st : Nat) : Prop := Completes (.laneEntriesFetched inst net) s fun d => d = finish p st (leBytes 2 st) { t with ports := { t.ports with jobs := [] } }
           (t.trl.stuck = true → (∀ ch, ch < 24 → (chAt t ch).sr ≠ .exiting) → Completes (.laneEntriesFetched inst net) s fun d => d = s.dev)
           ∧ (t.trl.stuck = false →
           (rc = rcTimeout → refusedWith stTimeout) ∧ (isErr rc = true → rc ≠ rcTimeout → refusedWith stBadParam)
           ∧ (isErr rc = false → laneMacOk t e = false ∨ leAt e 2 1 % 16 ≠ laneOwner t l → refusedWith stAuthFail)
           ∧ (good → isErr rc = false → ¬newer → refusedWith stReplay)
           ∧ (good → isErr rc = false → newer → ¬fits → refusedWith stBadParam)
           ∧ (good → isErr rc = false → newer → fits → bitAt (leAt e 3 1) 0 = true → x.retired = true → refusedWith stBusy)
           ∧ (good → isErr rc = false → newer → fits → x.retired = false → x.next = none → (pmaShell t l).st = .idle → e ≠ x.entry →
               (∀ k, k < 8 → (subAt t (l / 8) k).deferral = false) → (pmaShell t l).start = false → Completes (.laneEntriesFetched inst net) s fun d =>
                 (laneAt d l).entry = e ∧ (laneAt d l).version = leAt e 4 4 ∧ (laneAt d l).next = none
                 ∧ (pmaShell d l).en = bitAt (leAt e 3 1) 0 ∧ (pmaShell d l).st = (if bitAt (leAt e 3 1) 0 then .starting else .idle)
                 ∧ d.mgmt.progress = [] ∧ d.ports.jobs = [] ∧ (∀ k, k ≠ l → laneAt d k = laneAt t k)
                 ∧ (p.mute = false → ∃ r, (inst, r) ∈ d.mgmt.replies ∧ r.status = 0 ∧ r.payload = [0, 0])
                 ∧ d.alm = (cmdRecS p.ctx 0x05 l 0 (first8 (Config.sha384 (comingEntry t l))) (first8 (Config.sha384 e)) t).alm)))

/-- Frames: the descriptor at HEAD is served: its frame leaves with its FCS, counted, and STATUS 0 and a time-stamp that it asks for are
written back by requests of the engine, whose tags are FREE again; STATUS 2 for a length out of range and 4 without link; a received frame goes to the buffer of the descriptor at HEAD with
LEN, STATUS, TSTAMP and TBI, or is dropped and counted where there is none (R377, R378, R381, R397). -/
def Obligations.PortFrames : Prop :=
  ∀ (s : State) (engine : EngineId) (sub pos : Fin 8) (c off : Nat), MgmtQuiet s.dev → c < 128 → NetReady s.dev (engineInit engine.val) c →
    let e := engine.val
    let k := sub.val
    let p := subAt s.dev e k
    let limit := max (p.ctl.extractLsb' 16 14).toNat 64
    let resvsNow (a n : Nat) : List Resv := s.dev.trl.resvs.filter fun r => !(r.stop = 2 + c && r.init ≠ engineInit e
      && (r.line = coreAddr c off / 64 || decide (coreAddr c a / 64 ≤ r.line ∧ r.line ≤ (coreAddr c (a + n) - 1) / 64 ∧ 0 < n)))
    let desc := coreBytes s.dev c off 32
    let frame (a n : Nat) (q : Subport) (bs : Nat → Option Byte) (d : Device) : Prop :=
      subAt d e k = q ∧ coreStored s.dev d c bs ∧ d.trl.resvs = resvsNow a n
      ∧ (∀ x y, (x, y) ≠ (e, k) → x < 64 → y < 8 → subAt d x y = subAt s.dev x y)
      ∧ (∀ i, i ≠ engineInit e → win d i = win s.dev i) ∧ (∀ t, (tagOf (win d (engineInit e)) t).st = (tagOf (win s.dev (engineInit e)) t).st)
      ∧ d = { s.dev with arrays := d.arrays, ports := { s.dev.ports with subs := d.ports.subs }, free := d.free
                         trl := { s.dev.trl with resvs := d.trl.resvs, wins := d.trl.wins } }
    let status (b : Byte) : Nat → Option Byte := runAt (off + 11) [b]
    let head (r : Ring) : Ring := { r with head := BitVec.ofNat 16 ((r.idx r.head + 1) % r.slots) }
    ringsRun s.dev e k = true → p.ctl.getLsbD 2 = false →
    (DescAt s.dev e p.txr c off →
      let n := leAt desc 8 2
      let q : Subport := { p with txr := head p.txr }
      (linkUp s.dev e k = false → Completes (.frameTransmitted engine sub pos calmNet) s (frame 0 0 q (status 4)))
      ∧ (linkUp s.dev e k = true → n < 60 ∨ limit < n + 4 → Completes (.frameTransmitted engine sub pos calmNet) s (frame 0 0 q (status 2)))
      ∧ ∀ buf, linkUp s.dev e k = true → 60 ≤ n → n + 4 ≤ limit → leAt desc 0 8 % 2 ^ 48 = coreAddr c buf → buf + n ≤ 0x20000 → cleanRun s.dev 2 c buf n →
          let f := coreBytes s.dev c buf n
          let out := f ++ fcsOf f
          let sent : Subport := { q with wire := out, txFrames := min (p.txFrames + 1) (2 ^ 64 - 1), txBytes := min (p.txBytes + (n + 4)) (2 ^ 64 - 1) }
          (bitsAt (leAt desc 10 1) 0 2 = 0 → Completes (.frameTransmitted engine sub pos calmNet) s (frame 0 0 sent (status 0)))
          ∧ (bitsAt (leAt desc 10 1) 0 2 = 1 → Completes (.frameTransmitted engine sub pos calmNet) s (frame 0 0 sent fun j =>
              let b := bitsAt (leAt desc 10 1) 2 3
              (runAt (off + 16) (leBytes 12 (portStamp s.dev e k b pos.val true) ++ leBytes 1 (b + bit (replica s.dev (e / 8) b).holdover 7)) j).or
                (status 0 j))))
    ∧ ∀ f, linkUp s.dev e k = true →
        let n := f.length
        let got : Subport := { p with rxFrames := min (p.rxFrames + 1) (2 ^ 64 - 1), rxBytes := min (p.rxBytes + n) (2 ^ 64 - 1) }
        let good := f.drop (n - 4) = fcsOf (f.take (n - 4))
        (p.rxr.empty = true → good → 4 ≤ n → Completes (.frameReceive engine sub pos f calmNet) s fun d =>
          d = setSub e k { got with rxDrop := min (p.rxDrop + 1) (2 ^ 32 - 1) } s.dev)
        ∧ (DescAt s.dev e p.rxr c off → ∀ buf, leAt desc 0 8 % 2 ^ 48 = coreAddr c buf → 64 ≤ n → n ≤ limit →
            let data := if p.ctl.getLsbD 1 then f.take (n - 4) else f
            data.length ≤ leAt desc 8 2 → buf + data.length ≤ 0x20000 →
            let b := s.dev.time.rxBase.get 0 (e * 8 + k)
            let back (st : Byte) : List Byte := leBytes 2 data.length ++ [0, st] ++ leBytes 4 0 ++ leBytes 12 (portStamp s.dev e k b pos.val false)
              ++ leBytes 1 (b + bit (replica s.dev (e / 8) b).holdover 7)
            (good → Completes (.frameReceive engine sub pos f calmNet) s (frame buf data.length { got with rxr := head p.rxr } fun j =>
              (runAt (off + 8) (back 0) j).or (runAt buf data j)))
            ∧ (¬good → Completes (.frameReceive engine sub pos f calmNet) s (frame buf data.length
                { got with rxr := head p.rxr, fcsErr := min (p.fcsErr + 1) (2 ^ 32 - 1) } fun j => (runAt (off + 8) (back 1) j).or (runAt buf data j))))

/-! ## CXL -/

/-- Host requests: a decoder maps a host address by its interleave, the request enters as initiator 0x810 + n and is decided like any
other; a read is recorded in the snoop filter and waits in its channel, a write enters the write queue; without a plot, a binding or a
decoder a read returns poison and a write only its completion, each with a C0 note; an answer to a snoop ends its entry; the host's answer
to a request of the device answers its initiator; host snoops get RspIHitI; dirty data of a region that is retired is
discarded; nothing happens while the link is down, or while the stream of CXL.mem is insecure (R332, R405, R406, R410 to R413).
Resets of the port and of one logical device: what each clears and what it leaves, with its record; the link comes up only after
start-up training, not once C4 holds, and may narrow or go down; an IDE stream whose check fails becomes insecure with a security event;
an IDE key is programmed over a secured session beside the one in use, and replaces it when it is started; binding is recorded, or not done (R332, R404, R413, R414, R417, R418, R427). -/
def Obligations.CxlRequests : Prop :=
  (∀ (s : State) (ld : PlotId) (hpa : Nat), MgmtQuiet s.dev →
     let said (m : HostMsg) (a : Device) : Device := { a with cxl := { a.cxl with sent := (m :: a.cxl.sent).take 16 } }
     let noted (a : Device) : Device := raise (.hub 11) 0 0x0B hpa a
     let holds (h : Hdm) : Prop := h.base ≤ hpa ∧ hpa < h.base + h.size
     let decoder (k : Nat) : Option Hdm := s.dev.cxl.hdm.get none (ld.val * 4 + k)
     let live : Bool := plotExists s.dev ld.val && s.dev.cxl.bound.getLsbD ld.val
     (s.dev.cxl.linkUp = false →
       Completes (.memrd ld hpa) s (fun d => d = s.dev) ∧ Completes .hostSnoop s (fun d => d = s.dev)
       ∧ ∀ data, data.length = 64 → Completes (.memwr ld hpa data) s (fun d => d = s.dev)
         ∧ ∀ line sh, Completes (.birsp ld line (some data) sh) s fun d => d = s.dev)
     ∧ ((ideAt s.dev 5).insecure = true →
       Completes (.memrd ld hpa) s (fun d => d = s.dev) ∧ Completes .hostSnoop s (fun d => d = s.dev)
       ∧ (∀ data, data.length = 64 → Completes (.memwr ld hpa data) s fun d => d = s.dev)
       ∧ (∀ line sh, Completes (.birsp ld line none sh) s fun d => d = s.dev)
       ∧ ∀ i tag data, Completes (.cxlCacheResponse i tag data) s fun d => d = s.dev)
     ∧ (s.dev.cxl.linkUp = true → (ideAt s.dev 5).insecure = false →
       Completes .hostSnoop s (fun d => d = said .snoopRsp s.dev)
       ∧ (live = false ∨ (∀ k < 4, ∀ h, decoder k = some h → ¬holds h) →
           Completes (.memrd ld hpa) s (fun d => d = said (.memData ld.val [] true) (noted s.dev))
           ∧ ∀ data, data.length = 64 → Completes (.memwr ld hpa data) s fun d => d = said (.memCmp ld.val) (noted s.dev))
       ∧ (∀ k h w t, live = true → k < 4 → decoder k = some h → holds h → (∀ j < k, ∀ g, decoder j = some g → ¬holds g) →
           let o := hpa - h.base
           let a := h.dpa + o / (h.ways * h.gran) * h.gran + o % h.gran
           let r : TrlReq := { init := BitVec.ofNat 12 (0x810 + ld.val), tag := none, enters := false, odd := none, addr := BitVec.ofNat 48 (a / 64 * 64), len := 0, bcnt := 63
                               data := [], opA := 0, opB := 0 }
           a < 2 ^ 48 → a / 64 * 64 < capacity s.dev → s.dev.mem.trained = true → memWindow s.dev (a / 64 * 64) = some w → lowestFree (win s.dev r.init) 1024 = some t →
           (win s.dev r.init).stalled = false → pageLocked s.dev (a / 64 * 64) = false →
           let ch := (w.map (a / 64 * 64)).1
           let line := (w.map (a / 64 * 64)).2 / 64
           let c := chAt s.dev ch
           let filt (d : Device) : List (Nat × Nat) := if ch < 12 then d.cxl.filterW else d.cxl.filterE
           c.failed = false → c.sr = .off → c.retrain = none → c.rd.length < 64 → c.wr.length < 64 → c.held = [] →
           (∀ k q, s.dev.mem.rtReady = true → regionOf s.dev (a / 64 * 64) = some (k, q) → s.dev.mem.entries.contains k = true) → (∀ u ∈ s.dev.mem.txns, readsOnly u.pkt = true) →
           (∀ e ∈ filt s.dev, e.1 ≠ a / 64) → (filt s.dev).length < 262144 →
           let id := s.dev.mem.nextTxn
           let whole : Span := { dline := a / 64, chan := ch, line, lo := 0, n := 64 }
           (∀ idx, verdict s.dev r.init ld.val true (a / 64 * 64) = .go idx → (∀ e ∈ c.wr, e.line ≠ line) →
             let seen (d : Device) : Prop := TagTaken s.dev d .read r t ∧ filt d = filt s.dev ++ [(a / 64, ld.val)] ∧ d.cxl.sent = s.dev.cxl.sent ∧ d.flt = s.dev.flt
             ((areaAt s.dev idx).level ≠ 2 → Completes (.memrd ld hpa) s fun d =>
               seen d ∧ chAt d ch = { c with rd := c.rd ++ [{ txn := id, dline := a / 64, line, passed := 0 }] }
               ∧ d.mem.txns = s.dev.mem.txns ++ [{ id, pkt := sentPkt s.dev .read .xload r t, job := .access, region := some idx
                                                   keyId := regionKey s.dev (some idx) (a / 64 * 64), spans := [whole]
                                                   reads := { need := [a / 64], todo := [], got := [] } }])
             ∧ ((areaAt s.dev idx).level = 2 →
                 let ls := metaLines s.dev (areaAt s.dev idx) (a / 64 * 64) [a / 64] ++ [a / 64]
                 (∀ l ∈ ls, onFailed s.dev l = false) → (∀ l ∈ ls, ∀ v, memWindow s.dev (l * 64) = some v → (chAt s.dev (v.map (l * 64)).1).sr = .off) →
                 Completes (.memrd ld hpa) s fun d => seen d ∧ ∃ u ∈ d.mem.txns, u.id = id ∧ u.pkt = sentPkt s.dev .read .xload r t ∧ u.region = some idx
                   ∧ (a / 64 ∈ u.reads.need ∨ a / 64 ∈ u.reads.todo) ∧ ∀ l ∈ ls, l ∈ u.reads.need ∨ l ∈ u.reads.todo ∨ ∃ b, (l, b) ∈ u.reads.got))
           ∧ (∀ (idx : Option Nat) data, data.length = 64 → verdict s.dev r.init ld.val false (a / 64 * 64) = idx.elim .plain .go → (∀ e ∈ c.wr, e.line ≠ line) →
               (∀ i, idx = some i → (areaAt s.dev i).level ≠ 2) → Completes (.memwr ld hpa data) s fun d =>
                 let p := sentPkt s.dev .write .xload { r with data } t
                 TagTaken s.dev d .write { r with data } t
                 ∧ (chAt d ch).wr = c.wr ++ [{ line, data, ctx := idx.bind (fun i => sealFor s.dev (areaAt s.dev i) (a / 64 * 64) 0),
                                                 keyId := regionKey s.dev idx (a / 64 * 64), time := devNs s.dev, passed := 0 }] ∧ (chAt d ch).rd = c.rd
                 ∧ d.trl.rsps = s.dev.trl.rsps ++ [{ req := p, rcode := rcOkay, data := [] }] ∧ d.mem.txns = s.dev.mem.txns
                 ∧ d.cxl = s.dev.cxl ∧ d.flt = s.dev.flt)
           ∧ (verdict s.dev r.init ld.val true (a / 64 * 64) = .poisoned → Completes (.memrd ld hpa) s fun d =>
               d.trl.rsps = s.dev.trl.rsps ++ [{ req := sentPkt s.dev .read .xload r t, rcode := rcPoisoned, data := [] }]
               ∧ d.mem = { s.dev.mem with entries := d.mem.entries } ∧ d.cxl = s.dev.cxl ∧ d.flt = s.dev.flt))
       ∧ (∀ line (sh : Bool) dirty, (∀ w ∈ s.dev.trl.waiting, ∀ done, w.why ≠ .snoop line done) →
           (dirty = none ∨ ∃ data k q, dirty = some data ∧ data.length = 64 ∧ regionOf s.dev (line * 64) = some (k, q) ∧ q.st = .retiring) →
           Completes (.birsp ld line dirty sh) s fun d =>
           let gone (f : List (Nat × Nat)) : List (Nat × Nat) := if sh then f else f.filter (· ≠ (line, ld.val))
           d = { s.dev with cxl := { s.dev.cxl with filterW := gone s.dev.cxl.filterW, filterE := gone s.dev.cxl.filterE } })
       ∧ ∀ p q (data : List Byte), s.dev.cxl.hostReqs = p :: q →
           (p.opc = .read → data.length = p.bcnt.toNat + 1 → Completes (.cxlCacheResponse p.init p.tag data) s fun d =>
             d = { s.dev with cxl := { s.dev.cxl with hostReqs := q }, trl := { s.dev.trl with rsps := s.dev.trl.rsps ++ [{ req := p, rcode := rcOkay, data }] } })
           ∧ (p.opc = .write → Completes (.cxlCacheResponse p.init p.tag data) s fun d =>
             d = { s.dev with cxl := { s.dev.cxl with hostReqs := q }, trl := { s.dev.trl with rsps := s.dev.trl.rsps ++ [{ req := p, rcode := rcOkay, data := [] }] } })))
  ∧ (∀ (s : State), MgmtQuiet s.dev →
       let c := s.dev.cxl
       let keeps (d : Device) : Prop := d.mem = s.dev.mem ∧ d.cores = s.dev.cores ∧ d.beds = s.dev.beds ∧ d.trust = s.dev.trust
         ∧ ∀ k, k ≠ arrayKey 5 0 → d.arrays.get Coded.filled k = s.dev.arrays.get Coded.filled k
       let noSession (p : Nat → Bool) (d : Device) : Prop :=
         (∀ k < 32, d.mgmt.sessions.getD k none = (s.dev.mgmt.sessions.getD k none).filter fun y => !ofLd p y.inst)
         ∧ d.mgmt.replies = s.dev.mgmt.replies.filter fun x => !ofLd p x.1
       let tables (p : Nat → Bool) (d : Device) : Prop := ∀ n < 16,
         d.cxl.cacheEn.getLsbD n = (c.cacheEn.getLsbD n && !p n) ∧ d.msix.enable.getLsbD n = (s.dev.msix.enable.getLsbD n && !p n)
         ∧ d.msix.fmask.getLsbD n = (s.dev.msix.fmask.getLsbD n && !p n)
         ∧ ∀ v < 128, msixEntry d n v = if p n then MsixEntry.reset else msixEntry s.dev n v
       let recorded (cls id : Nat) (d : Device) : Prop := AlmTakes s.dev → (∀ x ∈ s.dev.mgmt.sessions, x = none) →
         ∃ r, d.alm.recs.getLast? = some r ∧ r.origin = 0 ∧ r.objClass = cls ∧ r.objId = id
       s.dev.msix.entries.wf MsixEntry.reset = true → c.hdm.wf none = true → s.dev.mgmt.sessions.length = 32 →
       (entries s.dev = [] → (∀ w ∈ s.dev.trl.waiting, ∀ l done, w.why ≠ .snoop l done) → c.hostReqs = [] →
         ∀ i ∈ [Instr.perstN, Instr.hotReset], Completes i s fun d =>
           d.cxl = { c with linkUp := false, speed := 0, width := 0, cacheEn := 0, hdm := d.cxl.hdm, ide := .empty, filterW := [], filterE := [] }
           ∧ (∀ n < 64, d.cxl.hdm.get none n = none) ∧ tables (fun _ => true) d ∧ noSession (fun _ => true) d
           ∧ keeps d ∧ d.trl = s.dev.trl ∧ recorded 0x01 0 d)
       ∧ (∀ ld : Fin 16, Completes (.functionLevelReset ld) s fun d =>
           d.cxl = { c with cacheEn := d.cxl.cacheEn } ∧ tables (· = ld.val) d ∧ noSession (· = ld.val) d
           ∧ keeps d ∧ d.trl = s.dev.trl ∧ recorded 0x12 ld.val d)
       ∧ (∀ ld : Fin 16, (∀ e ∈ c.filterW ++ c.filterE, e.2 ≠ ld.val) → Completes (.cxlReset ld) s fun d =>
           d.cxl = { c with cacheEn := d.cxl.cacheEn, hdm := d.cxl.hdm, memActive := d.cxl.memActive }
           ∧ (∀ n < 64, d.cxl.hdm.get none n = if n / 4 = ld.val then none else c.hdm.get none n)
           ∧ (∀ n < 16, d.cxl.memActive.getLsbD n = (c.memActive.getLsbD n && decide (n ≠ ld.val)))
           ∧ tables (· = ld.val) d ∧ noSession (· = ld.val) d ∧ keeps d ∧ d.trl = s.dev.trl
           ∧ recorded 0x12 ld.val d)
       ∧ (∀ speed width port, c.linkUp = false → s.dev.start.trained = true → s.dev.flt.fsafe ≠ .c4 → 1 ≤ speed.toNat → speed.toNat ≤ 4 →
           width ∈ [(1 : BitVec 5), 2, 4, 8, 16] → Completes (.cxlLinkUp speed width port) s fun d =>
             d = { s.dev with cxl := { c with linkUp := true, speed, width, portId := port } })
       ∧ (∀ speed width port, s.dev.start.trained = false ∨ s.dev.flt.fsafe = .c4 → Completes (.cxlLinkUp speed width port) s fun d => d = s.dev)
       ∧ (c.linkUp = true →
           (c.hostReqs = [] → Completes (.cxlLinkDown none) s fun d => d = { s.dev with cxl := { c with linkUp := false, speed := 0, width := 0 } })
           ∧ (∀ p, c.hostReqs = [p] → p.opc ≠ .pwrite → Completes (.cxlLinkDown none) s fun d =>
               d = { raise (.init p.init) 0 0x0B p.addr.toNat s.dev with
                 cxl := { c with linkUp := false, speed := 0, width := 0, hostReqs := [] }
                 trl := { s.dev.trl with rsps := s.dev.trl.rsps ++ [{ req := p, rcode := rcNoRoute, data := [] }] } })
           ∧ (∀ w, w ∈ [(1 : BitVec 5), 2, 4, 8] → w.toNat < c.width.toNat → Completes (.cxlLinkDown (some w)) s fun d =>
               d = { s.dev with cxl := { c with width := w } })
           ∧ ∀ ld k, (∃ y, some y ∈ s.dev.mgmt.sessions ∧ y.opening = false ∧ y.inst = .doe ld) →
               let x := ideAt s.dev k.val
               (∀ key, key.length = 32 → Completes (.ideKm ld k (.program key)) s fun d => d = setIde k.val { x with next := some key } s.dev)
               ∧ (∀ key, x.next = some key → Completes (.ideKm ld k .go) s fun d =>
                   d = setIde k.val { key, next := none, running := true, insecure := false } s.dev)
               ∧ (x.next = none → x.key ≠ [] → Completes (.ideKm ld k .go) s fun d => d = setIde k.val { x with running := true, insecure := false } s.dev)
               ∧ Completes (.ideKm ld k .stop) s fun d => d = setIde k.val { x with running := false } s.dev)
       ∧ (∀ k : Fin 6, (ideAt s.dev k.val).running = true → wardenRuns s.dev = false → Completes (.ideCheckFailure k) s fun d =>
           d = occur 0x0A 4 0 (raise (.hub 11) (evClass s.dev 4) 0x14 4
             (setIde k.val { ideAt s.dev k.val with running := false, insecure := true } s.dev)))
       ∧ (c.linkUp = true → ∀ ld : PlotId,
           (∀ i on, (i, on) ∈ [(Instr.bind ld, true), (Instr.unbind ld, false)] → c.bound.getLsbD ld.val ≠ on →
             (almRoom 1 s.dev = false → Completes i s fun d => d = s.dev)
             ∧ (almRoom 1 s.dev = true → Completes i s fun d =>
             (∀ n < 16, d.cxl.bound.getLsbD n = if n = ld.val then on else c.bound.getLsbD n)
             ∧ d.cxl = { c with bound := d.cxl.bound }
             ∧ (AlmTakes s.dev →
                 ∃ r, d.alm.recs.getLast? = some r ∧ r.origin = 2 ∧ r.objClass = 0x12 ∧ r.objId = ld.val)
             ∧ keeps d ∧ d.trl = s.dev.trl ∧ d.msix = s.dev.msix))))

/-- The mailbox and DOE of a logical device, its MSI-X table and its configuration space: what each CXL-defined command returns, with
vector 0; measurements, certificates and the CDAT table; a write of MSIX_TRIGGER raises vectors 2 to 127, masked ones become pending; a
staging write appends to the open session or is dropped (R406, R408, R413, R415, R416, R419, R427, R483, R495, R628). -/
def Obligations.CxlMailbox : Prop :=
  ∀ (s : State) (ld : PlotId), MgmtQuiet s.dev → s.dev.cxl.linkUp = true →
    let c := s.dev.cxl
    let said (m : HostMsg) (a : Device) : Device := { a with cxl := { a.cxl with sent := (m :: a.cxl.sent).take 16 } }
    let lit (v : Nat) (a : Device) : Device :=
      let e := msixEntry a ld.val v
      if a.msix.enable.getLsbD ld.val ∧ a.msix.fmask.getLsbD ld.val = false ∧ e.mask = false then
        { a with msix := { a.msix with sent := a.msix.sent ++ [(ld.val, v)] } }
      else { a with msix := { a.msix with entries := a.msix.entries.set MsixEntry.reset (ld.val * 128 + v) { e with pending := true } } }
    let done (code : Nat) (b : List Byte) (d : Device) : Prop := { d with free := s.dev.free } = lit 0 (said (.mailbox ld.val code b) s.dev)
    let live : Bool := plotExists s.dev ld.val && c.bound.getLsbD ld.val
    let doe (i : Instr) (b : List Byte) : Prop := Completes i s fun d => d = said (.doe ld.val b) s.dev
    (live = false → ∀ i ∈ [Instr.identifyMemoryDevice ld, .getSupportedLogs ld, .backgroundOperationStatus ld], Completes i s (done 0x0102 []))
    ∧ (live = true →
        Completes (.identifyMemoryDevice ld) s (fun d => ∃ rev logs : List Byte, rev.length = 16 ∧ logs.length = 8 ∧
          let cap := leBytes 8 (fittedBytes s.dev / 2 ^ 28)
          done 0 (rev ++ cap ++ cap ++ List.replicate 16 0 ++ logs ++ List.replicate 11 0) d)
        ∧ Completes (.getSupportedLogs ld) s (done 0 ([1, 0, 0, 0, 0, 0, 0, 0] ++ effectsUuid ++ [20, 0, 0, 0]))
        ∧ Completes (.backgroundOperationStatus ld) s (done 0 (List.replicate 8 0))
        ∧ (∀ off len, off + len ≤ 16 → Completes (.getLog ld effectsUuid off len) s
            (done 0 ((([0x13, 0, 0, 0, 0, 4, 0, 0, 1, 4, 0, 0, 0, 0x40, 0, 0] : List Byte).drop off).take len)))
        ∧ ∀ uuid off len, uuid.length = 16 → uuid ≠ effectsUuid → Completes (.getLog ld uuid off len) s (done 0x17 []))
    ∧ doe (.getMeasurements ld 0) [6]
    ∧ (∀ i : Byte, 1 ≤ i.toNat → i.toNat ≤ 6 → doe (.getMeasurements ld i) (measurement' s.dev ld.val i.toNat))
    ∧ doe (.getMeasurements ld 255) ((List.range 6).flatMap fun k => measurement' s.dev ld.val (k + 1))
    ∧ (∀ off len, doe (.getCertificate ld 0 off len) ((Config.certChain.drop off).take (min len (Config.certChain.length - off)))
        ∧ doe (.getCertificate ld 1 off len) ((s.dev.trust.slot1.drop off).take (min len (s.dev.trust.slot1.length - off)))
        ∧ ∀ slot : Fin 8, 2 ≤ slot.val → doe (.getCertificate ld slot off len) [])
    ∧ (∃ x : Byte, doe (.cdat ld) ([136, 0, 0, 0, 1, x] ++ List.replicate 10 0 ++ cdatEntries s.dev)
        ∧ (([136, 0, 0, 0, 1, x] ++ List.replicate 10 0 ++ cdatEntries s.dev).map fun (y : Byte) => y.toNat).sum % 256 = 0)
    ∧ (∀ k (y : Session), k < 32 → findSession s.dev y.id = some (k, y) → y.opening = false → s.dev.mgmt.up = true →
        s.dev.mgmt.sessions.getD k none = some y → Completes (.endSession y.inst y.id) s fun d =>
          d.mgmt = { s.dev.mgmt with sessions := s.dev.mgmt.sessions.set k none }
          ∧ (AlmTakes s.dev →
              ∃ r, d.alm.recs.getLast? = some r ∧ r.origin = instOrigin y.inst ∧ r.objClass = 0x11 ∧ r.objId = y.id.toNat % 2 ^ 24))
    ∧ (∀ init v, RegAccepts s.dev init .cxl 0x500000 (0x1000 + 4 * ld.val) v.toNat (2 ^ 32 - 1) →
        Completes (.msixTrigger init ld v) s fun d => d = okay (if 2 ≤ v.toNat then lit v.toNat s.dev else s.dev))
    ∧ (∀ on, Completes (.configurationSpaceWrite ld (.cacheEnable on)) s fun d =>
        d = { s.dev with cxl := { c with cacheEn := d.cxl.cacheEn } }
        ∧ ∀ n < 16, d.cxl.cacheEn.getLsbD n = if n = ld.val then on else c.cacheEn.getLsbD n)
    ∧ (∀ k base size dpa,
        Completes (.configurationSpaceWrite ld (.decoder k false base size dpa 1 256)) s (fun d =>
          d = { s.dev with cxl := { c with hdm := c.hdm.set none (ld.val * 4 + k.val) none } })
        ∧ ∀ ways ∈ [1, 2, 4, 8, 16], ∀ g < 7, Completes (.configurationSpaceWrite ld (.decoder k true base size dpa ways (256 * 2 ^ g))) s fun d =>
            d = { s.dev with cxl := { c with hdm := c.hdm.set none (ld.val * 4 + k.val) (some { base, size, dpa, ways, gran := 256 * 2 ^ g }) } })
    ∧ (∀ (v : Fin 128) mask (a : Word64) (x : Word32), s.dev.msix.entries.wf MsixEntry.reset = true →
        (∀ n < 128, n ≠ v.val → (msixEntry s.dev ld.val n).pending = false) →
        Completes (.configurationSpaceWrite ld (.msixEntry v mask a x)) s fun d =>
          let e := msixEntry s.dev ld.val v.val
          let sends := e.pending && !mask && s.dev.msix.enable.getLsbD ld.val && !s.dev.msix.fmask.getLsbD ld.val
          msixEntry d ld.val v.val = { mask, addr := a, data := x, pending := e.pending && !sends }
          ∧ d.msix.sent = (if sends then s.dev.msix.sent ++ [(ld.val, v.val)] else s.dev.msix.sent)
          ∧ (∀ k, k ≠ ld.val * 128 + v.val → d.msix.entries.get MsixEntry.reset k = s.dev.msix.entries.get MsixEntry.reset k)
          ∧ d = { s.dev with msix := { s.dev.msix with entries := d.msix.entries, sent := d.msix.sent } })
    ∧ ((ideAt s.dev 0).insecure = true → ∀ off data, Completes (.stagingWrite ld off data) s fun d => d = s.dev)
    ∧ (∀ off data, (ideAt s.dev 0).insecure = false → (∀ k e, sesAt s.dev k = some e → e.path ≠ 0 ∨ e.inst ≠ .mailbox ld) → Completes (.stagingWrite ld off data) s fun d =>
        d = raise (.hub 11) 0 0x0B 0 { s.dev with cxl := { c with stageDrop := BitVec.ofNat 32 (min (c.stageDrop.toNat + 1) (2 ^ 32 - 1)) } })
    ∧ ∀ k e off data, (ideAt s.dev 0).insecure = false → entries s.dev = [(k, e)] → e.path = 0 → e.inst = .mailbox ld →
        (e.st = .applying ∨ e.st = .waitingStart → Completes (.stagingWrite ld off data) s fun d =>
          d = raise (.hub 11) 0 0x0B 0 { s.dev with cxl := { c with stageDrop := BitVec.ofNat 32 (min (c.stageDrop.toNat + 1) (2 ^ 32 - 1)) } })
        ∧ (e.st = .receiving → off % 64 = 0 → data.length % 64 = 0 → Completes (.stagingWrite ld off data) s fun d => d = sesBytes k data s.dev)
        ∧ (e.st = .receiving → off % 64 ≠ 0 → Completes (.stagingWrite ld off data) s fun d => d = rejectSes k stBadParam s.dev)

/-! ## Management -/

/-- Configuration sessions: CFG_BEGIN takes the first free entry, raises its generation and reserves the first space that fits; CFG_DATA
appends bytes, at TOTAL_LEN the session is VERIFYING, beyond it REJECTED with BAD_PARAM; the checks make it VERIFIED or REJECTED; an idle
session ends with a record of the device itself; CFG_ABORT ends one, turns a waiting one's beds FALLOW, and disarms START_AT for CSID
0xFFFF (R457 to R461, R467).
Commits: CFG_COMMIT is judged by its table, waits for a verification, and holds its targets while it is applied; at its commit point a
bed has the image's configuration, memories, digest and COMMITTED state, a core its memories, BOOT and STREAM_CTL, reservations on its
data memory having ended, and the plot's measurement is extended; the session then waits for DONE or START_AT, or starts at once; DONE high for 1 µs begins USER and starts what
waits (R462 to R466, R469). -/
def Obligations.ConfigSessions : Prop :=
  (∀ (s : State) (inst : Inst) (pkt : Packet), s.dev.cfg.ses.length = 4 → s.dev.cfg.gens.length = 4 →
     let pl := pkt.payload
     let plot := pkt.plot.toNat % 16
     let put (k : Nat) (x : Option CfgSes) (a : Device) : Device := { a with cfg := { a.cfg with ses := a.cfg.ses.set k x } }
     let fresh (f : Nat → Nat → Device → Device) (a : Device) : Device :=
       let (b, a) := freshDigest a
       let (x, a) := freshDigest a
       f b x a
     let csid := leAt pl 0 2
     let k := csid % 4
     (∀ k, k < 4 → (∀ j < k, s.dev.cfg.ses.getD j none ≠ none) → s.dev.cfg.ses.getD k none = none →
       (∀ j e, sesAt s.dev j = some e → ¬(e.path = leAt pl 0 1 ∧ e.inst = inst)) →
       let gen (a : Device) : Nat := (a.cfg.gens.getD k 0 + 1) % 256
       Replies (.cfgBegin inst pkt) s opCfgBegin inst pkt stOk (fun a => leBytes 4 (k + gen a * 256)) fun a =>
         fresh (fun b x a => cfgRec (ctxOf opCfgBegin inst pkt) k plot b x (put k (some {
             st := .receiving, plot, path := leAt pl 0 1, inst, base := (firstFit (entries a) ((leAt pl 4 4 + 2097151) / 2097152)).getD 0
             units := (leAt pl 4 4 + 2097151) / 2097152, reserve := leAt pl 4 4, bytes := [], status := 0, start := 0, touched := devNs a
             beds := [], cores := [] }) { a with cfg := { a.cfg with gens := a.cfg.gens.set k (gen a) } })) a)
     ∧ (∀ e, sesAt s.dev k = some e → e.st = .receiving → 256 ≤ e.bytes.length →
         let all := e.bytes ++ pl.drop 4
         let now : CfgSes := { e with touched := devNs s.dev }
         (all.length < imgTotal e.bytes → Replies (.cfgData inst pkt) s opCfgData inst pkt stOk (fun _ => []) (put k (some { now with bytes := all })))
         ∧ (all.length = imgTotal e.bytes → Replies (.cfgData inst pkt) s opCfgData inst pkt stOk (fun _ => []) (put k (some { now with bytes := all, st := .verifying })))
         ∧ (imgTotal e.bytes < all.length → (e.plot ≠ 0 ∨ s.dev.mgmt.dev ≠ .ready) →
             Replies (.cfgData inst pkt) s opCfgData inst pkt stBadParam (fun _ => [])
               (put k (some { now with bytes := all.take (imgTotal e.bytes), st := .rejected, status := stBadParam }))))
     ∧ (MgmtQuiet s.dev → ∀ (n : Fin 4) e, sesAt s.dev n.val = some e → e.path ≠ 3 → (e.plot ≠ 0 ∨ s.dev.mgmt.dev ≠ .ready) →
         (e.st = .verifying → imageVerdict s.dev e.bytes = none → Completes (.signatureVerifyComplete n) s fun d =>
           d = put n.val (some { e with st := .verified }) s.dev)
         ∧ (∀ st, e.st = .verifying → imageVerdict s.dev e.bytes = some st → Completes (.signatureVerifyComplete n) s fun d =>
           d = put n.val (some { e with st := .rejected, status := st }) s.dev)
         ∧ (let tmo := max 1 (s.dev.cfg.ctl.extractLsb' 16 16).toNat * 1000000000
            e.st = .receiving ∨ e.st = .rejected ∨ e.st = .verified → e.touched + tmo ≤ devNs s.dev → Completes (.sessionIdleTimeout n) s fun d =>
             d = fresh (fun b x a => almMake { origin := 0, principal := 0, objClass := 0x10, objId := n.val + s.dev.cfg.gens.getD n.val 0 * 256, action := 0x800E
                                               status := 0, before := b, after := x } (some e.plot) (put n.val none a)) s.dev))
     ∧ (∀ e, sesAt s.dev k = some e → csid ≠ 0xFFFF → e.path ≠ 3 →
         (e.st = .receiving ∨ e.st = .rejected ∨ e.st = .verifying ∨ e.st = .verified →
           Replies (.cfgAbort inst pkt) s opCfgAbort inst pkt stOk (fun _ => []) fun a =>
             fresh (fun b x a => put k none (cfgRec (ctxOf opCfgAbort inst pkt) k e.plot b x a)) a)
         ∧ (∀ n, e.st = .waitingStart → e.beds = [n] → (bedAt s.dev n).st = .committed →
           Replies (.cfgAbort inst pkt) s opCfgAbort inst pkt stOk (fun _ => []) fun a =>
             fresh (fun b x a => put k none (leaveBorder n .fallow (cfgRec (ctxOf opCfgAbort inst pkt) k e.plot b x a) |> modBed n fun (y : Bed) =>
               { y with fallowDue := none, clock := { y.clock with stopDue := false, pauseDue := false } })) a))
     ∧ (csid = 0xFFFF →
         (s.dev.time.startAt = none → Replies (.cfgAbort inst pkt) s opCfgAbort inst pkt stOk (fun _ => []) id)
         ∧ (s.dev.time.startAt ≠ none → Replies (.cfgAbort inst pkt) s opCfgAbort inst pkt stOk (fun _ => []) fun a =>
             fresh (fun b x a => almMake { origin := instOrigin inst, principal := principalOf (ctxOf opCfgAbort inst pkt), objClass := 0x10, objId := 0xFFFF
                                           action := 0x0204, status := 0, before := b, after := x } none { a with time := { a.time with startAt := none } }) a)))
  ∧ (∀ (s : State), s.dev.cfg.ses.length = 4 → s.dev.cfg.gens.length = 4 →
       let put (k : Nat) (x : Option CfgSes) (a : Device) : Device := { a with cfg := { a.cfg with ses := a.cfg.ses.set k x } }
       (∀ (inst : Inst) (pkt : Packet) e,
         let pl := pkt.payload
         let k := leAt pl 0 2 % 4
         let start := leAt pl 2 1
         let no (st : Nat) (f : Device → Device) : Prop := Replies (.cfgCommit inst pkt) s opCfgCommit inst pkt st (fun _ => []) f
         let badStart : Prop := 2 < start ∨ (start = 1 ∧ s.dev.mgmt.dev = .user) ∨ (start = 2 ∧ s.dev.time.startAt = none)
         sesAt s.dev k = some e → e.path ≠ 3 →
         ((e.plot ≠ 0 ∨ s.dev.mgmt.dev ≠ .ready) →
           (badStart → no stBadParam (put k none))
           ∧ (¬badStart → e.st = .receiving → no stStreamShort (put k none))
           ∧ (¬badStart → e.st = .rejected → no e.status (put k none)))
         ∧ (¬badStart → e.st = .applying ∨ e.st = .waitingStart → no stBusy id)
         ∧ (¬badStart → e.st = .verifying → Stays (.cfgCommit inst pkt) s opCfgCommit inst pkt [] fun a d => d = { a with mgmt := d.mgmt })
         ∧ (∀ t, ¬badStart → e.st = .verified → imgKind e.bytes = 1 → bedTargets s.dev e.bytes = [t] → coreTargets s.dev e.bytes = [] → s.dev.mgmt.held = [] →
             (bedAt s.dev t.bed).st = .fallow ∨ (bedAt s.dev t.bed).st = .unconfigured → bedOwner s.dev t.bed = imgPlot e.bytes →
             (t.merge = true → (bedAt s.dev t.bed).kept = true ∨ ∃ f ∈ t.frames, f.type = 1) →
             borderCheck (asCommitted [(t.bed, newFrames s.dev t.bed t.merge t.frames)] s.dev) [t.bed] = none →
             Stays (.cfgCommit inst pkt) s opCfgCommit inst pkt [.bed t.bed] fun a d =>
               let (b, a) := freshDigest a
               d = { opPlot 2 e.plot (put k (some { e with st := .applying, touched := devNs s.dev,
                                                            start := if start = 0 ∧ s.dev.mgmt.dev ≠ .user then 1 else start })
                     (cfgRec (ctxOf opCfgCommit inst pkt) k e.plot b (first8 (imgDigest e.bytes)) a)) with mgmt := d.mgmt }))
       ∧ (MgmtQuiet s.dev → ∀ (n : Fin 4) e, sesAt s.dev n.val = some e → e.st = .applying → imgKind e.bytes = 1 → e.path ≠ 3 → e.start ≠ 0 →
           s.dev.cfg.loadDue = false →
           let meas (d : Device) : Prop :=
             let old := (plotSt s.dev (imgPlot e.bytes)).meas5
             (plotSt d (imgPlot e.bytes)).meas5 = Config.sha384 ((if old = [] then List.replicate 48 0 else old) ++ imgDigest e.bytes)
           s.dev.trust.plots.length = 16 →
           (∀ t, bedTargets s.dev e.bytes = [t] → t.bed < 384 → coreTargets s.dev e.bytes = [] → (∀ x ∈ imgBodies s.dev e.bytes, x.1.type = 1) →
             (∀ i < 48, (arrayAt s.dev 0 (t.bed * 48 + i)).dec = []) → Completes (.commitPoint n) s fun d =>
               let m := newFrames s.dev t.bed t.merge t.frames
               let b := bedAt d t.bed
               b.st = .committed ∧ b.cfg = parseBed m ∧ b.cells = initialCells m ∧ b.phase = 0 ∧ b.frames = m ∧ b.kept = true
               ∧ b.digest = Config.sha384 (frameBytes m) ∧ b.byPolicy = false ∧ b.cutFlag = false ∧ (genShell d t.bed).cont = true
               ∧ (genShell d t.bed).en = false
               ∧ (∀ i < 48, ∀ k < 4096, (arrayAt d 0 (t.bed * 48 + i)).read k = ⟨(frameAt m 7 i).getD k 0, 0, .clean⟩)
               ∧ d.cfg = (put n.val (some { e with st := .waitingStart, beds := [t.bed], cores := [] }) s.dev).cfg
               ∧ meas d ∧ d.cores = s.dev.cores ∧ d.mem = s.dev.mem ∧ d.alm = s.dev.alm)
           ∧ (∀ c en body, bedTargets s.dev e.bytes = [] → coreTargets s.dev e.bytes = [(c, en, body)] → c < 128 → (∀ x ∈ imgBodies s.dev e.bytes, x.1.type = 2) →
               (arrayAt s.dev 1 c).dec = [] → (arrayAt s.dev 2 c).dec = [] → Completes (.commitPoint n) s fun d =>
               (∀ k < 65536, (arrayAt d 1 c).read k = ⟨((body.drop 16).take 65536).getD k 0, 0, .clean⟩)
               ∧ (∀ k < 131072, (arrayAt d 2 c).read k = ⟨((body.drop 65552).take 131072).getD k 0, 0, .clean⟩)
               ∧ coreAt d c = { coreAt s.dev c with bootPc := BitVec.ofNat 16 (leAt body 0 4), bootVbase := BitVec.ofNat 16 (leAt body 0 4 / 65536)
                                                    enL := bitAt (leAt body 4 1) 0, enU := bitAt (leAt body 4 1) 1 }
               ∧ (∀ k, k ≠ c → coreAt d k = coreAt s.dev k) ∧ d.trl.resvs = s.dev.trl.resvs.filter (fun r => r.stop ≠ 2 + c)
               ∧ d.cfg = (put n.val (some { e with st := .waitingStart, beds := [], cores := if en then [c] else [] }) s.dev).cfg
               ∧ meas d ∧ d.beds = s.dev.beds ∧ d.mem = s.dev.mem ∧ d.alm = s.dev.alm))
       ∧ (∀ t0, s.dev.cfg.since = some t0 → s.dev.mgmt.dev = .ready → s.dev.cfg.ignored = false → s.dev.cfg.doneHeld = false → s.dev.cfg.others = false →
           t0 + 1000 ≤ devNs s.dev →
           (∀ k e, sesAt s.dev k = some e → e.st = .waitingStart → e.start ≠ 1) → Completes .doneHigh s fun d =>
             d = selfRec 0x01 0 0x800C 0 0 0 { s.dev with mgmt := { s.dev.mgmt with dev := .user }, cfg := { s.dev.cfg with since := none, ready := none }
                                                          flt := { s.dev.flt with histRun := false } })
       ∧ (∀ t0 n e b, s.dev.cfg.since = some t0 → s.dev.mgmt.dev = .ready → s.dev.cfg.ignored = false → s.dev.cfg.doneHeld = false → s.dev.cfg.others = false →
           t0 + 1000 ≤ devNs s.dev → entries s.dev = [(n, e)] → e.st = .waitingStart → e.start = 1 → e.beds = [b] → e.cores = [] →
           (bedAt s.dev b).st = .committed → (genShell s.dev b).st = .idle → b < 384 → Completes .doneHigh s fun d =>
             d.mgmt.dev = .user ∧ entries d = [] ∧ (genShell d b).en = true ∧ (genShell d b).st = .starting ∧ d.flt.histRun = false)
       ∧ (∀ others, (s.dev.mgmt.dev = .user → Completes (.doneLineChange others) s fun d => d = { s.dev with cfg := { s.dev.cfg with others } })
           ∧ (s.dev.mgmt.dev ≠ .user → Completes (.doneLineChange others) s fun d =>
               d = { s.dev with cfg := { s.dev.cfg with others, since := if s.dev.cfg.doneHeld ∨ others then none else
                 match s.dev.cfg.since with | some t => some t | none => some (devNs s.dev) } })))

/-- The golden image: it is loaded when INIT_WAIT has passed in READY without a full image, and by GOLDEN_LOAD; sessions end first;
without a staging region, a valid pointer block or a copy that the flash delivers, the load fails, GOLDEN reads 3 and C2 is raised
against CFG, with a record; a command's reply carries the outcome of the last copy (R306, R470 to R472).
Beds under command: BED_FALLOW leaves beds that are out of service as they are and stops the others, answering when all are out of
service; BED_RELEASE commits the retained configuration again and starts the bed; READBACK captures a bed that stands still, answers with
the dump's size, flags and time, or with the status of a failed write, and asks a running bed to pause (R473 to R478). -/
def Obligations.BedCommands : Prop :=
  (∀ (s : State), s.dev.cfg.ses.length = 4 →
     let g0 : Golden := { reading := true, copy := 0, rest := [0, 1], entry := none, cmd := none, holds := [] }
     let modeLoads : Prop := s.dev.cfg.mode.toNat ≤ 2 ∨ s.dev.cfg.mode.toNat = 4
     let failed (a : Device) : Device := almMake { origin := 0, principal := 0, objClass := 0x10, objId := 0, action := 0x8010, status := stNoStaging, before := 0, after := 0 }
       none (raise (.hub 2) 2 0x1C 0 { a with cfg := { a.cfg with golden := 3, load := none } })
     (∀ t0, s.dev.cfg.ready = some t0 → s.dev.mgmt.dev = .ready → s.dev.cfg.load = none → modeLoads → s.dev.cfg.initDone = false →
       let w := (s.dev.cfg.ctl.extractLsb' 0 16).toNat
       w ≠ 0 → t0 + w * 1000000000 ≤ devNs s.dev →
       (∀ k e, sesAt s.dev k = some e → e.st = .receiving ∨ e.st = .rejected ∨ e.st = .verifying ∨ e.st = .verified) →
       let begun : Device := { s.dev with cfg := { s.dev.cfg with ready := none, loadDue := false, ses := [none, none, none, none] } }
       ((regionAt s.dev 1016).st = .active → Completes .initWaitExpiry s fun d => d = { begun with cfg := { begun.cfg with load := some g0 } })
       ∧ ((regionAt s.dev 1016).st ≠ .active → Completes .initWaitExpiry s fun d => d = failed begun))
     ∧ (s.dev.mgmt.dev ≠ .ready → Completes .initWaitExpiry s fun d => d = s.dev)
     ∧ (∀ (inst : Inst) (pkt : Packet), s.dev.mgmt.dev = .ready → (regionAt s.dev 1016).st = .active →
         let copy := leAt pkt.payload 0 1
         Stays (.goldenLoad inst pkt) s opGoldenLoad inst pkt [.loader] fun _ d =>
           d.cfg = { s.dev.cfg with ses := [none, none, none, none], load := some { g0 with rest := if copy = 2 then [0, 1] else [copy], cmd := some inst } }
           ∧ d.trust = s.dev.trust ∧ d.beds = s.dev.beds ∧ d.mem = s.dev.mem)
     ∧ (MgmtQuiet s.dev → ∀ g (ptr : List Byte), s.dev.cfg.load = some g → g.reading = true → g.cmd = none → g.entry = none → ptr.length = 64 →
         let valid : Prop := ptr.take 4 = [0x4B, 0x56, 0x47, 0x50] ∧ zeroAt ptr 4 4 = true ∧ zeroAt ptr 24 40 = true
         let badCopy (a : Device) : Device := almMake { origin := 0, principal := 0, objClass := 0x10, objId := 0, action := 0x8010, status := stBadParam, before := 0
                                                        after := 0 } none (raise (.hub 2) 2 0x1C 0 { a with cfg := { a.cfg with golden := 3, load := none } })
         (∀ image, ¬valid ∨ (∀ c ∈ g.rest, leAt ptr (8 + 8 * c) 8 = 0) → Completes (.recoveryFlashReadComplete ptr image) s fun d => d = badCopy s.dev)
         ∧ (∀ c rest, valid → g.rest = c :: rest → leAt ptr (8 + 8 * c) 8 ≠ 0 →
             (rest ≠ [] → Completes (.recoveryFlashReadComplete ptr none) s fun d =>
               d = { s.dev with cfg := { s.dev.cfg with load := some { g with copy := c, rest, reading := true, holds := [] } } })
             ∧ (rest = [] → Completes (.recoveryFlashReadComplete ptr none) s fun d =>
               d = almMake { origin := 0, principal := 0, objClass := 0x10, objId := 0, action := 0x8010, status := stTimeout, before := 0, after := 0 }
                 none (raise (.hub 2) 2 0x1C 0 { s.dev with cfg := { s.dev.cfg with golden := 3, load := none } }))
             ∧ ∀ image, s.dev.cfg.ses = [none, none, none, none] → s.dev.cfg.gens.length = 4 → (regionAt s.dev 1016).st = .active → 256 ≤ image.length →
                 headCheck s.dev 0 (min 369098752 (192 * 2097152)) image = none → headRest (image.take 256) = none → imgKind image = 0 →
                 image.length = imgTotal image → Completes (.recoveryFlashReadComplete ptr (some image)) s fun d =>
                   d.cfg = { s.dev.cfg with
                     gens := s.dev.cfg.gens.set 0 ((s.dev.cfg.gens.getD 0 0 + 1) % 256)
                     load := some { g with copy := c, rest, reading := false, entry := some 0 }
                     ses := [some { st := .verifying, plot := 0, path := 3, inst := .jtag, base := 0, units := (imgTotal image + 2097151) / 2097152
                                    reserve := min 369098752 (192 * 2097152), bytes := image, status := 0, start := 0, touched := devNs s.dev, beds := []
                                    cores := [] }, none, none, none] }
                   ∧ d = { s.dev with cfg := d.cfg })))
  ∧ (∀ (s : State) (inst : Inst) (pkt : Packet),
       let pl := pkt.payload
       let out (n : Nat) : Prop := (bedAt s.dev n).st = .fallow ∨ (bedAt s.dev n).st = .unconfigured
       let first := leAt pl 0 2
       ((∀ i < leAt pl 2 2, out (first + i)) → Replies (.bedFallow inst pkt) s opBedFallow inst pkt stOk (fun _ => []) fun a =>
         cmdRecObj (ctxOf opBedFallow inst pkt) 0x03 first a)
       ∧ (leAt pl 2 2 = 1 → (bedAt s.dev first).st = .cut → (genShell s.dev first).st = .fault →
           Replies (.bedFallow inst pkt) s opBedFallow inst pkt stOk (fun _ => []) fun a =>
             let a := cmdRecObj (ctxOf opBedFallow inst pkt) 0x03 first a
             modBed first (fun (b : Bed) => { b with st := .fallow, rbHold := false })
               (setShell (.gen (Fin.ofNat 384 first)) { (genShell a first).ctlWrite false (genShell a first).mspec with deferral := none } a))
       ∧ (leAt pl 2 2 = 1 → (bedAt s.dev first).st = .running → (genShell s.dev first).st = .active →
           Stays (.bedFallow inst pkt) s opBedFallow inst pkt [.bed first] fun _ d =>
             (bedAt d first).st = .running ∧ (bedAt d first).fallowDue = some false ∧ (bedAt d first).rbHold = false
             ∧ (genShell d first).en = false ∧ (genShell d first).st = .stopping ∧ ∀ n, n ≠ first → bedAt d n = bedAt s.dev n)
       ∧ (leAt pl 2 2 = 1 → (genShell s.dev first).st = .idle →
           Replies (.bedRelease inst pkt) s opBedRelease inst pkt stOk (fun _ => []) (fun a =>
             let (b, a) := freshDigest a
             let (x, a) := freshDigest a
             let a := cmdRecS (ctxOf opBedRelease inst pkt) 0x03 first stOk b x a
             startBeds [first] (commitBed first (bedAt a first).frames a))
           ∧ ((∀ i < 48, (arrayAt s.dev 0 (first * 48 + i)).dec = []) → CmdGood s.dev opBedRelease inst pkt → Completes (.bedRelease inst pkt) s fun d =>
               let m := (bedAt s.dev first).frames
               (bedAt d first).st = .committed ∧ (bedAt d first).cells = initialCells m ∧ (bedAt d first).cfg = parseBed m ∧ (bedAt d first).byPolicy = false
               ∧ (genShell d first).en = true ∧ (genShell d first).st = .starting
               ∧ ∀ i < 48, ∀ k < 4096, (arrayAt d 0 (first * 48 + i)).read k = ⟨(frameAt m 7 i).getD k 0, 0, .clean⟩))
       ∧ (∀ fail, (bedAt s.dev first).st = .running → Stays (.readback inst pkt fail) s (opReadback fail) inst pkt [.bed first] fun a d =>
           d = { modBed first (fun (b : Bed) => { b with rbHold := true, clock := { b.clock with pauseDue := true } }) a with mgmt := d.mgmt })
       ∧ ∀ fail, let n := leAt pl 0 2
           let b := bedAt s.dev n
           let flags := bit b.cutFlag 0 + bit (decide (b.st = .fallow)) 1
           let plain : List Byte := (List.range 4096).flatMap fun i =>
             leBytes 2 (b.cells.get CellSt.zero i).q0.toNat ++ leBytes 2 (b.cells.get CellSt.zero i).q1.toNat
           let iv := sliceBytes (Config.random s.dev.trust.draws 12) 0 12
           let hdr : List Byte := [0x4B, 0x56, 0x52, 0x42] ++ leBytes 2 n ++ leBytes 2 flags ++ leBytes 8 (devNs s.dev) ++ iv ++ leBytes 4 16384 ++ List.replicate 32 0
           let drawn (a : Device) : Device := { modBed n (fun (b : Bed) => { b with rbHold := false, clock := { b.clock with pauseDue := false } }) a with
             trust := { a.trust with draws := a.trust.draws + 1 } }
           leAt pl 2 1 = 0 → b.st = .stopped ∨ b.st = .fallow ∨ b.st = .committed → b.cutFlag = false → bedFrozen s.dev n = false →
           ∀ key, plotKey s.dev (bedOwner s.dev n) "kv readback" = some key →
             let write (a : Device) : Device × Byte :=
               busWriteWith { NetIn.calm with fail := fail } loaderInit (pkt.plot.toNat % 16) (leAt pl 4 8) (hdr ++ Config.gcmSeal key iv hdr plain) (drawn a)
             (∀ rc, fail = some rc → isErr rc = true → BusOpen s.dev loaderInit →
               Replies (.readback inst pkt fail) s (opReadback fail) inst pkt (if rc = rcTimeout then stTimeout else stBadParam) (fun _ => []) fun a => (write a).1)
             ∧ (∀ d' rc, write (taken (opReadback fail) inst pkt s.dev) = (d', rc) → FusesKept s.dev d' → MgmtQuiet d' →
                 (isErr rc = true → Replies (.readback inst pkt fail) s (opReadback fail) inst pkt (if rc = rcTimeout then stTimeout else stBadParam)
                   (fun _ => []) fun _ => d')
                 ∧ (isErr rc = false → Replies (.readback inst pkt fail) s (opReadback fail) inst pkt stOk
                   (fun _ => leBytes 4 (64 + (Config.gcmSeal key iv hdr plain).length) ++ leBytes 4 flags ++ leBytes 8 (devNs s.dev)) fun _ => d')))

/-- Device commands: IDENTIFY's 256 bytes and GET_STATUS's 64, field by field; PLOT_RESET stops the plot's cores and answers when they have
stopped; SHUTDOWN of a quiet device enters the SHUTDOWN state with a record at acceptance and at completion (R440 to R443).
Sessions: an SPDM exchange that the responder accepts opens one in the first free entry, bound to the command's plot and instance; its
FINISH completes it with the negotiated secret and a record; a FINISH that fails drops it; other messages are only answered;
SESSION_CLOSE answers under the session's keys and ends it with a record (R425, R427). -/
def Obligations.DeviceCommands : Prop :=
  (∀ (s : State) (inst : Inst) (pkt : Packet),
     let plot := pkt.plot.toNat % 16
     let number (n : Nat) (p : Nat → Bool) : Nat := ((List.range n).filter p).length
     let mask (n : Nat) (p : Nat → Bool) : Nat := maskOf ((List.range n).map p)
     let identity (a : Device) : List Byte :=
       leBytes 16 Config.deviceId ++ leBytes 1 (Config.part.val + 1) ++ leBytes 1 (lifecycleNo a.trust.lifecycle) ++ leBytes 1 (devStateNo a.mgmt.dev)
         ++ [2] ++ leBytes 4 hubStepping ++ leBytes 8 a.d2d.cap.toNat ++ leBytes 48 (mask 384 fun n => (bedAt a n).unusable)
         ++ leBytes 16 (mask 128 fun c => (coreIoAt a c).unusable) ++ leBytes 4 (mask 24 fun c => (chAt a c).fitted) ++ leBytes 4 0
         ++ leBytes 8 (fittedBytes a) ++ leBytes 64 (mask 512 fun l => (laneAt a l).retired) ++ leBytes 2 (mask 16 (plotExists a)) ++ leBytes 2 0
         ++ leBytes 4 Config.mgmtVersion.toNat ++ leBytes 8 (devNs a) ++ leBytes 8 (a.alm.next % 2 ^ 48) ++ List.replicate 56 0
     let status (a : Device) : List Byte :=
       let x := plotSt a plot
       let u := a.alm.unacked
       let beds := (List.range 384).filter fun n => bedOwner a n = plot
       let cores := (List.range 128).filter fun c => coreOwner a c = plot
       let lanes := (List.range 512).filter fun l => laneOwner a l = plot
       leBytes 1 (devStateNo a.mgmt.dev) ++ leBytes 1 (lifecycleNo a.trust.lifecycle) ++ leBytes 1 plot
         ++ leBytes 1 (bit (if plot = 0 then a.trust.lifecycle = .deployed else x.sealed) 0 + bit x.fallow 1 + bit (decide (130816 ≤ u) || a.alm.sealed) 2)
         ++ leBytes 2 (maskOf (a.flt.first.map fun r => r.any fun y => plot = 0 || (y.plotValid && y.plot = plot))) ++ leBytes 2 0
         ++ leBytes 2 beds.length
         ++ leBytes 2 (beds.filter fun n => (bedAt a n).st = .running || (bedAt a n).st = .waiting || (bedAt a n).st = .paused).length
         ++ leBytes 1 cores.length ++ leBytes 1 (cores.filter fun c => (coreAt a c).st = .active).length
         ++ leBytes 2 lanes.length ++ leBytes 2 (lanes.filter fun l => (pmaShell a l).st = .active).length
         ++ leBytes 2 ((validRegions a).filter fun e => e.2.owner = plot).length
         ++ leBytes 1 (number 255 fun k => k ≠ 0 && (keySlot a k).st ≠ .empty && (keySlot a k).owner = plot) ++ leBytes 3 0
         ++ leBytes 4 (130816 - u) ++ leBytes 4 0 ++ leBytes 8 (devNs a)
         ++ leBytes 12 (let t := (a.time.bases.getD 0 TimeBase.reset).val
                        t / (2 ^ 48 * 10 ^ 9) * 2 ^ 48 + t / 2 ^ 48 % 10 ^ 9 * 2 ^ 16 + t / 2 ^ 32 % 2 ^ 16) ++ List.replicate 12 0
     Replies (.identify inst pkt) s opIdentify inst pkt stOk identity id
     ∧ (MgmtQuiet s.dev → s.dev.mgmt.up = true → cmdHalted s.dev = false → badHeader opIdentify pkt = false → pkt.flags.getLsbD 0 = false →
         isFabric inst = false → Completes (.identify inst pkt) s fun d =>
           d = answerCmd false (ctxOf opIdentify inst pkt) stOk 0 (identity s.dev) (dropReply inst s.dev))
     ∧ Replies (.getStatus inst pkt) s opGetStatus inst pkt stOk status id
     ∧ (let p := leAt pkt.payload 0 1
        (∀ k < 32, ∀ y, s.dev.mgmt.sessions.getD k none = some y → y.plot.val = p → y.id = pkt.session) → s.dev.rakes = [] →
        (∀ e < 64, engineOwner s.dev e = p → ∀ k < 8, subEn (subAt s.dev e k) = false) →
        ((∀ c < 128, coreOwner s.dev c = p → (coreAt s.dev c).st = .idle ∧ (coreAt s.dev c).en = false) →
           Replies (.plotReset inst pkt) s opPlotReset inst pkt stOk (fun _ => []) fun a => cmdRecObj (ctxOf opPlotReset inst pkt) 0x0C p a)
        ∧ (∀ c < 128, coreOwner s.dev c = p → (coreAt s.dev c).st = .active → CmdGood s.dev opPlotReset inst pkt → Completes (.plotReset inst pkt) s fun d =>
             (coreAt d c).en = false ∧ (coreAt d c).st = .stopping ∧ (coreAt d c).lastStop = 4
             ∧ (∀ m, (128 ≤ m ∨ coreOwner s.dev m ≠ p) → coreAt d m = coreAt s.dev m)
             ∧ d.beds = s.dev.beds ∧ d.mem = s.dev.mem ∧ d.trl = s.dev.trl ∧ d.ports = s.dev.ports
             ∧ ∃ q, d.mgmt.progress = [q] ∧ q.inst = inst ∧ q.opcode = 0x0104))
     ∧ (leAt pkt.payload 0 1 = 0 → (∀ n < 384, outOfService s.dev n = true) → (∀ c < 128, (coreAt s.dev c).st = .idle ∧ (coreAt s.dev c).en = false) →
         (∀ e < 64, ∀ k < 8, subEn (subAt s.dev e k) = false) → (∀ l < 512, (pmaShell s.dev l).st = .idle) → s.dev.bist.run = none →
         Replies (.shutdown inst pkt) s opShutdown inst pkt stOk (fun _ => leBytes 4 0) fun a =>
           doneRec 0x0103 0x01 0 0 (first8 (Config.sha384 pkt.payload))
             (let a := cmdRecPayload (ctxOf opShutdown inst pkt) 0x01 0 a
              { a with mgmt := { a.mgmt with dev := .shutdown } })))
  ∧ (∀ (s : State) (inst : Inst) (pkt : Packet), s.dev.mgmt.sessions.length = 32 →
       let pl := pkt.payload
       let code := leAt pl 1 1
       let plot := pkt.plot.toNat % 16
       let exchange : Prop := code = 0xE4 ∨ code = 0xE6
       let fin : Prop := code = 0xE5 ∨ code = 0xE7
       let put (k : Nat) (x : Option Session) (a : Device) : Device := { a with mgmt := { a.mgmt with sessions := a.mgmt.sessions.set k x } }
       let noOpening : Prop := ∀ y, some y ∈ s.dev.mgmt.sessions → ¬(y.opening = true ∧ y.inst = inst)
       (¬exchange → ¬fin → Replies (.sessionOpen inst pkt) s opSessionOpen inst pkt stOk (fun _ => Config.spdmOther pl) id)
       ∧ (∀ resp k, exchange → noOpening → k < 32 → s.dev.mgmt.sessions.getD k none = none → (∀ j < k, s.dev.mgmt.sessions.getD j none ≠ none) →
           (Config.spdmExchange pl s.dev.trust.draws = (resp, false) → Replies (.sessionOpen inst pkt) s opSessionOpen inst pkt stOk (fun _ => resp) fun a =>
             { a with trust := { a.trust with draws := a.trust.draws + 1 } })
           ∧ (Config.spdmExchange pl s.dev.trust.draws = (resp, true) → CmdGood s.dev opSessionOpen inst pkt → Completes (.sessionOpen inst pkt) s fun d =>
               (∃ y, d.mgmt.sessions = s.dev.mgmt.sessions.set k (some y) ∧ y.opening = true ∧ y.plot.val = plot ∧ y.inst = inst ∧ y.script = pl ++ resp
                 ∧ y.id.toNat % 65536 = leAt pl 4 2 ∧ y.win = SeqWin.reset)
               ∧ (∃ r, (inst, r) ∈ d.mgmt.replies ∧ r.status = 0 ∧ r.payload = resp)
               ∧ d.trust = { s.dev.trust with draws := s.dev.trust.draws + 1 }))
       ∧ (∀ k y, fin → k < 32 → s.dev.mgmt.sessions.getD k none = some y → y.opening = true → y.inst = inst → y.plot.val = plot →
           (∀ j < k, ∀ z, s.dev.mgmt.sessions.getD j none = some z → ¬(z.opening = true ∧ z.inst = inst)) →
           let answer := Config.spdmFinish y.script (plotSt s.dev plot).root (!(decide (s.dev.trust.lifecycle = .blank) && decide (plot = 0))) pl
           (∀ resp secret, answer = (resp, some secret) → Replies (.sessionOpen inst pkt) s opSessionOpen inst pkt stOk (fun _ => resp) fun a =>
             let z : Session := { y with opening := false, script := [], secret }
             sessionRec (instOrigin inst) (plot + y.id.toNat % 65536 * 65536) 0x0301 z (put k (some z) a))
           ∧ (∀ resp, answer = (resp, none) → Replies (.sessionOpen inst pkt) s opSessionOpen inst pkt stOk (fun _ => resp) (put k none)))
       ∧ (∀ k y, isFabric inst = false → leAt pl 0 4 = 0 → findSession s.dev pkt.session = some (k, y) → y.plot.val = plot → y.id ≠ 0 → y.opening = false →
           CmdGood s.dev opSessionClose inst pkt → Completes (.sessionClose inst pkt) s fun d =>
             let a := taken opSessionClose inst pkt s.dev
             let c := ctxOf opSessionClose inst pkt
             d = put k none (answerCmd true c stOk 0 [] (sessionRec (instOrigin inst) (principalOf c) 0x0302 y a))))

/-- The byte transports: a complete packet on a slave port is judged as the command that it spells, an unknown opcode is answered with
BAD_OPCODE, a part of one waits for the timer; REPLY hands out the held reply and drops it when it was read whole; PSTAT reads the port's
state; STREAM carries whole words to the port's session; a packet that stays incomplete is answered with TIMEOUT; the fabric port is polled,
and a fetch that fails raises a C0 note (R423, R424, R434, R454, R455). -/
def Obligations.CommandTransports : Prop :=
  ∀ (s : State) (inst : Inst), MgmtQuiet s.dev → portEnabled s.dev inst = true → s.dev.mgmt.up = true → s.dev.trl.stuck = false →
    let dropped (a : Device) : Device := { a with mgmt := { a.mgmt with partials := a.mgmt.partials.filter (·.inst ≠ inst) } }
    let tmo := max 1 s.dev.mgmt.tmo.toNat * 1000000
    (∀ (cnt : BitVec 24) (words : List Word32) net,
      let b := words.flatMap fun (w : Word32) => leBytes 4 w.toNat
      let pkt := packetOf b
      (words ≠ [] → (words.length < cnt.toNat ∨ words.length < 8) → Completes (.cmd inst cnt words net) s fun d =>
        let a := dropReply inst (dropped s.dev)
        d = { a with mgmt := { a.mgmt with partials := a.mgmt.partials ++ [{ inst, bytes := b, start := devNs s.dev }] } })
      ∧ (cnt.toNat ≤ words.length → 8 ≤ words.length → cmdHalted s.dev = false →
          (∀ op, leAt b 0 2 = op → specOf net op = none → Completes (.cmd inst cnt words net) s fun d =>
            let a := dropped s.dev
            d = holdReply inst (mkReply false { inst, op, pkt } stBadOpcode (pkt.flags.toNat % 2) [] a) a)
          ∧ (s.dev.mgmt.partials = [] →
              let same (i : Instr) : Prop := ∀ t, exec i s = .next t → t.dev.trl.stuck = false → exec (.cmd inst cnt words net) s = .next t
              (leAt b 0 2 = 0x0101 → same (.identify inst pkt))
              ∧ (leAt b 0 2 = 0x0102 → same (.getStatus inst pkt))
              ∧ (leAt b 0 2 = 0x0201 → same (.cfgBegin inst pkt))
              ∧ (leAt b 0 2 = 0x0309 → same (.policyLoad inst pkt net))
              ∧ (leAt b 0 2 = 0x0404 → same (.mapSet inst pkt))
              ∧ (leAt b 0 2 = 0x0601 → same (.tbSet inst pkt))
              ∧ (leAt b 0 2 = 0x0702 → same (.faultClear inst pkt))
              ∧ (leAt b 0 2 = 0x0903 → same (.almExport inst pkt net.fail))
              ∧ (leAt b 0 2 = 0x0101 → badHeader opIdentify pkt = false → pkt.flags.getLsbD 0 = false → Completes (.cmd inst cnt words net) s fun d =>
                  d = answerCmd false (ctxOf opIdentify inst pkt) stOk 0 (identifyBytes s.dev) (dropReply inst s.dev)))))
    ∧ (∀ cnt : BitVec 24, (∀ x ∈ s.dev.mgmt.replies, x.1 ≠ inst) → Completes (.reply inst cnt) s fun d =>
        d = { s.dev with mgmt := { s.dev.mgmt with sent := List.replicate (4 * cnt.toNat) 0 } })
    ∧ (∀ (cnt : BitVec 24) r, s.dev.mgmt.replies.find? (·.1 = inst) = some (inst, r) → Completes (.reply inst cnt) s fun d =>
        let size := (r.bytes.length + 3) / 4 * 4
        d.mgmt.sent = (List.range (4 * cnt.toNat)).map (fun k => r.bytes.getD k 0)
        ∧ d = { s.dev with mgmt := { s.dev.mgmt with sent := d.mgmt.sent
                                                     replies := if size ≤ 4 * cnt.toNat then s.dev.mgmt.replies.filter (·.1 ≠ inst) else s.dev.mgmt.replies } })
    ∧ Completes (.pstat inst) s (fun d =>
        let word := bit (s.dev.mgmt.replies.any (·.1 = inst)) 0 + bit (s.dev.cfg.ses.any fun x => x.any fun e => e.path = 2 && e.inst = inst) 2
        d = { s.dev with mgmt := { s.dev.mgmt with sent := leBytes 4 word } })
    ∧ (∀ words, (∀ k e, sesAt s.dev k = some e → ¬(e.path = 2 ∧ e.inst = inst)) → Completes (.stream inst words) s fun d => d = s.dev)
    ∧ (∀ k e words, entries s.dev = [(k, e)] → e.path = 2 → e.inst = inst → e.st = .receiving → 256 ≤ e.bytes.length → words ≠ [] →
        let all := e.bytes ++ words.flatMap fun (w : Word32) => leBytes 4 w.toNat
        all.length < imgTotal e.bytes → Completes (.stream inst words) s fun d =>
          d = { s.dev with cfg := { s.dev.cfg with ses := s.dev.cfg.ses.set k (some { e with bytes := all, touched := devNs s.dev }) } })
    ∧ (∀ x, s.dev.mgmt.partials.find? (·.inst = inst) = some x →
        (devNs s.dev < x.start + tmo → Completes (.cmdPacketTimeout inst) s fun d => d = s.dev)
        ∧ (x.start + tmo ≤ devNs s.dev → Completes (.cmdPacketTimeout inst) s fun d =>
            let h := packetOf (sliceBytes x.bytes 0 32)
            let r : Reply := { opcode := BitVec.ofNat 16 (leAt x.bytes 0 2), status := 0x0500, seq := h.seq, plot := h.plot, rflags := 0, session := h.session
                               mac := List.replicate 16 0, payload := [] }
            d = { s.dev with mgmt := { (dropped s.dev).mgmt with replies := s.dev.mgmt.replies.filter (·.1 ≠ inst) ++ [(inst, r)] } }))
    ∧ ∀ (p : PlotId) (net : NetIn),
        let a := (plotSt s.dev p.val).portAddr
        let note (t : Device) : Device := raise (.hub 1) 0 0xFF 6 t
        (a = 0 → Completes (.fabricPortPoll p net) s fun d => d = s.dev)
        ∧ (a ≠ 0 → (∀ x ∈ s.dev.mgmt.replies, x.1 ≠ .fabric p) →
            (∀ rc, net.fail = some rc → isErr rc = true → BusOpen s.dev loaderInit → ∃ t, busRead 0x802 p.val net a 64 s.dev = (t, rc, [], { net with fail := none })
                ∧ Completes (.fabricPortPoll p net) s fun d => d = fuseHold s.dev (note t))
            ∧ (∀ t rc b net', busRead 0x802 p.val net a 64 s.dev = (t, rc, b, net') → MgmtQuiet t → isErr rc = true →
                (t.trl.stuck = false → Completes (.fabricPortPoll p net) s fun d => d = fuseHold s.dev (note t))
                ∧ (t.trl.stuck = true → (∀ ch < 24, (chAt t ch).sr ≠ .exiting) → Completes (.fabricPortPoll p net) s fun d => d = s.dev))
            ∧ ∀ t head net', busRead 0x802 p.val net a 64 s.dev = (t, rcOkay, head, net') → MgmtQuiet t → t.trl.stuck = false →
                let posted (u : Device) : Device := setPlot p.val (fun x => { x with portPost := leAt head 0 4 }) u
                (leAt head 0 4 = leAt head 4 4 → Completes (.fabricPortPoll p net) s fun d => d = fuseHold s.dev t)
                ∧ (leAt head 0 4 ≠ leAt head 4 4 →
                    (∀ u rc hdr net'', busRead 0x802 p.val net' (a + 0x1000) 32 t = (u, rc, hdr, net'') → isErr rc = true → MgmtQuiet u → u.trl.stuck = false →
                      Completes (.fabricPortPoll p net) s fun d => d = fuseHold s.dev (note (posted u)))
                    ∧ ∀ u hdr net'', busRead 0x802 p.val net' (a + 0x1000) 32 t = (u, rcOkay, hdr, net'') → leAt hdr 10 2 = 0 → MgmtQuiet u →
                        u.mgmt.up = true → cmdHalted u = false → specOf net'' (leAt hdr 0 2) = none →
                        let pkt := packetOf hdr
                        let z := settle (fabricReply p (holdReply (.fabric p)
                          (mkReply false { inst := .fabric p, op := leAt hdr 0 2, pkt } stBadOpcode (pkt.flags.toNat % 2) [] (posted u)) (posted u)))
                        z.trl.stuck = false → Completes (.fabricPortPoll p net) s fun d => d = fuseHold s.dev z))

/-- Judging: a busy instance takes no packet; the first of the steps of R430 that fails decides the reply, and the command then has no effect
but its SEQ, which is consumed from step 6 on; failures of steps 3 and 4 are counted and noted; CHECK_ONLY gives the status alone; a SEQ is
fresh when it is ahead of the window, or behind it by 1 to 63 and not yet accepted (R428 to R431, R436). -/
def Obligations.CommandJudging : Prop :=
  (SeqWin.reset.high = 0 ∧ SeqWin.reset.accepted = 0) ∧ (∀ (w : SeqWin) (seq : Word32),
    let d := (w.high.toNat + 2 ^ 32 - seq.toNat) % 2 ^ 32
    (w.fresh seq = true ↔ 2 ^ 31 ≤ d ∨ (1 ≤ d ∧ d ≤ 63 ∧ w.accepted.getLsbD d = false))
    ∧ (2 ^ 31 ≤ d → (w.accept seq).high = seq ∧ ∀ k < 64, (w.accept seq).accepted.getLsbD k = (k = 0 || (decide (2 ^ 32 - d ≤ k) && w.accepted.getLsbD (k - (2 ^ 32 - d)))))
    ∧ (d ≤ 63 → (w.accept seq).high = w.high ∧ ∀ k < 64, (w.accept seq).accepted.getLsbD k = (k = d || w.accepted.getLsbD k)))
  ∧ ∀ (s : State) (inst : Inst) (pkt : Packet),
    ∀ io ∈ [(Instr.cfgBegin inst pkt, opCfgBegin), (.plotCreate inst pkt, opPlotCreate), (.keyRotate inst pkt, opKeyRotate), (.mapSet inst pkt, opMapSet)
           , (.tbSet inst pkt, opTbSet), (.faultRead inst pkt, opFaultRead), (.almSeal inst pkt, opAlmSeal), (.linkStatus inst pkt, opLinkStatus)
           , (.bistRun inst pkt, opBistRun), (.laneRetire inst pkt, opLaneRetire), (.getStatus inst pkt, opGetStatus), (.plotReset inst pkt, opPlotReset)],
      let o := io.2
      let c : Ctx := { inst, op := o.code, pkt }
      let a := dropReply inst s.dev
      let x := taken o inst pkt s.dev
      let check := pkt.flags.toNat % 2
      let tells (st rflags : Nat) (payload : List Byte) (e : Device) : Prop := Completes io.1 s fun d =>
        d = holdReply inst (mkReply o.session c st rflags payload e) e
      let note (e : Device) : Device := { e with
        flt := { e.flt with arriving := e.flt.arriving ++ [{ src := .hub 1, cls := 0, cause := 0x1A, detail := BitVec.ofNat 64 (instOrigin inst), time := devNs e }] }
        policy := { e.policy with queue := e.policy.queue ++ [(0x0F, 0, 0, devNs e)] } }
      let sessionOk : Prop := o.session = false ∨ isFabric inst = true ∨ (sessionFor c a).isSome = true
      let macIs (ok : Bool) : Prop := ∃ y, sessionFor c a = some y ∧ macOk c y.2 = ok
      let macGood : Prop := o.session = false ∨ macTransport inst = false ∨ macIs true
      MgmtQuiet s.dev →
      (s.dev.mgmt.up = false → Completes io.1 s fun d => d = s.dev)
      ∧ (s.dev.mgmt.up = true → cmdHalted s.dev = true → Completes io.1 s fun d =>
          d = { a with mgmt := { a.mgmt with parked := [(inst, o.code, pkt)] } })
      ∧ (s.dev.mgmt.up = true → cmdHalted s.dev = false →
          (badHeader o pkt = true → tells stBadParam check [] a)
          ∧ (badHeader o pkt = false →
              (¬ sessionOk → tells stNotAuth check [] a)
              ∧ (sessionOk → o.session = true → macTransport inst = true → macIs false →
                  tells stAuthFail check [] (note { a with mgmt := { a.mgmt with authFail := BitVec.ofNat 16 (min (a.mgmt.authFail.toNat + 1) 65535) } }))
              ∧ (sessionOk → macGood →
                  (∀ w, windowOf o c a = some w → w.fresh pkt.seq = false →
                    tells stReplay check (w.replayPayload pkt.seq) (note { a with mgmt := { a.mgmt with replay := BitVec.ofNat 8 (min (a.mgmt.replay.toNat + 1) 255) } }))
                  ∧ ((∀ w, windowOf o c a = some w → w.fresh pkt.seq = true) →
                      (plotBarred c a = true → tells stNotAuth check [] a)
                      ∧ (plotBarred c a = false →
                          let no (st : Nat) : Prop := Completes io.1 s fun d => d = answerCmd o.session c st check [] x
                          (o.accepts s.dev.mgmt.dev = false → no stBusy)
                          ∧ (o.accepts s.dev.mgmt.dev = true →
                              (∀ st, o.refusal c x = some st → no st)
                              ∧ (o.refusal c x = none → almRoom (o.records c x) x = false → no stAlmFull)
                              ∧ (o.refusal c x = none → almRoom (o.records c x) x = true → check = 1 → (o.run c x).st.trl.stuck = false →
                                  no (((o.run c x).reply.map (·.1)).getD stOk))))))))

/-- Trust commands: ATTEST_GET builds and signs the report and hands out the other signature in two parts; PLOT_CREATE gives the named objects
to a plot with its quota and keys and ends their tests; PLOT_DESTROY of a quiet plot returns all at once; KEY_INSTALL fills a key slot or the owner key from its
wrapped form; POLICY_LOAD replaces the table and raises the floor, answers the status
of a failed fetch or of a table that fails a check, and waits where its fetch must wait; LIFECYCLE_ADVANCE moves the fuses forward, with what each transition
does (R485, R488 to R497, R500, R507, R508, R582). -/
def Obligations.TrustCommands : Prop :=
  ∀ (s : State) (inst : Inst) (pkt : Packet), s.dev.trust.plots.length = 16 →
    let pl := pkt.payload
    let plot := pkt.plot.toNat % 16
    let block (a : Device) (p i : Nat) : List Byte := leBytes 1 (i + 1) ++ List.replicate 7 0 ++ measurement' a p (i + 1)
    let report (a : Device) : List Byte :=
      ([0x4B, 0x56, 0x41, 0x52] : List Byte) ++ leBytes 2 1 ++ leBytes 1 (leAt pl 32 1) ++ leBytes 1 6 ++ leBytes 16 Config.deviceId ++ pl.take 32 ++ leBytes 8 (devNs a)
        ++ leBytes 8 (match a.alm.recs.getLast? with | some r => r.seq | none => 0) ++ leBytes 8 a.alm.chain
        ++ block a (leAt pl 32 1) 0 ++ block a (leAt pl 32 1) 1 ++ block a (leAt pl 32 1) 2 ++ block a (leAt pl 32 1) 3
        ++ block a (leAt pl 32 1) 4 ++ block a (leAt pl 32 1) 5
    (leAt pl 33 1 = 0 → Replies (.attestGet inst pkt) s opAttestGet inst pkt stOk
        (fun a => report a ++ sliceBytes (Config.ecdsaSign (Config.sha384 (report a))) 0 96) fun a =>
          { a with trust := { a.trust with reports := a.trust.reports.filter (·.1 ≠ inst) ++ [(inst, report a)] } })
    ∧ (∀ r, s.dev.trust.reports.find? (·.1 = inst) = some (inst, r) →
        let sig := sliceBytes (Config.mldsaSign (Config.sha384 r)) 0 4627
        (leAt pl 33 1 = 1 → Replies (.attestGet inst pkt) s opAttestGet inst pkt stOk (fun _ => sig.take 2314) id)
        ∧ (leAt pl 33 1 = 2 → Replies (.attestGet inst pkt) s opAttestGet inst pkt stOk (fun _ => sig.drop 2314) id))
    ∧ (let p := leAt pl 0 1
       let names (off i : Nat) : Bool := bitAt (leAt pl (off + i / 8) 1) (i % 8)
       s.dev.cfg.ses = [none, none, none, none] → CmdGood s.dev opPlotCreate inst pkt → Completes (.plotCreate inst pkt) s fun d =>
        (∀ n < 384, bedOwner d n = if names 4 n then p else bedOwner s.dev n) ∧ (∀ n < 128, coreOwner d n = if names 52 n then p else coreOwner s.dev n)
        ∧ (∀ n < 512, laneOwner d n = if names 68 n then p else laneOwner s.dev n) ∧ (∀ n < 64, engineOwner d n = if names 132 n then p else engineOwner s.dev n)
        ∧ (∀ n < 384, names 4 n = true → (bedAt d n).kept = false ∧ (bedAt d n).frames = .empty ∧ (bedAt d n).byPolicy = false)
        ∧ d.bist.run = s.dev.bist.run.map (fun r => { r with beds := r.beds.filter (fun n => !(decide (n < 384) && names 4 n)), saves := r.saves.filter fun x => !(decide (x.bed < 384) && names 4 x.bed) })
        ∧ plotSt d p = { PlotSt.none with
            present := true, sealed := decide (leAt pl 1 1 = 1), quota := leAt pl 2 1, root := (pl.drop 144).take 48
            ecdsaPub := (pl.drop 192).take 97, mldsaPub := (pl.drop 289).take 2592, meas6 := pl }
        ∧ (∀ q < 16, q ≠ p → q ≠ 0 → plotSt d q = plotSt s.dev q) ∧ d.mem = s.dev.mem ∧ d.cores = s.dev.cores
        ∧ ∃ r, (inst, r) ∈ d.mgmt.replies ∧ r.status = 0 ∧ r.payload = [])
    ∧ (let p := leAt pl 0 1
       (∀ n < 384, bedOwner s.dev n ≠ p) → (∀ n < 128, coreOwner s.dev n ≠ p) → (∀ n < 512, laneOwner s.dev n ≠ p) → (∀ n < 64, engineOwner s.dev n ≠ p) →
       plotKeys s.dev p = [] → (∀ e ∈ validRegions s.dev, e.2.owner ≠ p) → ldOwes s.dev p = false → retiring s.dev p = false → s.dev.cfg.ses = [none, none, none, none] →
       s.dev.dbg.session = none → (∀ x, some x ∈ s.dev.mgmt.sessions → x.plot.val ≠ p) → (∀ q < 16, (plotSt s.dev q).dying = false) → s.dev.rakes = [] → s.dev.mem.regions.wf Region.reset = true →
       CmdGood s.dev opPlotDestroy inst pkt → Completes (.plotDestroy inst pkt) s fun d =>
        plotSt d p = PlotSt.none ∧ (∀ q < 16, q ≠ p → plotSt d q = plotSt s.dev q)
        ∧ (∀ e, e ∈ validRegions d → ((e.2.rmask ||| e.2.wmask).getLsbD p) = false)
        ∧ d.own = s.dev.own ∧ d.cores = s.dev.cores ∧ d.beds = s.dev.beds ∧ d.mgmt.progress = []
        ∧ ∃ r, (inst, r) ∈ d.mgmt.replies ∧ r.status = 0 ∧ r.payload = [])
    ∧ (let k := leAt pl 0 1
       let p := leAt pl 2 1
       ∀ key, (if isFabric inst then plotKey s.dev plot "kv fabric wrap" else (sessionFor (ctxOf opKeyInstall inst pkt) s.dev).map fun x => wrapKey x.2) = some key →
       let c := ctxOf opKeyInstall inst pkt
       let reply := Replies (.keyInstall inst pkt) s opKeyInstall inst pkt stOk (fun _ => [])
       (∀ m, (isFabric inst = true → inst = .fabric (Fin.ofNat 16 plot)) → leAt pl 1 1 = 0 → Config.keyUnwrap key (sliceBytes pl 4 72) = some m → reply fun a =>
          let gen := (keySlot a k).gen
          let (b, a) := freshDigest a
          cmdRec c 0x0B k b (first8 (Config.sha384 (leBytes 1 k ++ leBytes 1 gen)))
            (setKey k { st := .installed, owner := p, gen, ka := sliceBytes m 0 32, kb := sliceBytes m 32 32 } a))
       ∧ (∀ m, isFabric inst = false → leAt pl 1 1 = 1 → Config.keyUnwrap key (sliceBytes pl 4 40) = some m → reply fun a =>
          let (b, a) := freshDigest a
          cmdRec c 0x0C p b (first8 (Config.sha384 [0, 0])) (setPlot p (fun x => { x with ownerKey := some (sliceBytes m 0 32) }) a)))
    ∧ (∀ (net : NetIn) t rc b net', busRead loaderInit 0 net (leAt pl 0 8) (leAt pl 8 4) (taken (opPolicyLoad net) inst pkt s.dev) = (t, rc, b, net') →
        MgmtQuiet t → FusesKept s.dev t →
        (t.trl.stuck = true → (∀ ch < 24, (chAt t ch).sr ≠ .exiting) → CmdGood s.dev (opPolicyLoad net) inst pkt → Completes (.policyLoad inst pkt net) s fun d => d = s.dev)
        ∧ (t.trl.stuck = false →
          let reply (st : Nat) (f : Device → Device) : Prop := Replies (.policyLoad inst pkt net) s (opPolicyLoad net) inst pkt st (fun _ => []) f
          (isErr rc = true → reply (if rc = rcTimeout then stTimeout else stBadParam) fun _ => t)
          ∧ (isErr rc = false →
            let off := b.length - 4736
            (tblOk b = false → reply stBadParam fun _ => t)
            ∧ (tblOk b = true → namesDevice b 16 = false → reply stWrongDevice fun _ => t)
            ∧ (tblOk b = true → namesDevice b 16 = true →
              (signedBy (imageKeys s.dev 0) b off = false → reply stAuthFail fun _ => t)
              ∧ (signedBy (imageKeys s.dev 0) b off = true → zeroAt b (off + 4723) 13 = true → leAt b 8 4 < s.dev.policy.floor.toNat → reply stReplay fun _ => t)
              ∧ (signedBy (imageKeys s.dev 0) b off = true → zeroAt b (off + 4723) 13 = true → s.dev.policy.floor.toNat ≤ leAt b 8 4 → t.policy = s.dev.policy → reply stOk fun a =>
                let old := if a.policy.table.isSome then a.policy.digest else sliceBytes Config.builtinDigest 0 48
                let new := sliceBytes (Config.sha384 (b.take off)) 0 48
                let v := BitVec.ofNat 32 (leAt b 8 4)
                cmdRec (ctxOf (opPolicyLoad net) inst pkt) 0x0D 0 (first8 old) (first8 new) { t with policy := { t.policy with
                  table := some ((List.range (leAt b 6 2)).map fun k => parseRule (sliceBytes b (64 + 32 * k) 32)), version := v, floor := v
                  classes := (List.range 5).map fun i => leAt b (48 + i) 1, digest := new, counts := .empty, fired := .empty } })))))
    ∧ (let into := leAt pl 0 1
       let c := ctxOf opLifecycle inst pkt
       (∀ x, some x ∈ s.dev.mgmt.sessions → x.id = pkt.session) → s.dev.dbg.session = none →
       let rec' (a : Device) : Device := cmdRec c 0x0E 0 (lifecycleNo s.dev.trust.lifecycle) into a
       (into = 2 → Replies (.lifecycleAdvance inst pkt) s opLifecycle inst pkt stOk (fun _ => []) fun a =>
          let a := rec' a
          { a with trust := { a.trust with lifecycle := .deployed, trimLockAll := true }, dbg := { a.dbg with mgmtCtl := a.dbg.mgmtCtl &&& 3 } })
       ∧ (∀ ok, into = 1 → s.dev.trust.ownerBlk = none → newOwnerKey c s.dev = some ok → CmdGood s.dev opLifecycle inst pkt → Completes (.lifecycleAdvance inst pkt) s fun d =>
          let blk := sliceBytes (Config.keyWrap keyKw ok) 0 40 ++ pl.drop 44
          d.trust.lifecycle = .provisioned ∧ d.trust.ownerBlk = some blk
          ∧ plotSt d 0 = { plotSt s.dev 0 with
              ownerKey := some ok, ecdsaPub := sliceBytes blk 40 97, mldsaPub := sliceBytes blk 137 2592, root := sliceBytes blk 2729 48 }
          ∧ d.mem = s.dev.mem ∧ d.policy = s.dev.policy)
       ∧ (into = 4 → s.dev.mem.keys.wf KeySlot.reset = true → CmdGood s.dev opLifecycle inst pkt → Completes (.lifecycleAdvance inst pkt) s fun d =>
          d.trust.lifecycle = .decommissioned ∧ d.trust.dk = false ∧ d.trust.kw = false ∧ d.trust.bootKeys = false
          ∧ (∀ p < 16, (plotSt d p).ownerKey = none) ∧ (∀ k, (keySlot d k).st = .empty ∧ (keySlot d k).ka = [] ∧ (keySlot d k).kb = []
              ∧ (keySlot d k).gen = if (keySlot s.dev k).st = .empty then (keySlot s.dev k).gen else ((keySlot s.dev k).gen + 1) % 16)
          ∧ (∀ x, some x ∈ d.mgmt.sessions → x.secret = [])
          ∧ d.flt.arriving = (rec' (taken opLifecycle inst pkt s.dev)).flt.arriving ++ [{ src := .hub 3, cls := 4, cause := 0xFF, detail := 0, time := devNs s.dev }])
       ∧ (into = 3 → s.dev.mem.retires = [] → plotKeys s.dev 0 = [] → (∀ e ∈ validRegions s.dev, e.2.owner ≠ 0) → (∀ p, 1 ≤ p → p < 16 → plotExists s.dev p = false) →
          (∀ q < 16, (plotSt s.dev q).dying = false) → CmdGood s.dev opLifecycle inst pkt → Completes (.lifecycleAdvance inst pkt) s fun d =>
            d.trust.lifecycle = .rma ∧ d.trust.ownerInv = true ∧ (plotSt d 0).ownerKey = none ∧ d.mgmt.progress = []
            ∧ ∃ r, (inst, r) ∈ d.mgmt.replies ∧ r.status = 0))

/-- Records of the almanac: a register write makes or extends an open record of the same origin, principal, class, object and action for less
than 1 ms, with FLAGS.COALESCED and COUNT; any other record closes it; a closed record has the next SEQ, the device time, TB0, its plot, and
a CHAIN over the one before it (R510 to R516, R627).
Almanac commands: ALM_READ returns closed records from a sequence number on, with only what concerns another plot redacted; ALM_SEAL
records the reason, seals the almanac and raises C3; ALM_EXPORT acknowledges, writes a block of records with a signed checkpoint, and marks
what it has exported, or answers with the status of a failed write (R517, R520 to R523). -/
def Obligations.Almanac : Prop :=
  (∀ (s : State) (n : Fin 9), wardenRuns s.dev = true → s.dev.policy.table = none → MgmtQuiet s.dev → s.dev.dbg.vccaux = true → AlmTakes s.dev →
     (s.dev.policy.counts.get RuleCount.zero (4 * 65536 + n.val)).h ≤ devNs s.dev →
     let a := s.dev.alm
     let chained (prev : Nat) (r : AlmRec) : Prop := r.chain = leAt (Config.sha384 (leBytes 8 prev ++ r.bytes.take 44 ++ r.bytes.drop 52)) 0 8
     let kept (seq : Nat) (x : AlmRec) : Prop := seq < x.seq + 131072
     let t0 := s.dev.time.bases.getD 0 TimeBase.reset
     let fresh (r : AlmRec) : Prop :=
       r.seq = a.next ∧ r.time = devNs s.dev ∧ r.tb0ns = t0.val / 2 ^ 48 % 10 ^ 9 ∧ r.tb0sec = t0.val / (2 ^ 48 * 10 ^ 9) % 2 ^ 32 ∧ r.count = 1
       ∧ bitAt r.flags 1 = t0.isSet ∧ bitAt r.flags 2 = decide (130816 ≤ a.unacked) ∧ bitAt r.flags 0 = false ∧ bitAt r.flags 3 = false
     (a.opened = none → Completes (.clkmon n) s fun d => ∃ r, d.alm.recs.getLast? = some r ∧ d.alm.next = a.next + 1 ∧ d.alm.chain = r.chain
       ∧ fresh r ∧ chained a.chain r ∧ r.origin = 8 ∧ r.principal = 0 ∧ r.action = 0x8100 ∧ r.status = 0 ∧ r.flags < 8
       ∧ (r.objClass, r.objId) = (if n.val < 8 then (2, n.val) else (1, 0))
       ∧ ∀ x, x ∈ d.alm.recs ↔ x = r ∨ x ∈ a.recs ∧ kept r.seq x)
     ∧ (∀ q, a.opened = some q → Completes (.clkmon n) s fun d => ∃ q' r,
         q' = { q with chain := q'.chain } ∧ chained a.chain q' ∧ fresh r ∧ chained q'.chain r ∧ d.alm.opened = none ∧ d.alm.chain = r.chain
         ∧ d.alm.recs.getLast? = some r ∧ ∀ x, x ∈ d.alm.recs ↔ x = r ∨ (x = q' ∨ x ∈ a.recs ∧ kept q.seq x) ∧ kept r.seq x)
     ∧ (∀ (i : InitId) (ch : Fin 24), let id : ShellId := .phy ch
         ShellAccepts s.dev i id 0 1 → (shellAt s.dev id).ctl = 0 → (shellAt s.dev id).st = .idle →
           let b := csrBody i (shellOff id) 0 0 1 s.dev
           (a.opened = none → Completes (.shellCtlWrite i id 1) s fun d => ∃ r, d.alm.opened = some r ∧ d.alm.recs = a.recs ∧ d.alm.next = a.next + 1
             ∧ fresh r ∧ r.origin = b.origin ∧ r.principal = b.principal ∧ r.objClass = 0x13 ∧ r.objId = shellOff id / 256 ∧ r.action = 0x1000
             ∧ r.status = 0 ∧ r.before = 0 ∧ r.after = 1)
           ∧ (∀ q, a.opened = some q → q.origin = b.origin → q.principal = b.principal → q.objClass = 0x13 → q.objId = b.objId → q.action = 0x1000 →
               devNs s.dev < q.time + 1000000 → q.count < 0xFFFE → Completes (.shellCtlWrite i id 1) s fun d =>
                 d.alm = { a with opened := some { q with count := q.count + 1, after := 1, flags := q.flags ||| 1 } })))
  ∧ (∀ (s : State) (inst : Inst) (pkt : Packet),
       let pl := pkt.payload
       let plot := pkt.plot.toNat % 16
       (arrayAt s.dev 5 0 = Coded.filled → (∀ r ∈ s.dev.alm.recs, s.dev.alm.recs.find? (fun x => x.seq % 131072 = r.seq % 131072) = some r) →
         let rs := (s.dev.alm.recs.filter fun r => decide (leAt pl 0 6 ≤ r.seq)).take (leAt pl 8 2)
         let seen (r : AlmRec) : List Byte :=
           if plot = 0 ∨ r.principal % 16 = plot ∨ (bitAt r.flags 8 = true ∧ bitsAt r.flags 4 4 = plot) then r.bytes
           else r.bytes.take 6 ++ List.replicate 38 0 ++ (r.bytes.drop 44).take 8 ++ List.replicate 8 0 ++ leBytes 2 (leAt r.bytes 60 2 ||| 8) ++ [0, 0]
         Replies (.almRead inst pkt) s opAlmRead inst pkt stOk
           (fun _ => leBytes 8 (match rs with | r :: _ => r.seq | [] => s.dev.alm.next) ++ leBytes 2 rs.length ++ List.replicate 6 0 ++ rs.flatMap seen) id)
       ∧ Replies (.almSeal inst pkt) s opAlmSeal inst pkt stOk (fun _ => []) (fun a =>
           let a := cmdRec (ctxOf opAlmSeal inst pkt) 0x14 0 0 (leAt pl 0 2) a
           raise (.hub 4) 3 0xFF 0 { a with alm := { a.alm with sealed := true } })
       ∧ ∀ fail,
           let ack := leAt pl 12 8
           let acked (a : Device) : Device := if ack = 2 ^ 64 - 1 then a else { a with alm := { a.alm with acked := max a.alm.acked (ack + 1) } }
           let rest := s.dev.alm.recs.filter fun r => decide ((acked s.dev).alm.acked ≤ r.seq)
           let rs := rest.take (leAt pl 8 4)
           (rs = [] → Replies (.almExport inst pkt fail) s (opAlmExport fail) inst pkt stOk
             (fun _ => leBytes 8 (match rest with | r :: _ => r.seq | [] => s.dev.alm.next) ++ List.replicate 12 0) acked)
           ∧ (∀ r q, rs = r :: q → arrayAt s.dev 5 0 = Coded.filled →
               (∀ x ∈ s.dev.alm.recs, s.dev.alm.recs.find? (fun y => y.seq % 131072 = x.seq % 131072) = some x) →
               (r.seq = 0 ∨ ∃ x ∈ s.dev.alm.recs, x.seq + 1 = r.seq) →
               ∀ last, rs.getLast? = some last →
                   let before := if r.seq = 0 then 0 else ((s.dev.alm.recs.find? fun x => x.seq + 1 = r.seq).map (·.chain)).getD 0
                   let a := acked (taken (opAlmExport fail) inst pkt s.dev)
                   let blk := exportHead a 0 r.seq rs.length before ++ rs.flatMap AlmRec.bytes ++ exportTail a last.seq last.chain
                   let write := busWriteWith { NetIn.calm with fail := fail } loaderInit 0 (leAt pl 0 8) blk a
                   let failed (rc : Byte) : Prop := Replies (.almExport inst pkt fail) s (opAlmExport fail) inst pkt (if rc = rcTimeout then stTimeout else stBadParam)
                     (fun _ => []) fun _ => write.1
                   (∀ rc, fail = some rc → isErr rc = true → BusOpen s.dev loaderInit → failed rc)
                   ∧ ∀ d' rc, write = (d', rc) → FusesKept s.dev d' → MgmtQuiet d' →
                     (isErr rc = true → failed rc)
                     ∧ (isErr rc = false → Replies (.almExport inst pkt fail) s (opAlmExport fail) inst pkt stOk
                       (fun _ => leBytes 8 r.seq ++ leBytes 4 rs.length ++ leBytes 8 blk.length) fun _ =>
                         { d' with alm := { d'.alm with exported := some (max last.seq (d'.alm.exported.getD 0)) } })))

/-! ## Board and debug -/

/-- Power-on reset, power and device reset: POR_N returns everything but fuses, contents of LPDDR6, retained records and the freezes to its
reset value, clears POLICY_FLOOR and the anchors 1 to 15 of the retention SRAM, and samples CFG_MODE; C4 ignores it and SYS_RESET_N. A device
reset waits in the safe state until that is complete, keeps what R545 and R546 keep, and first copies the almanac state and its tail to the
retention SRAM. The island resets where no supply was left, with its SRAM filled (R519, R544 to R547, R575 to R577, R603, R604). -/
def Obligations.PowerAndResets : Prop :=
  ∀ s : State, s.dev.dbg.session = none →
    let x := s.dev
    let still (i : Instr) : Prop := Completes i s fun d => d = x
    let cleared (d : Device) : Device := { x with
      trl := .reset, own := .reset, gpio := .empty, msix := .reset, beds := .empty, rakes := [], coreIo := .empty, shells := .empty, cores := .empty
      mem := { Mem.reset with lines := x.mem.lines, lostSegs := x.mem.lostSegs, remnants := x.mem.remnants ++
        (((validRegions x).filter fun e => e.2.level ≠ 0 && e.2.size ≠ 0).flatMap fun e =>
          (e.2.base, e.2.size) :: if e.2.level = 2 then [(e.2.metaBase, e.2.metaSize)] else []) ++ if x.mem.rtReady then [(x.mem.rtBase, 2 * 2 ^ 20)] else [] }
      cxl := .reset, d2d := .reset, time := .reset, policy := .reset, alm := .reset, mgmt := .reset, ports := .reset, start := .reset, answer := none
      bist := { x.bist with soft := [], run := none }, flt := { Faults.reset with lastFault := x.flt.lastFault }
      trust := { Trust.reset with lifecycle := x.trust.lifecycle, ownerBlk := x.trust.ownerBlk, ownerInv := x.trust.ownerInv
                                  slot1 := x.trust.slot1, draws := x.trust.draws }
      cfg := { Cfg.reset with others := x.cfg.others, mode := x.cfg.mode }
      board := { x.board with smbus := none }
      dbg := { x.dbg with request := none, freezeCfg := .empty, mgmtCtl := if x.trust.lifecycle = .deployed then 0 else 4 }
      arrays := d.arrays }
    let sram (d : Device) (f : Nat → Option Byte) : Prop :=
      ((arrayAt x 6 0).dec = [] → ∀ j, (arrayAt d 6 0).read j = match f j with | some b => ⟨b, 0, .clean⟩ | none => (arrayAt x 6 0).read j)
      ∧ ∀ k, k ≠ arrayKey 6 0 → d.arrays.get Coded.filled k = x.arrays.get Coded.filled k
    let dark (b : Device) : Device := { b with dbg := { b.dbg with vccaux := false, vstby := false, vprobe := false } }
    (∀ mode xs, xs.length = 32 → (x.flt.fsafe = .c4 → still (.porN mode xs))
      ∧ (x.flt.fsafe ≠ .c4 → Completes (.porN mode xs) s fun d =>
          d = { cleared d with cfg := { (cleared d).cfg with mode }, ports := { Ports.reset with xref := d.ports.xref }
                               dbg := { (cleared d).dbg with vccaux := true } }
          ∧ (∀ n < 32, d.ports.xref.get 0 n = (xs.getD n 0).val)
          ∧ sram d fun j => (runAt 0x98 [0, 0, 0, 0] j).or (runAt 0x130 (List.replicate 720 0) j)))
    ∧ (∀ stby probe,
        Completes (.vccauxRemoval stby probe) s (fun d =>
          d = { cleared d with dbg := { (cleared d).dbg with vccaux := false, vstby := stby, vprobe := probe } } ∧ d.arrays = x.arrays)
        ∧ ∀ aux, (x.dbg.vccaux = false → x.dbg.vstby = false → x.dbg.vprobe = false → (aux || stby || probe) = true →
            Completes (.islandReset aux stby probe) s fun d =>
              d = { x with dbg := { Dbg.reset with vccaux := false, vstby := stby, vprobe := probe, freezeCfg := x.dbg.freezeCfg, mgmtCtl := x.dbg.mgmtCtl }
                           flt := { x.flt with lastFault := none }, arrays := d.arrays }
              ∧ ((arrayAt x 6 0).dec = [] → ∀ j, (arrayAt d 6 0).read j = ⟨0, 0, .clean⟩) ∧ ∀ k, k ≠ arrayKey 6 0 → d.arrays.get Coded.filled k = x.arrays.get Coded.filled k)
          ∧ ((x.dbg.vccaux || x.dbg.vstby || x.dbg.vprobe || !(aux || stby || probe)) = true → still (.islandReset aux stby probe)))
    ∧ (x.dbg.vccaux = true → Completes .islandSupplyLoss s fun d => d = dark (cleared d) ∧ d.arrays = x.arrays)
    ∧ (x.dbg.vccaux = false → Completes .islandSupplyLoss s fun d => d = dark { x with dbg := { x.dbg with request := none } })
    ∧ Completes .sysResetNRelease s (fun d => d = { x with start := { x.start with sysLow := false } })
    ∧ (let complete : Prop := (∀ l ∈ x.flt.dieSafe, levelNo x.flt.fsafe ≤ levelNo l)
        ∧ (∀ n < 384, (bedAt x n).st = .fallow ∨ (bedAt x n).st = .unconfigured) ∧ (∀ c < 128, (coreAt x c).st = .idle ∨ (coreAt x c).st = .fault)
      let calm : Prop := (∀ y ∈ x.mgmt.sessions, y = none) ∧ x.alm.opened = none ∧ (arrayAt x 6 0).dec = [] ∧ cleanRun x 6 0 0 64
      let next (d : Device) (xref : Sparse Nat) (low : Bool) : Prop :=
        let u := x.alm.recs.filter fun r => decide (x.alm.acked ≤ r.seq)
        let t := u.drop (u.length - 256)
        let h := (List.range 64).map fun k => ((arrayAt x 6 0).read k).data
        let v := if h.take 4 = [0x4B, 0x56, 0x52, 0x54] then leAt h 4 2 else 0
        d = { cleared d with
          time := { Time.reset with ticks := x.time.ticks, began := devNs x, freqClass := x.time.freqClass, failed := x.time.failed, ppsIn := x.time.ppsIn }
          flt := { Faults.reset with pulse := x.flt.pulse, lastFault := x.flt.lastFault }
          policy := { Policy.reset with floor := x.policy.floor }
          alm := { Almanac.reset with lost := x.alm.lost, sealed := x.alm.exhausted, exhausted := x.alm.exhausted }
          mgmt := { Mgmt.reset with tmo := x.mgmt.tmo, fpPoll := x.mgmt.fpPoll, authFail := x.mgmt.authFail, replay := x.mgmt.replay, near := x.mgmt.near }
          shells := d.shells, cores := d.cores, ports := { Ports.reset with xref }
          trust := { (cleared d).trust with trimLockAll := x.trust.trimLockAll }
          cfg := { (cleared d).cfg with ctl := x.cfg.ctl }
          board := x.board, dbg := { x.dbg with request := none }
          start := { Startup.reset with por := false, acks := x.start.acks, rails := x.start.rails, moved := x.start.moved, sysLow := low
                                        lost := if u.length ≤ 256 then none else some ((u.head?.map (·.seq)).getD 0, u.length - 256) } }
        ∧ (∀ id, shellAt d id = { Shell.reset with trim := (shellAt x id).trim, trimLock := (shellAt x id).trimLock })
        ∧ (∀ c, (coreAt d c).st = .idle ∧ (coreAt d c).en = false ∧ (coreAt d c).dstat = (coreAt x c).dstat ∧ (coreAt d c).dbg.haltReq = false)
        ∧ sram d fun j =>
          (runAt 0 ([0x4B, 0x56, 0x52, 0x54] ++ leBytes 2 (v ||| 6) ++ leBytes 1 (lifecycleNo x.trust.lifecycle) ++ List.replicate 9 0
            ++ leBytes 16 Config.deviceId ++ List.replicate 32 0) j).or
          ((runAt 0x80 (leBytes 8 x.alm.next ++ leBytes 8 x.alm.chain ++ leBytes 8 x.alm.epoch ++ leBytes 4 x.policy.floor.toNat
            ++ leBytes 8 ((t.head?.map (·.seq)).getD x.alm.next) ++ leBytes 2 t.length ++ List.replicate 26 0) j).or
          (runAt 0x4000 (t.flatMap AlmRec.bytes) j))
      x.shells.wf Shell.reset = true → x.cores.wf Core.reset = true →
      (∀ xs, xs.length = 32 →
        (x.flt.fsafe = .c4 ∨ x.dbg.vccaux = false → still (.sysResetN xs))
        ∧ (x.dbg.vccaux = true → x.flt.fsafe = .c3 → ¬ complete → Completes (.sysResetN xs) s fun d =>
            d = { x with start := { x.start with sysLow := true, due := true }, ports := { x.ports with xref := d.ports.xref } }
            ∧ ∀ n < 32, d.ports.xref.get 0 n = (xs.getD n 0).val)
        ∧ (x.dbg.vccaux = true → (x.flt.fsafe = .none ∨ x.flt.fsafe = .c3 ∧ complete) → calm → Completes (.sysResetN xs) s fun d =>
            next d d.ports.xref true ∧ ∀ n < 32, d.ports.xref.get 0 n = (xs.getD n 0).val))
      ∧ (∀ t, x.flt.fatalAt = some t → x.mgmt.dev = .fatal → x.flt.fsafe = .c3 → x.flt.autoReset ≠ 0 →
          t + x.flt.autoReset.toNat * 10 ^ 9 ≤ devNs x →
          (complete → calm → Completes .autoReset s fun d => next d x.ports.xref x.start.sysLow)
          ∧ (¬ complete → Completes .autoReset s fun d => d = { x with start := { x.start with due := true } }))
      ∧ ((∀ t, x.flt.fatalAt = some t → x.flt.autoReset = 0 ∨ devNs x < t + x.flt.autoReset.toNat * 10 ^ 9) → still .autoReset))

/-- Start-up: a failing checker of a block memory or a core makes that bed or core unusable and one of a hub array stops start-up; the fill
leaves zeros in classes 0 to 5 and begins an epoch after POR_N; links train before the management cores are released; a successful PUF brings
the keys and a failed one a C3 fault; AVSBus acknowledges the fused setpoints, moves them by 10 mV in 10 ms and stops start-up on a timeout;
LPDDR6 training sets window 0 and the device's own regions, and leads to READY (R79, R150 to R152, R273, R305, R306, R352, R437, R456, R480,
R481, R601). -/
def Obligations.StartUp : Prop :=
  ∀ s : State,
    let x := s.dev
    let runs : Prop := x.dbg.vccaux = true ∧ x.start.sysLow = false ∧ x.start.stopped = false
    let still (i : Instr) : Prop := Completes i s fun d => d = x
    let stops (d : Device) (src : Source) (unit : Nat) : Prop :=
      let rep : Report := { src, cls := 3, cause := 0x18, detail := BitVec.ofNat 64 unit, time := devNs x }
      let r : FltRec := { rep, plotValid := false, plot := 0, merged := 0, safe := false, overflowed := false, almSeq := x.alm.next }
      d.start.stopped = true ∧ d.mgmt = x.mgmt ∧ d.flt.low = true ∧ d.flt.held = true ∧ d.flt.pulse = some (devNs x) ∧ d.flt.lastFault = some r
      ∧ ((arrayAt x 6 0).dec = [] → ∀ j < 32, ((arrayAt d 6 0).read (0x40 + j)).data = r.bytes.getD j 0) ∧ d.beds = x.beds ∧ d.cores = x.cores ∧ d.shells = x.shells ∧ d.mem = x.mem
    (runs → x.start.checker = false → x.mgmt.up = false → x.start.fill = false →
      Completes (.checkerSelfTestComplete []) s (fun d => d = { x with start := { x.start with checker := true } })
      ∧ (∀ idx : Fin 18432, Completes (.checkerSelfTestComplete [⟨0, idx⟩]) s fun d =>
          (bedAt d (idx.val / 48)).unusable = true ∧ (bedAt d (idx.val / 48)).bmBad.get false (idx.val % 48) = true
          ∧ (∀ n, n ≠ idx.val / 48 → bedAt d n = bedAt x n)
          ∧ d = { x with beds := d.beds, start := { x.start with checker := true } })
      ∧ (∀ (cls : Fin 7) (idx : Fin 18432), cls.val = 1 ∨ cls.val = 2 → idx.val < 128 → Completes (.checkerSelfTestComplete [⟨cls, idx⟩]) s fun d =>
          coreIoAt d idx.val = { coreIoAt x idx.val with unusable := true } ∧ (∀ n, n ≠ idx.val → coreIoAt d n = coreIoAt x n)
          ∧ d = { x with coreIo := d.coreIo, start := { x.start with checker := true } })
      ∧ ∀ (cls : Fin 7) (idx : Fin 18432), 3 ≤ cls.val → wfChecker ⟨cls, idx⟩ = true → Completes (.checkerSelfTestComplete [⟨cls, idx⟩]) s fun d =>
          stops d (.hub (Fin.ofNat 16 (cls.val + 9))) (cls.val + 9))
    ∧ (∀ bad screen ok found chans die, bad.all wfChecker = true → screen.all wfFinding = true → wfLinkTrains found = true → chans.length = 24 → ¬ runs →
        still (.checkerSelfTestComplete bad) ∧ still (.pufReconstructionComplete ok) ∧ still (.linkTrainingComplete found)
        ∧ still (.startUpTrainingComplete chans) ∧ still (.avsbusSetpointAck die) ∧ still (.avsbusAckTimeout die)
        ∧ Completes (.sramFillComplete screen) s fun d => d = fuseHold x (settle x))
    ∧ (∀ screen, screen.all wfFinding = true → runs → x.start.checker = true → x.start.fill = false → MgmtQuiet x →
        (arrayAt x 6 0).dec = [] → cleanRun x 6 0 0 64 → (∀ k, k < 4 → ((arrayAt x 6 0).read k).data = 0) → fusesOn x = [] → screen = [] →
        x.start.found = none → x.start.links = false → x.start.por = true → x.alm = .reset →
        (∀ c i, c < 5 → i < 65536 → (arrayAt x c i).dec = []) → Completes (.sramFillComplete screen) s fun d =>
          (∀ c i j, c < 5 → i < 65536 → (arrayAt d c i).read j = ⟨0, 0, .clean⟩)
          ∧ (∀ k, k / 65536 = 6 → d.arrays.get Coded.filled k = x.arrays.get Coded.filled k)
          ∧ d.start = { x.start with fill := true } ∧ d.bist.soft = [] ∧ d.alm.epoch = leAt (sliceBytes (Config.random x.trust.draws 8) 0 8) 0 8
          ∧ (∃ r, d.alm.recs = [r] ∧ r.seq = 0 ∧ r.origin = 0 ∧ r.objClass = 0x14 ∧ r.action = 0x8000 ∧ r.before = 0 ∧ r.after = d.alm.epoch)
          ∧ (∀ c, c < 24 → (shellAt x (.phy (Fin.ofNat 24 c))).st = .idle → (shellAt d (.phy (Fin.ofNat 24 c))).st = .starting)
          ∧ d.beds = x.beds ∧ d.cores = x.cores ∧ d.mem = x.mem ∧ d.mgmt = x.mgmt ∧ d.trl = x.trl)
    ∧ (∀ found, wfLinkTrains found = true → runs → x.start.links = false → x.start.found = none → x.start.fill = false →
        Completes (.linkTrainingComplete found) s fun d => d = { x with start := { x.start with found := some found } })
    ∧ (∀ found, wfLinkTrains found = true → runs → x.start.links = false → x.start.found = none → x.start.fill = true → x.start.checker = true →
        x.mgmt.up = false → x.mem.trained = false → x.flt.fsafe ≠ .c4 → Completes (.linkTrainingComplete found) s fun d =>
          d.start.links = true ∧ d.start.found = none ∧ d.mgmt.up = (!d.start.stopped && decide (x.start.acks = 0xFF))
          ∧ (d.start.stopped = true ↔ ∃ k < 8, (hubPath d k).isNone = true) ∧ d.beds = x.beds ∧ d.cores = x.cores ∧ d.mem = x.mem)
    ∧ (runs → x.start.fill = true → x.start.puf = false →
        (x.trust.lifecycle ≠ .decommissioned → Completes (.pufReconstructionComplete true) s fun d =>
            d.trust.dk = true ∧ d.trust.kw = true ∧ d.trust.bootKeys = true ∧ d.trust.pufFail = false ∧ d.trust.nonce = some x.trust.draws
            ∧ d.start = { x.start with puf := true } ∧ (keySlot d 255).st = .installed ∧ (∀ k, k ≠ 255 → keySlot d k = keySlot x k)
            ∧ d.beds = x.beds ∧ d.cores = x.cores ∧ d.mgmt = x.mgmt ∧ d.trust.lifecycle = x.trust.lifecycle)
        ∧ Completes (.pufReconstructionComplete false) s fun d => d = { x with
            start := { x.start with puf := true }, trust := { x.trust with dk := false, pufFail := true, bootKeys := false, kw := false }
            flt := { x.flt with arriving := x.flt.arriving ++ [{ src := .hub 3, cls := 3, cause := 0x18, detail := 3, time := devNs x }] } })
    ∧ (∀ die : DieId,
        (runs → x.mgmt.up = true ∨ x.start.links = false → x.start.acks.getLsbD die.val = false → x.start.rails.length = 8 → x.start.moved.length = 8 →
          Completes (.avsbusSetpointAck die) s fun d =>
            d = { x with start := { x.start with
              acks := x.start.acks ||| BitVec.ofNat 8 (2 ^ die.val), rails := x.start.rails.set die.val (700 + (Config.setpoint die.val).val)
              moved := x.start.moved.set die.val (devNs x) } })
        ∧ (runs → x.start.checker = true → x.start.fill = true → x.start.links = true → x.flt.fsafe ≠ .c4 → x.mgmt.up = false → x.mem.trained = false →
            x.start.acks ||| BitVec.ofNat 8 (2 ^ die.val) = 0xFF → Completes (.avsbusSetpointAck die) s fun d =>
              d.mgmt = { x.mgmt with up := true }
              ∧ d.trust = { x.trust with trimLockAll := x.trust.trimLockAll || decide (x.trust.lifecycle = .deployed) } ∧ d.start.acks = 0xFF
              ∧ d = { x with mgmt := d.mgmt, trust := d.trust, start := d.start })
        ∧ (runs → x.mgmt.up = false → x.start.acks.getLsbD die.val = false → Completes (.avsbusAckTimeout die) s fun d =>
            stops d (.die die) die.val)
        ∧ ((x.mgmt.up = true ∨ x.start.acks.getLsbD die.val = true) → still (.avsbusAckTimeout die))
        ∧ ∀ mv, let old := x.start.rails.getD die.val 750
          (x.mgmt.up = true → 700 ≤ mv → mv ≤ 800 → mv ≤ old + 10 → old ≤ mv + 10 → x.start.moved.getD die.val 0 + 10000000 ≤ devNs x →
            x.bist.run = none → x.start.rails.length = 8 → x.start.moved.length = 8 → Completes (.avsSetpointAdjust die mv) s fun d =>
              d = { x with start := { x.start with rails := x.start.rails.set die.val mv, moved := x.start.moved.set die.val (devNs x) } })
          ∧ (mv < 700 ∨ 800 < mv ∨ old + 10 < mv ∨ mv + 10 < old ∨ devNs x < x.start.moved.getD die.val 0 + 10000000 →
              still (.avsSetpointAdjust die mv)))
    ∧ (∀ chans, chans.length = 24 → runs → x.start.fill = true → x.mem.trained = false → x.mgmt.up = true → x.mgmt.dev = .start → x.cfg.mode ≠ 4 →
        (∀ c < 24, (chAt x c).present = 0 ∧ (chAt x c).wr = []) → x.mem.chans.wf Chan.reset = true → x.mem.lines = .empty → (∀ w ∈ x.trl.waiting, w.why ≠ .map) →
        (∀ y ∈ chans, y ≠ .failed) → Completes (.startUpTrainingComplete chans) s fun d =>
          let fitted := (List.range 24).filter fun c => chans.getD c .absent ≠ .absent
          let least := (fitted.map fun c => (chAt d c).bytes).foldl Nat.min (chAt d (fitted.headD 0)).bytes
          let top := fitted.length * least - 2 * 2 ^ 20
          (∀ c < 24, ∀ two rate density eye, chans.getD c .absent = .fitted two rate density eye →
            chAt d c = { chAt x c with present := if two then 2 else 1, rate := BitVec.ofNat 3 rate.val, density := BitVec.ofNat 2 density.val, eye
                                       wr := (chAt d c).wr, held := (chAt d c).held, draining := (chAt d c).draining })
          ∧ (∀ c < 24, chans.getD c .absent = .absent → chAt d c = chAt x c)
          ∧ d.mem.trained = true ∧ d.mgmt = { x.mgmt with dev := .ready } ∧ d.cfg = { x.cfg with ready := some (devNs x) }
          ∧ (fitted = [] → d.mem.windows.head? = some Window.off ∧ d.mem.rtReady = x.mem.rtReady ∧ d.mem.regions = x.mem.regions)
          ∧ (fitted ≠ [] → d.mem.windows = { base := 0, size := fitted.length * least, chBase := 0, mask := (fitted.map (2 ^ ·)).sum
                                             grain := 4, hash := true, valid := true } :: List.replicate 7 Window.off
                ∧ d.mem.rtReady = true ∧ d.mem.rtBase = top ∧ d.cxl.memActive = 0xFFFF)
          ∧ (fitted.length = 1 → d.mem.regions = x.mem.regions)
          ∧ (2 ≤ fitted.length →
              regionAt d 1016 = { Region.reset with
                st := .active, level := 2, keyId := 255, keyGen := (keySlot x 255).gen, base := top - 384 * 2 ^ 20, size := 384 * 2 ^ 20
                metaBase := top - 448 * 2 ^ 20, metaSize := 57524224 }
              ∧ (regionAt d 1017).st = .active ∧ (regionAt d 1017).level = 2 ∧ (regionAt d 1017).keyId = 255 ∧ (regionAt d 1017).size = 64 * 2 ^ 20
              ∧ (∃ g, d.mem.roots.get none 1016 = some g ∧ g.gen = (keySlot x 255).gen) ∧ (∃ g, d.mem.roots.get none 1024 = some g ∧ g.gen = (keySlot x 255).gen)
              ∧ ∀ k < 1024, k ≠ 1016 → k ≠ 1017 → regionAt d k = regionAt x k))

/-- The debug port: IDCODE, SAMPLE/PRELOAD, EXTEST and BYPASS; Test-Logic-Reset ends the exchange and the debug session, with which halts,
monitor requests and breakpoints go; CMD_IO carries commands and replies word by word and captures 0 without VCCAUX; DBG_AUTH takes a
certificate, checks it, offers a challenge, opens a session on a good signature, and locks for 1 s on the fourth failure in a row; RET_READ
shifts out words of the retention SRAM and changes nothing there. Without a supply the island does nothing (R434, R575, R576, R579 to R585,
R589, R597). -/
def Obligations.DebugPort : Prop :=
  ∀ s : State, MgmtQuiet s.dev → s.dev.trl.stuck = false →
    let x := s.dev.dbg
    let on : Prop := x.vccaux = true ∨ x.vstby = true ∨ x.vprobe = true
    let still (i : Instr) : Prop := Completes i s fun d => d = s.dev
    let put (y : Dbg) (d : Device) : Prop := d = { s.dev with dbg := y }
    let bypass (d : Device) : Prop := put { x with ir := 0xFF, dr := 0 } d
    (¬ on → still .idcode ∧ still .bypass ∧ still .testLogicReset ∧ still .debugCertVerified ∧ still .debugAuthLockoutEnd
      ∧ ∀ cells w net op eight addr data next, still (.samplePreload cells) ∧ still (.extest cells) ∧ still (.cmdIo w net) ∧ still (.dbgAuth w)
        ∧ still (.dbgAccess op eight addr data) ∧ still (.retRead next))
    ∧ (on →
      Completes .idcode s (put { x with ir := 0x01, dr := 0x208A11C3 }) ∧ Completes .bypass s bypass
      ∧ (∀ cells, Completes (.samplePreload cells) s (fun d => ∃ pins, d = { s.dev with
          dbg := { x with ir := 0x02, boundary := cells, dr := pins }, free := d.free })
        ∧ (((s.dev.mgmt.dev = .start ∨ s.dev.mgmt.dev = .ready) ∧ s.dev.flt.fsafe ≠ .c4) → Completes (.extest cells) s fun d => ∃ pins,
            d = { s.dev with dbg := { x with ir := 0x03, boundary := cells, dr := pins }, free := d.free })
        ∧ (¬((s.dev.mgmt.dev = .start ∨ s.dev.mgmt.dev = .ready) ∧ s.dev.flt.fsafe ≠ .c4) → Completes (.extest cells) s bypass))
      ∧ (let idle : Dbg := { x with ir := 0x01, stage := .idle, words := [], offers := [], ioStage := .idle, ioOut := [], dr := 0 }
         (x.session = none → Completes .testLogicReset s (put idle))
         ∧ (∀ y, x.session = some y → s.dev.cores.wf Core.reset = true → (∀ n, (bedAt s.dev n).clock.pauseDue = false) →
              Completes .testLogicReset s fun d =>
                d.dbg = { idle with session := none, request := none, mgmtCtl := x.mgmtCtl &&& 4 } ∧ d.beds = s.dev.beds ∧ d.mem = s.dev.mem
                ∧ (∀ c, let k := (coreAt s.dev c).dbg
                    (coreAt d c).dbg.haltReq = false ∧ (coreAt d c).dbg.halted = false ∧ (coreAt d c).dbg.monReq = false
                    ∧ (coreAt d c).dbg.bp0En = false ∧ (coreAt d c).dbg.bp1En = false ∧ (coreAt d c).pc = (coreAt s.dev c).pc
                    ∧ (k.monReq = true → (coreAt d c).dstat.getLsbD 1 = false))
                ∧ (AlmTakes s.dev → x.vccaux = true → s.dev.mgmt.up = true → ∃ r, d.alm.recs.getLast? = some r ∧ r.origin = 5
                    ∧ r.objClass = 0x16 ∧ r.objId = y.plot.val ∧ r.action = 0x0302)))
      ∧ (∀ (w : Word32) net,
          let y : Dbg := if x.ir = 0x10 then x else { x with ir := 0x10, ioStage := .idle, ioOut := [] }
          let live : Prop := x.vccaux = true ∧ s.dev.mgmt.up = true
          let shown : Nat := ((y.ioOut.head?).map (·.toNat)).getD 0
          let n := w.toNat / 256
          let moved (out : List Word32) (k : Nat) (m : Mgmt) (d : Device) : Prop :=
            d = { s.dev with mgmt := m, dbg := { y with dr := shown, ioOut := out, ioStage := if k = 0 then .idle else .skip k } }
          let io (P : Device → Prop) : Prop := Completes (.cmdIo w net) s P
          (¬ live → io (put { y with dr := 0, ioOut := y.ioOut.drop 1 }))
          ∧ (live → y.ioStage = .idle →
              (w.toNat % 16 ≠ 1 → w.toNat % 16 ≠ 2 → w.toNat % 16 ≠ 4 → io (moved [] n s.dev.mgmt))
              ∧ (w.toNat % 16 = 4 →
                  let word := bit (s.dev.mgmt.replies.any (·.1 = .jtag)) 0 + bit (s.dev.cfg.ses.any fun e => e.any fun e => e.path = 2 && e.inst = .jtag) 2
                  io (moved [BitVec.ofNat 32 word] 1 s.dev.mgmt))
              ∧ (w.toNat % 16 = 1 → n = 0 → io (moved [] 0 s.dev.mgmt))
              ∧ (w.toNat % 16 = 1 → n ≠ 0 → io (fun d => d = { s.dev with
                  mgmt := { s.dev.mgmt with replies := s.dev.mgmt.replies.filter (·.1 ≠ .jtag), partials := s.dev.mgmt.partials.filter (·.inst ≠ .jtag) }
                  dbg := { y with dr := shown, ioOut := [], ioStage := .command n } }))
              ∧ (w.toNat % 16 = 2 → (∀ r ∈ s.dev.mgmt.replies, r.1 ≠ .jtag) → io (moved [] n s.dev.mgmt))
              ∧ (∀ r, w.toNat % 16 = 2 → s.dev.mgmt.replies.find? (·.1 = .jtag) = some (.jtag, r) → io fun d =>
                  let size := (r.bytes.length + 3) / 4 * 4
                  d.dbg.ioOut.length = n ∧ (∀ k < 4 * n, bitsAt (d.dbg.ioOut.getD (k / 4) 0).toNat (k % 4 * 8) 8 = (r.bytes.getD k 0).toNat)
                  ∧ moved d.dbg.ioOut n { s.dev.mgmt with
                      replies := if size ≤ 4 * n then s.dev.mgmt.replies.filter (·.1 ≠ .jtag) else s.dev.mgmt.replies } d))
          ∧ (∀ k, live → y.ioStage = .skip k → io (put { y with dr := shown, ioOut := y.ioOut.drop 1, ioStage := if k ≤ 1 then .idle else .skip (k - 1) }))
          ∧ (∀ k, live → y.ioStage = .command k →
              let a := (s.dev.mgmt.partials.find? (·.inst = .jtag)).getD { inst := .jtag, bytes := [], start := devNs s.dev }
              let b := a.bytes ++ leBytes 4 w.toNat
              let dropped (d : Device) : Device := { d with
                mgmt := { d.mgmt with partials := d.mgmt.partials.filter (·.inst ≠ .jtag) }
                dbg := { y with dr := shown, ioOut := y.ioOut.drop 1, ioStage := if k ≤ 1 then .idle else .command (k - 1) } }
              (1 < k ∨ b.length < 32 → io fun d => d = (let t := dropped s.dev
                { t with mgmt := { t.mgmt with partials := t.mgmt.partials ++ [{ a with bytes := b }] } }))
              ∧ (k ≤ 1 → 32 ≤ b.length → cmdHalted s.dev = false → devNs s.dev < a.start + max 1 s.dev.mgmt.tmo.toNat * 1000000 →
                  (∀ r ∈ s.dev.mgmt.replies, r.1 ≠ .jtag) →
                  (specOf net (leAt b 0 2) = none → io fun d =>
                    let t := dropped s.dev
                    d = holdReply .jtag (mkReply false { inst := .jtag, op := leAt b 0 2, pkt := packetOf b } stBadOpcode
                      ((packetOf b).flags.toNat % 2) [] t) t)
                  ∧ (leAt b 0 2 = 0x0101 → badHeader opIdentify (packetOf b) = false → (packetOf b).flags.getLsbD 0 = false → io fun d =>
                      d = answerCmd false (ctxOf opIdentify .jtag (packetOf b)) stOk 0 (identifyBytes s.dev) (dropped s.dev)))))
      ∧ (let fails (y : Dbg) (st : Nat) (d : Device) : Prop :=
           let n := min (y.fails + 1) 15
           d = { s.dev with
             dbg := { y with stage := .idle, words := [], fails := n, offers := [BitVec.ofNat 32 st]
                             lockout := if 4 ≤ n then some (devNs s.dev + 10 ^ 9) else y.lockout }
             flt := { s.dev.flt with arriving := if x.vccaux then
               s.dev.flt.arriving ++ [{ src := .hub 7, cls := 0, cause := 0x1A, detail := 5, time := devNs s.dev }] else s.dev.flt.arriving } }
         let locked : Bool := x.lockout.any fun t => decide (devNs s.dev < t)
         let cert := x.words.flatMap fun w => leBytes 4 w.toNat
         let body := cert.take 2848
         (∀ w : Word32,
            let y : Dbg := { x with ir := 0x20, dr := 0 }
            let auth (P : Device → Prop) : Prop := Completes (.dbgAuth w) s P
            (s.dev.trust.lifecycle = .decommissioned → auth bypass)
            ∧ (s.dev.trust.lifecycle ≠ .decommissioned →
                (∀ o rest, x.offers = o :: rest → auth (put { y with
                  dr := o.toNat, offers := rest, stage := if rest = [] ∧ x.stage = .challenge then .response else x.stage }))
                ∧ (x.offers = [] → locked = true → auth (put { y with offers := [BitVec.ofNat 32 stBadParam] }))
                ∧ (x.offers = [] → locked = false →
                    (x.stage = .idle → w ≠ 7584 → auth (fails y stBadParam))
                    ∧ (x.stage = .idle → w = 7584 → x.session = none → auth (put { y with stage := .certificate, words := [] }))
                    ∧ (x.stage = .certificate → auth (put { y with
                        words := x.words ++ [w], stage := if x.words.length = 1895 then .verifying else .certificate }))
                    ∧ (x.stage = .verifying ∨ x.stage = .challenge → auth (put y))
                    ∧ (x.stage = .response → x.words.length ≠ 1919 → auth (put { y with words := x.words ++ [w] }))
                    ∧ (x.stage = .response → x.words.length = 1919 →
                        let sig := ((x.words ++ [w]).drop 1896).flatMap fun w => leBytes 4 w.toNat
                        let signed := Config.sha384 (asciiBytes "kv debug" ++ x.challenge ++ leBytes 16 Config.deviceId ++ Config.sha384 body)
                        let p := leAt body 6 1
                        (Config.ecdsaOk (sliceBytes body 2737 97) signed sig = false → auth (fails y stAuthFail))
                        ∧ (Config.ecdsaOk (sliceBytes body 2737 97) signed sig = true → plotExists s.dev p = false → auth (fails y stNotAuth))
                        ∧ (Config.ecdsaOk (sliceBytes body 2737 97) signed sig = true → plotExists s.dev p = true → p < 16 → auth fun d =>
                            let lc := s.dev.trust.lifecycle
                            let early : Bool := lc = .blank || lc = .provisioned || lc = .rma
                            let held (k : Nat) : Bool := match k with
                              | 0 | 2 => early || !(if p = 0 then lc = .deployed else (plotSt s.dev p).sealed) | 1 => true | 3 => p = 0 | _ => p = 0 && early
                            ∃ r, d.dbg = { y with words := [], stage := .idle, fails := 0, offers := [BitVec.ofNat 32 stOk]
                                                  session := some { plot := Fin.ofNat 16 p, rights := r } }
                              ∧ (∀ k < 5, r.getLsbD k = (bitAt (leAt body 7 1) k && held k && (k = 3 || s.dev.flt.fsafe ≠ .c4)))
                              ∧ d.beds = s.dev.beds ∧ d.cores = s.dev.cores ∧ d.mem = s.dev.mem ∧ d.mgmt = s.dev.mgmt
                              ∧ (AlmTakes s.dev → x.vccaux = true → s.dev.mgmt.up = true → ∃ e, d.alm.recs.getLast? = some e ∧ e.origin = 5
                                  ∧ e.objClass = 0x16 ∧ e.objId = p ∧ e.action = 0x0301 ∧ e.after = leAt (Config.sha384 body) 0 8))))))
         ∧ (x.stage ≠ .verifying → still .debugCertVerified)
         ∧ (x.stage = .verifying →
             let ver (P : Device → Prop) : Prop := Completes .debugCertVerified s P
             let form : Bool := body.take 4 = [0x4B, 0x56, 0x44, 0x43] && leAt body 4 2 = 1 && decide (leAt body 6 1 < 16) && decide (leAt body 7 1 < 32)
               && zeroAt body 2834 14
             let p := leAt body 6 1
             let mine : Bool := (Config.deviceId % 2 ^ 128 ^^^ leAt body 8 16) &&& leAt body 24 16 = 0
             let sram := arrayAt s.dev 6 0
             let head := (List.range 64).map fun k => (sram.read k).data
             let anchor := (List.range 48).map fun k => (sram.read (0x100 + 48 * p + k)).data
             let digest := Config.sha384 body
             let signed : Bool := Config.ecdsaOk (sliceBytes body 48 97) digest (sliceBytes cert 2848 96)
               && Config.mldsaOk (sliceBytes body 145 2592) digest (sliceBytes cert 2944 4627)
             let trusted : Bool := head.take 4 = [0x4B, 0x56, 0x52, 0x54] && bitAt (leAt head 4 2) 5 && anchor = Config.sha384 (sliceBytes body 48 2689) && signed
             (form = false → ver (fails x stBadParam))
             ∧ (form = true → plotExists s.dev p = false → ver (fails x stNotAuth))
             ∧ (form = true → plotExists s.dev p = true → mine = false → ver (fails x stWrongDevice))
             ∧ (form = true → plotExists s.dev p = true → mine = true → sram.dec = [] → cleanRun s.dev 6 0 0 64 → cleanRun s.dev 6 0 (0x100 + 48 * p) 48 →
                 (trusted = false → ver (fails x stAuthFail))
                 ∧ (trusted = true → zeroAt cert 7571 13 = false → ver (fails x stBadParam))
                 ∧ (trusted = true → zeroAt cert 7571 13 = true → ver fun d => ∃ c : List Byte, c.length = 48 ∧
                     d = { s.dev with free := d.free, dbg := { x with stage := .challenge, challenge := c, offers := d.dbg.offers } }
                     ∧ d.dbg.offers.flatMap (fun w => leBytes 4 w.toNat) = c)))
         ∧ (locked = true → still .debugAuthLockoutEnd)
         ∧ (locked = false → Completes .debugAuthLockoutEnd s (put { x with lockout := none })))
      ∧ ∀ next, let keeps : Bool := x.session.any fun e => e.rights.getLsbD 3
          (keeps = false → Completes (.retRead next) s bypass)
          ∧ (keeps = true → Completes (.retRead next) s fun d =>
              let at' (k : Nat) : ByteRead := (arrayAt s.dev 6 0).read (x.retIdx.toNat * 8 + k)
              let cls (p : SynClass → Bool) : Bool := (List.range 8).any fun k => p (synClass (at' k).syn)
              put { x with
                ir := 0x22, retIdx := match next with | some i => i | none => x.retIdx + 1
                dr := ofLe ((List.range 8).map fun k => (at' k).data) + 2 ^ 64 * (if cls SynClass.bad then 2 else if cls SynClass.corrected then 1 else 0) } d))

/-- Debug controls: a halt request, RESUME, STEP, EXEC, MON_REQ and the breakpoints change the core that the session may reach, each with its
right; a halt is taken at a boundary once writes have landed; a LOCK window that outlasts its deadline loses its reservation; MGMT_CTL
needs MGMT; FREEZE_CFG pauses the plot's beds; a DBG_ACCESS that the island admits is issued as initiator 0x803 with the mark DBG, and one
that it does not gives RCODE 0xFD and a note (R242, R586 to R588, R590 to R595). -/
def Obligations.DebugControls : Prop :=
  ∀ (s : State) (y : DbgSession), MgmtQuiet s.dev → s.dev.dbg.session = some y → s.dev.dbg.vccaux = true →
    (∀ n, (bedAt s.dev n).clock.pauseDue = false ∧ bedFrozen s.dev n = false) →
    let x := s.dev.dbg
    let still (i : Instr) : Prop := Completes i s fun d => d = s.dev
    let refused (a : Nat) (d : Device) : Prop := d = { s.dev with
      dbg := { x with rcode := 0xFD, data := 0, request := none }
      flt := { s.dev.flt with arriving := s.dev.flt.arriving ++ [{ src := .hub 7, cls := 0, cause := 0x0B, detail := BitVec.ofNat 64 a, time := devNs s.dev }] } }
    (∀ c : CoreId,
      let k := coreAt s.dev c.val
      let near : Prop := y.plot = 0 ∨ coreOwner s.dev c.val = y.plot.val
      let halts : Prop := y.rights.getLsbD 0 = true ∧ near
      let outside : Prop := (y.rights.getLsbD 0 = true ∧ ¬ near) ∨ (y.rights.getLsbD 0 = false ∧ coreOwner s.dev c.val ≠ y.plot.val)
      let leaves (i : Instr) (k' : Core) : Prop := Completes i s fun d =>
        coreAt d c.val = k' ∧ (∀ n, n ≠ c.val → coreAt d n = coreAt s.dev n) ∧ d = { s.dev with cores := d.cores }
      let away : Core :=
        { k with dbg := { k.dbg with halted := false, halting := false, waited := none, pass := true }
                 wdtCnt := if k.dbg.halted = true ∧ k.dbg.now = false ∧ k.freeze.getLsbD 1 = true then (if k.wdtPeriod = 0 then 1 else k.wdtPeriod) else k.wdtCnt
                 dstat := if k.dbg.halted = true ∧ k.dbg.now = false ∧ k.freeze.getLsbD 1 = true then k.dstat ||| 4 else k.dstat }
      (halts →
        (∀ on, (on = k.dbg.haltReq → leaves (.haltReq c on) k) ∧ (on ≠ k.dbg.haltReq → leaves (.haltReq c on) { k with dbg := { k.dbg with
            haltReq := on, waited := if on then k.dbg.waited else none, pass := k.dbg.pass && !on } }))
        ∧ leaves (.resume c) { away with dbg := { away.dbg with haltReq := false, stepping := false } }
        ∧ (k.dbg.halted = true → leaves (.step c) { away with dbg := { away.dbg with stepping := true } })
        ∧ (k.dbg.halted = false → leaves (.step c) k)
        ∧ (let barred : Bool := !bundleOk k.dbg.bundle || decide (0x30 ≤ synOp (bSc k.dbg.bundle) ∧ synOp (bSc k.dbg.bundle) ≤ 0x3D)
           (k.dbg.halted = false → leaves (.exec c) k)
           ∧ (k.dbg.halted = true → barred = true → leaves (.exec c) { k with dbg := { k.dbg with fedCode := 1 } })
           ∧ (k.dbg.halted = true → barred = false → leaves (.exec c) { k with dbg := { k.dbg with feeding := true } }))
        ∧ ∀ on, leaves (.bp0En c on) { k with dbg := { k.dbg with bp0En := on } } ∧ leaves (.bp1En c on) { k with dbg := { k.dbg with bp1En := on } })
      ∧ (y.rights.getLsbD 0 = false → coreOwner s.dev c.val = y.plot.val →
          leaves (.resume c) k ∧ leaves (.step c) k ∧ leaves (.exec c) k
          ∧ ∀ on, leaves (.haltReq c on) k ∧ leaves (.bp0En c on) k ∧ leaves (.bp1En c on) k)
      ∧ (y.rights.getLsbD 1 = true → halts ∨ coreOwner s.dev c.val = y.plot.val →
          (k.dbg.monReq = false → leaves (.monReq c true) { k with
            dbg := { k.dbg with monReq := true }, dstat := k.dstat ||| 2, regs := { k.regs with ipend := k.regs.ipend ||| 0x400 } })
          ∧ (k.dbg.monReq = true → leaves (.monReq c true) k)
          ∧ (k.dbg.monReq = true → leaves (.monReq c false) { k with dbg := { k.dbg with monReq := false }, dstat := k.dstat &&& 0x1D }))
      ∧ (outside → let no (i : Instr) : Prop := Completes i s (refused (0xFFF000071000 + c.val * 0x40))
          no (.resume c) ∧ no (.step c) ∧ no (.exec c) ∧ ∀ on, no (.haltReq c on) ∧ no (.monReq c on) ∧ no (.bp0En c on) ∧ no (.bp1En c on))
      ∧ (haltDue s.dev c.val = true → k.flights = [] → (y.rights.getLsbD 2 = false ∨ (freezeCfg s.dev y.plot.val).getLsbD 0 = false) →
          leaves (.haltTaken c) { k with dbg := { k.dbg with halted := true, halting := false, stepping := false, waited := none } })
      ∧ (haltDue s.dev c.val = false → ¬(k.dbg.halting = true ∧ k.flights = [] ∧ k.exc = none) → leaves (.haltTaken c) k)
      ∧ ((k.dbg.waited = none ∨ ∃ n, k.dbg.waited = some n ∧ (n < 1024 ∨ 1024 < n ∧ k.inLock = false)) → still (.lockDeadline c))
      ∧ (∀ n, k.dbg.waited = some n → 1024 ≤ n → k.inLock = true → Completes (.lockDeadline c) s fun d =>
          coreAt d c.val = { k with lock := 0, inLock := false, closed := k.inSpan, dstat := k.dstat ||| 8, dbg := { k.dbg with waited := none, cut := k.waitsFor false } }
          ∧ (∀ m, m ≠ c.val → coreAt d m = coreAt s.dev m)
          ∧ d = { s.dev with cores := d.cores, trl := { s.dev.trl with
              resvs := if k.waitsFor true then s.dev.trl.resvs else s.dev.trl.resvs.filter fun r => r.init ≠ lsInit c.val } })
      ∧ (k.dbg.waited = some 1024 → k.inLock = false → leaves (.lockDeadline c) { k with
          dbg := { k.dbg with waited := none, near := BitVec.ofNat 8 (min (k.dbg.near.toNat + 1) 255) } }))
    ∧ (y.rights.getLsbD 0 = true → y.plot = 0 →
        (y.rights.getLsbD 4 = true → ∀ on,
          Completes (.haltCmd on) s (fun d => ∃ m, d = { s.dev with dbg := { x with mgmtCtl := m } }
            ∧ m.getLsbD 0 = on ∧ m.getLsbD 1 = x.mgmtCtl.getLsbD 1 ∧ m.getLsbD 2 = x.mgmtCtl.getLsbD 2)
          ∧ Completes (.haltWarden on) s (fun d => ∃ m, d = { s.dev with dbg := { x with mgmtCtl := m } }
            ∧ m.getLsbD 1 = on ∧ m.getLsbD 0 = x.mgmtCtl.getLsbD 0 ∧ m.getLsbD 2 = x.mgmtCtl.getLsbD 2))
        ∧ (y.rights.getLsbD 4 = false → ∀ on, still (.haltCmd on) ∧ still (.haltWarden on)))
    ∧ (y.plot ≠ 0 → ∀ on, Completes (.haltCmd on) s (refused 0xFFF000070100) ∧ Completes (.haltWarden on) s (refused 0xFFF000070100))
    ∧ (∀ (p : PlotId) (v : BitVec 4), y.rights.getLsbD 0 = true →
        ((y.plot = 0 ∨ y.plot = p) → Completes (.freezeCfg p v) s fun d =>
          d = { s.dev with dbg := { x with freezeCfg := d.dbg.freezeCfg }, beds := d.beds }
          ∧ (∀ q, d.dbg.freezeCfg.get 4 q = if q = p.val then v else x.freezeCfg.get 4 q)
          ∧ (y.rights.getLsbD 2 = true → y.plot = p → v.getLsbD 0 = true → v.getLsbD 3 = true → ∀ n, bedOwner s.dev n = p.val →
              ((bedAt s.dev n).st = .running → bedAt d n = { bedAt s.dev n with clock := { (bedAt s.dev n).clock with pauseDue := true } })
              ∧ ((bedAt s.dev n).st = .waiting → (bedAt d n).clock.pauseDue = true ∧ (bedAt d n).st = .paused))
          ∧ (v.getLsbD 0 = false → d.beds = s.dev.beds))
        ∧ (y.plot ≠ 0 → y.plot ≠ p → Completes (.freezeCfg p v) s (refused (0xFFF000070010 + 4 * p.val))))
    ∧ ∀ (op : BitVec 2) (eight : Bool) (data : Word64), x.request = none →
        let size := if eight then 8 else 4
        let scanned (f : Dbg → Dbg) : Dbg := f { x with ir := 0x21, dr := place x.data.toNat 52 + place x.rcode.toNat 116 }
        (∀ addr, (op = 0 ∨ op = 3 → Completes (.dbgAccess op eight addr data) s fun d => d = { s.dev with dbg := scanned id }))
        ∧ ∀ (c : CoreId) (off t : Nat), off % size = 0 → off + size ≤ 0x20000 → (op = 1 ∨ op = 2) →
            let a := coreAddr c.val off
            let scan (P : Device → Prop) : Prop := Completes (.dbgAccess op eight (BitVec.ofNat 48 a) data) s P
            (coreOwner s.dev c.val ≠ y.plot.val → scan fun d => d = raise (.hub 7) 0 0x0B a { s.dev with
                dbg := scanned fun z => { z with rcode := 0xFD, data := 0, request := none } })
            ∧ (coreOwner s.dev c.val = y.plot.val → y.rights.getLsbD 0 = true → s.dev.flt.fsafe = .none → (win s.dev islandInit).stalled = false →
                lowestFree (win s.dev islandInit) (initOutst islandInit) = some t → (route s.dev (initSite islandInit) (targetSite a)).isSome = true →
                (arrayAt s.dev 2 c.val).dec = [] → cleanRun s.dev 2 c.val off size → scan fun d =>
                  d.dbg = (scanned fun z => { z with rcode := 0xFE, request := some (t, eight) })
                  ∧ (∃ p : Pkt, p.init = islandInit ∧ p.dbg = true ∧ p.tag.toNat = t ∧ p.addr.toNat = a ∧ p.opc = (if op = 1 then .read else .write)
                      ∧ d.trl.rsps = s.dev.trl.rsps ++ [{ req := p, rcode := 0, data := if op = 1 then coreBytes s.dev c.val off size else [] }])
                  ∧ coreStored s.dev d c.val (if op = 1 then fun _ => none else runAt off (leBytes size data.toNat))
                  ∧ d.cores = s.dev.cores ∧ d.beds = s.dev.beds ∧ d.mem = s.dev.mem ∧ d.mgmt = s.dev.mgmt ∧ d.flt = s.dev.flt)

/-! ## The block as a whole -/

/-- A step on a waiting command is that command's effect on the state without it; nothing is put in front by a word, since the table gives
no row bits (the block's queue, log 1). -/
def Obligations.StepRunsFront : Prop :=
  ∀ (c : Instr) (s : State) (rest : List Instr),
    (s.pending = c :: rest → step s = exec c { s with pending := rest })
    ∧ ∀ nbits w, s.withFetchWord nbits w = s

/-- A step on an empty queue is one tick of 1.25 ns: with nothing configured device time and every time base advance, a base by
1.25 ns × (1 + RADJ / 2^40) after what is due for it, while the dies' replicas keep their own values; without VCCAUX nothing happens (R383, R384, R386; that an empty queue stands for a tick
is the model's choice, log 1). -/
def Obligations.IdleStep : Prop :=
  ∀ s : State, s.pending = [] →
    (s.dev.dbg.vccaux = false → step s = .next s)
    ∧ (s.dev.dbg.vccaux = true → s.dev.cores = .empty → s.dev.beds = .empty → s.dev.mem.chans = .empty → s.dev.mem.due = [] →
        s.dev.mem.renews = [] → s.dev.time.replicas = .empty → s.dev.time.bases.length = 8 → s.dev.policy.queue = [] → MgmtQuiet s.dev →
        s.dev.start.due = false → s.dev.trl.net = [] → s.dev.trl.rsps = [] → s.dev.trl.waiting = [] → s.dev.trl.legs = [] → s.dev.trl.slots = [] →
        (∀ r ∈ s.dev.trl.spine :: s.dev.trl.rings, r.refused = []) →
        (s.dev.mgmt.up = false ∨ (arrayAt s.dev 3 0).syn.cells = [] ∧ (arrayAt s.dev 3 0).dec = []) →
        let shift (t : TimeBase) : Int := t.step + 320 * (t.fadjEff + t.contrib)
        ∃ bases replicas, step s = .next { s with dev := { s.dev with time := { s.dev.time with ticks := s.dev.time.ticks + 1, bases, replicas } } }
          ∧ bases.length = 8
          ∧ (∀ k (h : k < s.dev.time.bases.length), let t := s.dev.time.bases[k]
              let from' : Nat := t.load.getD t.val
              bases[k]? = some { t with
                load := none, step := 0, val := ((from' + 5 * 2 ^ 46 + shift t) % (2 ^ 48 * (10 ^ 9 * 2 ^ 48) : Int)).toNat }
              ∧ ∀ d < 8, replicas.get Replica.reset (d * 9 + k) = { Replica.reset with off := t.val - from' - shift t })
          ∧ ∀ d < 8, replicas.get Replica.reset (d * 9 + 8) = Replica.reset)

/-- Reset: nothing waits; beds UNCONFIGURED with their generators idle, cores IDLE with EN 0, shells IDLE, plot 0 the only plot and owner of
everything, no session, key, region or window, time bases and device time 0, DEV_STATE START, no fault recorded, ERR_MASK 4, IRQ_MIN 2, the
safe state not entered, LPDDR6 untrained, the CXL link down, no debug session, FREEZE_CFG 4, the policy floor 0 and the built-in rules in
force (R37, R106, R192, R262, R273, R384, R385, R437, R488, R506, R541, R551, R595). -/
def Obligations.ResetValues : Prop :=
  let d := State.reset.dev
  State.reset.pending = [] ∧ State.reset.safe = true ∧ d.Canonical
  ∧ (∀ n, (bedAt d n).st = .unconfigured ∧ (genShell d n).st = .idle ∧ bedOwner d n = 0)
  ∧ (∀ c, (coreAt d c).st = .idle ∧ (coreAt d c).en = false ∧ coreOwner d c = 0)
  ∧ (∀ id, (shellAt d id).st = .idle ∧ (shellAt d id).en = false)
  ∧ (∀ p, 1 ≤ p → plotExists d p = false) ∧ plotExists d 0 = true
  ∧ (∀ x ∈ d.mgmt.sessions, x = none) ∧ d.mgmt.dev = .start ∧ d.mgmt.up = false
  ∧ (∀ k, (keySlot d k).st = .empty) ∧ (∀ e, (regionAt d e).st = .free) ∧ (∀ w ∈ d.mem.windows, w.valid = false) ∧ d.mem.trained = false
  ∧ d.time.ticks = 0 ∧ d.time.bases.length = 8 ∧ (∀ t ∈ d.time.bases, t.val = 0 ∧ t.fadj = 0)
  ∧ d.flt.errMask = 4 ∧ d.flt.irqMin = 2 ∧ d.flt.fsafe = .none ∧ (∀ r ∈ d.flt.first, r = none) ∧ d.flt.history = []
  ∧ d.cxl.linkUp = false ∧ d.dbg.session = none ∧ (∀ p, freezeCfg d p = 4) ∧ d.policy.table = none ∧ d.policy.floor = 0

/-- Every command whose operands name objects of the device completes, from every state, and leaves the queue as it was; any other stops
with the fault that names it. -/
def Obligations.CommandsComplete : Prop :=
  ∀ (c : Instr) (s : State),
    (c.wf = true → ∃ d, exec c s = .next { s with dev := d })
    ∧ (c.wf = false → ∃ what, exec c s = .fault (.illFormed what))

/-- What is fused stays: no step, and so no run of any length, takes back the lifecycle state, the owner fuse block, its invalidation or a
burnt repair slot (R485, R497, R556, R573). -/
def Obligations.FusesNeverRestored : Prop :=
  (∀ s t : State, step s = .next t → FusesKept s.dev t.dev)
  ∧ ∀ (n : Nat) (run : Nat → State), (∀ k < n, step (run k) = .next (run (k + 1))) → FusesKept (run 0).dev (run n).dev

/-- A safe queue never stops: every step on it answers a next state that is safe again, and a queue of n commands is empty after n steps. -/
def Obligations.SafeQueues : Prop :=
  (∀ s : State, s.safe = true → ∃ t, step s = .next t ∧ t.safe = true ∧ t.pending = s.pending.drop 1)
  ∧ ∀ s : State, s.safe = true → ∃ run : Nat → State, run 0 = s ∧ (∀ k, step (run k) = .next (run (k + 1)))
      ∧ ∀ k, (run k).pending = s.pending.drop k

/-- The forms that the block reads and writes say everything: an almanac record is recovered from its 64 bytes, a command packet from the
bytes of its header and payload, padded to whole words or not, and a bundle from its four slots (R205, R420, R455, R510).
The packets of the network and what a die link carries keep their content in the bits: a request or a response is read back from its
header bits and data lanes, a unit of a packet strand from its bytes, and the slots of a fabric frame from its 240 bits (R126, R241 to R243,
R344). -/
def Obligations.FormsRoundTrip : Prop :=
  ((∀ r : AlmRec, r.seq < 2 ^ 48 → r.origin < 2 ^ 16 → r.time < 2 ^ 64 → r.principal < 2 ^ 32 → r.objClass < 2 ^ 8 → r.objId < 2 ^ 24 →
     r.action < 2 ^ 16 → r.status < 2 ^ 16 → r.before < 2 ^ 64 → r.after < 2 ^ 64 → r.chain < 2 ^ 64 → r.tb0ns < 2 ^ 32 → r.tb0sec < 2 ^ 32 →
     r.flags < 2 ^ 16 → r.count < 2 ^ 16 → r.bytes.length = 64 ∧ parseRec r.bytes = r)
   ∧ (∀ (op : Nat) (p : Packet) (k : Nat), op < 2 ^ 16 → p.mac.length = 16 → p.plen.toNat = p.payload.length → k = 0 ∨ k = (4 - p.payload.length % 4) % 4 →
       let head := leBytes 2 op ++ leBytes 2 p.flags.toNat ++ leBytes 4 p.seq.toNat ++ leBytes 1 p.plot.toNat ++ leBytes 1 p.rsvd.toNat
         ++ leBytes 2 p.plen.toNat ++ leBytes 4 p.session.toNat
       let b := head ++ p.mac ++ p.payload ++ List.replicate k 0
       leAt b 0 2 = op ∧ packetOf b = p)
   ∧ ∀ a b c e : Word32, (mkBundle a b c e).toNat = a.toNat + b.toNat * 2 ^ 32 + c.toNat * 2 ^ 64 + e.toNat * 2 ^ 96)
  ∧ ((∀ p : Pkt, let n := p.bcnt.toNat + 1
       (∀ c, p.opc = .reserved c → 4 ≤ c.toNat ∧ c ≠ 8 ∧ c ≠ 9 ∧ c ≠ 11) → (∀ c, p.atype = .reserved c → 5 ≤ c.toNat) →
       (p.opc ≠ .atomic → p.atype = .xload ∧ p.opA = 0 ∧ p.opB = 0) →
       (p.opc = .write ∨ p.opc = .pwrite → p.data.length = n ∧ p.addr.toNat % 64 + n ≤ 64 * (p.len.toNat + 1)) →
       (p.opc ≠ .write → p.opc ≠ .pwrite → p.data = []) →
         parcelOf (Parcel.req p).head (Parcel.req p).lines = .req p ∧ (Parcel.req p).lines.length = 64 * (Parcel.req p).dataFlits
         ∧ (Parcel.req p).dataFlits = (if p.opc = .write ∨ p.opc = .pwrite then p.len.toNat + 1 else 0))
     ∧ (∀ r : Rsp, let p := r.req
       let n := p.bcnt.toNat + 1
       p.opc = .read ∨ p.opc = .write ∨ p.opc = .atomic → (∀ c, p.atype = .reserved c → 5 ≤ c.toNat) → (p.opc ≠ .atomic → p.atype = .xload) →
       p.data = [] → p.opA = 0 → p.opB = 0 →
       (p.opc = .read → r.rcode = 0 → r.data.length = n ∧ p.addr.toNat % 64 + n ≤ 64 * (p.len.toNat + 1)) →
       (p.opc = .atomic → p.atype ≠ .xstore → r.rcode.toNat ≤ 1 → r.data.length = n ∧ n ≤ 8) →
       (p.opc = .write ∨ 1 < r.rcode.toNat ∨ p.opc = .read ∧ r.rcode ≠ 0 ∨ p.opc = .atomic ∧ p.atype = .xstore → r.data = []) →
       (p.opc = .read → r.rcode ≠ 1) →
         parcelOf (Parcel.rsp r).head (Parcel.rsp r).lines = .rsp r
         ∧ (Parcel.rsp r).dataFlits = (if p.opc = .read ∧ r.rcode = 0 then p.len.toNat + 1 else 0))
     ∧ (∀ (x : Parcel) (t : List Byte) (k n : Nat) (d : List Byte), d.length = 64 → k < 2 → n < 4096 →
         (∃ rest, readUnit (x.units ++ t) = .head (leBytes 32 x.head) (x.dataFlits = 0) (rest ++ t) ∧ rest.length = 66 * x.dataFlits)
         ∧ readUnit (unitHead 2 k 0 0 ++ d ++ t) = .data d false t ∧ readUnit (unitHead 2 k 1 0 ++ d ++ t) = .data d true t
         ∧ readUnit (unitHead 3 k 0 n ++ t) = .credit k n t ∧ readUnit (unitHead 0 k 0 0 ++ t) = .pad)
     ∧ ∀ (xs : List (Nat × Word32)) (k : Nat), xs.length ≤ 6 → (∀ x ∈ xs, x.1 < 256) → k < 6 →
         bitsAt (slotBits xs).toNat (40 * k) 40 = (match xs[k]? with | some x => x.2.toNat + x.1 * 2 ^ 32 | none => 0xFF * 2 ^ 32))

end
end

