-- ==== Sys2Proof/Laws/Sparse.lean ====
section
/-! SUPPORT. The sparse tables: reads after writes, and the canonical form that every operation keeps. -/
namespace Sys2Proof
variable {α : Type}

theorem Sparse.lookup_insertCell_same (m : List (Nat × α)) (k : Nat) (v : α) :
    Sparse.lookup (Sparse.insertCell m k v) k = some v := by
  induction m with
  | nil => simp [Sparse.insertCell, Sparse.lookup]
  | cons c m ih =>
    obtain ⟨j, w⟩ := c
    simp only [Sparse.insertCell]
    split
    · simp [Sparse.lookup]
    · split
      · simp [Sparse.lookup]
      · rename_i h1 h2
        have h : ¬ j = k := fun h => h2 h.symm
        simp [Sparse.lookup, h, ih]

theorem Sparse.lookup_insertCell_ne (m : List (Nat × α)) {k k' : Nat} (v : α) (h : k' ≠ k) :
    Sparse.lookup (Sparse.insertCell m k v) k' = Sparse.lookup m k' := by
  have h' : ¬ k = k' := fun e => h e.symm
  induction m with
  | nil => simp [Sparse.insertCell, Sparse.lookup, h']
  | cons c m ih =>
    obtain ⟨j, w⟩ := c
    simp only [Sparse.insertCell]
    split
    · simp [Sparse.lookup, h']
    · split
      · rename_i h1 h2
        subst h2
        simp [Sparse.lookup, h']
      · simp only [Sparse.lookup, ih]

theorem Sparse.lookup_eraseCell_same (m : List (Nat × α)) (k : Nat) :
    Sparse.lookup (Sparse.eraseCell m k) k = none := by
  induction m with
  | nil => rfl
  | cons c m ih =>
    obtain ⟨j, w⟩ := c
    simp only [Sparse.eraseCell]
    split
    · exact ih
    · rename_i h
      simp [Sparse.lookup, h, ih]

theorem Sparse.lookup_eraseCell_ne (m : List (Nat × α)) {k k' : Nat} (h : k' ≠ k) :
    Sparse.lookup (Sparse.eraseCell m k) k' = Sparse.lookup m k' := by
  have h' : ¬ k = k' := fun e => h e.symm
  induction m with
  | nil => rfl
  | cons c m ih =>
    obtain ⟨j, w⟩ := c
    simp only [Sparse.eraseCell]
    split
    · rename_i e
      subst e
      simp [Sparse.lookup, h', ih]
    · simp only [Sparse.lookup, ih]

@[simp] theorem Sparse.get_empty (d : α) (k : Nat) : (Sparse.empty : Sparse α).get d k = d := rfl

@[simp] theorem Sparse.get_set_same [DecidableEq α] (m : Sparse α) (d : α) (k : Nat) (v : α) :
    (m.set d k v).get d k = v := by
  simp only [Sparse.set, Sparse.get]
  split
  · rename_i h
    simp [Sparse.lookup_eraseCell_same, h]
  · simp [Sparse.lookup_insertCell_same]

theorem Sparse.get_set_ne [DecidableEq α] (m : Sparse α) (d : α) {k k' : Nat} (v : α) (h : k' ≠ k) :
    (m.set d k v).get d k' = m.get d k' := by
  simp only [Sparse.set, Sparse.get]
  split
  · simp [Sparse.lookup_eraseCell_ne _ h]
  · simp [Sparse.lookup_insertCell_ne _ _ h]

theorem Sparse.get_set [DecidableEq α] (m : Sparse α) (d : α) (k k' : Nat) (v : α) :
    (m.set d k v).get d k' = if k' = k then v else m.get d k' := by
  split
  · rename_i h
    rw [h, Sparse.get_set_same]
  · rename_i h
    exact Sparse.get_set_ne m d v h

@[simp] theorem Sparse.get_modify_same [DecidableEq α] (m : Sparse α) (d : α) (k : Nat) (f : α → α) :
    (m.modify d k f).get d k = f (m.get d k) := Sparse.get_set_same _ _ _ _

theorem Sparse.get_modify_ne [DecidableEq α] (m : Sparse α) (d : α) {k k' : Nat} (f : α → α) (h : k' ≠ k) :
    (m.modify d k f).get d k' = m.get d k' := Sparse.get_set_ne _ _ _ h

/-! ## The canonical form -/

def Sparse.allAbove (k : Nat) (m : List (Nat × α)) : Bool := m.all fun c => decide (k < c.1)

theorem Sparse.keysRise_cons (c : Nat × α) (m : List (Nat × α)) :
    Sparse.keysRise (c :: m) = true ↔ (∀ x ∈ m, c.1 < x.1) ∧ Sparse.keysRise m = true := by
  induction m generalizing c with
  | nil => simp [Sparse.keysRise]
  | cons e m ih =>
    obtain ⟨j, w⟩ := c
    obtain ⟨j', w'⟩ := e
    simp only [Sparse.keysRise, Bool.and_eq_true, decide_eq_true_eq, ih, List.mem_cons, forall_eq_or_imp]
    constructor
    · rintro ⟨h, h1, h2⟩
      exact ⟨⟨h, fun x hx => Nat.lt_trans h (h1 x hx)⟩, h1, h2⟩
    · rintro ⟨⟨h, _⟩, h1, h2⟩
      exact ⟨h, h1, h2⟩

theorem Sparse.mem_insertCell {m : List (Nat × α)} {k : Nat} {v : α} {x : Nat × α}
    (h : x ∈ Sparse.insertCell m k v) : x = (k, v) ∨ x ∈ m := by
  induction m with
  | nil => simpa [Sparse.insertCell] using h
  | cons c m ih =>
    obtain ⟨j, w⟩ := c
    simp only [Sparse.insertCell] at h
    split at h
    · simpa using h
    · split at h
      · rcases List.mem_cons.1 h with h | h
        · exact .inl h
        · exact .inr (List.mem_cons_of_mem _ h)
      · rcases List.mem_cons.1 h with h | h
        · exact .inr (h ▸ List.mem_cons_self)
        · rcases ih h with h | h
          · exact .inl h
          · exact .inr (List.mem_cons_of_mem _ h)

theorem Sparse.mem_eraseCell {m : List (Nat × α)} {k : Nat} {x : Nat × α} (h : x ∈ Sparse.eraseCell m k) : x ∈ m := by
  induction m with
  | nil => exact h
  | cons c m ih =>
    obtain ⟨j, w⟩ := c
    simp only [Sparse.eraseCell] at h
    split at h
    · exact List.mem_cons_of_mem _ (ih h)
    · rcases List.mem_cons.1 h with h | h
      · exact h ▸ List.mem_cons_self
      · exact List.mem_cons_of_mem _ (ih h)

theorem Sparse.keysRise_insertCell {m : List (Nat × α)} (k : Nat) (v : α) (h : Sparse.keysRise m = true) :
    Sparse.keysRise (Sparse.insertCell m k v) = true := by
  induction m with
  | nil => rfl
  | cons c m ih =>
    obtain ⟨j, w⟩ := c
    have hc := (Sparse.keysRise_cons _ _).1 h
    simp only [Sparse.insertCell]
    split
    · rename_i hk
      refine (Sparse.keysRise_cons _ _).2 ⟨fun x hx => ?_, h⟩
      rcases List.mem_cons.1 hx with rfl | hx
      · exact hk
      · exact Nat.lt_trans hk (hc.1 x hx)
    · split
      · rename_i hk
        subst hk
        exact (Sparse.keysRise_cons _ _).2 hc
      · rename_i h1 h2
        refine (Sparse.keysRise_cons _ _).2 ⟨fun x hx => ?_, ih hc.2⟩
        rcases Sparse.mem_insertCell hx with rfl | hx
        · show j < k
          omega
        · exact hc.1 x hx

theorem Sparse.keysRise_eraseCell {m : List (Nat × α)} (k : Nat) (h : Sparse.keysRise m = true) :
    Sparse.keysRise (Sparse.eraseCell m k) = true := by
  induction m with
  | nil => rfl
  | cons c m ih =>
    obtain ⟨j, w⟩ := c
    have hc := (Sparse.keysRise_cons _ _).1 h
    simp only [Sparse.eraseCell]
    split
    · exact ih hc.2
    · exact (Sparse.keysRise_cons _ _).2 ⟨fun x hx => hc.1 x (Sparse.mem_eraseCell hx), ih hc.2⟩

theorem Sparse.keysRise_filter {m : List (Nat × α)} (p : Nat × α → Bool) (h : Sparse.keysRise m = true) :
    Sparse.keysRise (m.filter p) = true := by
  induction m with
  | nil => rfl
  | cons c m ih =>
    have hc := (Sparse.keysRise_cons _ _).1 h
    by_cases hp : p c = true
    · rw [List.filter_cons_of_pos hp]
      exact (Sparse.keysRise_cons _ _).2 ⟨fun x hx => hc.1 x (List.mem_filter.1 hx).1, ih hc.2⟩
    · rw [List.filter_cons_of_neg hp]
      exact ih hc.2

theorem Sparse.keysRise_map {m : List (Nat × α)} (f : Nat → α → α) (h : Sparse.keysRise m = true) :
    Sparse.keysRise (m.map fun c => (c.1, f c.1 c.2)) = true := by
  induction m with
  | nil => rfl
  | cons c m ih =>
    have hc := (Sparse.keysRise_cons _ _).1 h
    rw [List.map_cons]
    refine (Sparse.keysRise_cons _ _).2 ⟨fun x hx => ?_, ih hc.2⟩
    obtain ⟨y, hy, rfl⟩ := List.mem_map.1 hx
    exact hc.1 y hy

theorem Sparse.wf_iff [DecidableEq α] (m : Sparse α) (d : α) :
    m.wf d = true ↔ Sparse.keysRise m.cells = true ∧ ∀ c ∈ m.cells, c.2 ≠ d := by
  simp [Sparse.wf]

@[simp] theorem Sparse.wf_empty [DecidableEq α] (d : α) : (Sparse.empty : Sparse α).wf d = true := rfl

theorem Sparse.wf_set [DecidableEq α] {m : Sparse α} {d : α} (k : Nat) (v : α) (h : m.wf d = true) :
    (m.set d k v).wf d = true := by
  obtain ⟨h1, h2⟩ := (Sparse.wf_iff _ _).1 h
  refine (Sparse.wf_iff _ _).2 ?_
  simp only [Sparse.set]
  split
  · exact ⟨Sparse.keysRise_eraseCell k h1, fun c hc => h2 c (Sparse.mem_eraseCell hc)⟩
  · rename_i hv
    refine ⟨Sparse.keysRise_insertCell k v h1, fun c hc => ?_⟩
    rcases Sparse.mem_insertCell hc with rfl | hc
    · exact hv
    · exact h2 c hc

theorem Sparse.wf_modify [DecidableEq α] {m : Sparse α} {d : α} (k : Nat) (f : α → α) (h : m.wf d = true) :
    (m.modify d k f).wf d = true := Sparse.wf_set _ _ h

theorem Sparse.wf_mapCells [DecidableEq α] {m : Sparse α} {d : α} (f : Nat → α → α) (h : m.wf d = true) :
    (m.mapCells d f).wf d = true := by
  obtain ⟨h1, _⟩ := (Sparse.wf_iff _ _).1 h
  refine (Sparse.wf_iff _ _).2 ⟨Sparse.keysRise_filter _ (Sparse.keysRise_map f h1), fun c hc => ?_⟩
  have := (List.mem_filter.1 hc).2
  simpa using this

theorem Sparse.wf_filterCells [DecidableEq α] {m : Sparse α} {d : α} (p : Nat → α → Bool) (h : m.wf d = true) :
    (m.filterCells p).wf d = true := by
  obtain ⟨h1, h2⟩ := (Sparse.wf_iff _ _).1 h
  exact (Sparse.wf_iff _ _).2 ⟨Sparse.keysRise_filter _ h1, fun c hc => h2 c (List.mem_filter.1 hc).1⟩

theorem Sparse.wf_clearRange [DecidableEq α] {m : Sparse α} {d : α} (a n : Nat) (h : m.wf d = true) :
    (m.clearRange a n).wf d = true := Sparse.wf_filterCells _ h

theorem Sparse.wf_writeBytes {m : Sparse Byte} {d : Byte} (a : Nat) (bs : List Byte) (h : m.wf d = true) :
    (m.writeBytes d a bs).wf d = true := by
  induction bs generalizing m a with
  | nil => exact h
  | cons b bs ih => exact ih (a + 1) (Sparse.wf_set a b h)

theorem Sparse.wf_writeMasked {m : Sparse Byte} {d : Byte} (a : Nat) (bs : List (Byte × Bool)) (h : m.wf d = true) :
    (m.writeMasked d a bs).wf d = true := by
  induction bs generalizing m a with
  | nil => exact h
  | cons b bs ih =>
    obtain ⟨b, e⟩ := b
    refine ih (a + 1) ?_
    split
    · exact Sparse.wf_set a b h
    · exact h

/-! ## Runs of bytes -/

theorem Sparse.get_writeBytes_out (m : Sparse Byte) (d : Byte) (a : Nat) (bs : List Byte) (k : Nat)
    (h : k < a ∨ a + bs.length ≤ k) : (m.writeBytes d a bs).get d k = m.get d k := by
  induction bs generalizing m a with
  | nil => rfl
  | cons b bs ih =>
    simp only [List.length_cons] at h
    simp only [Sparse.writeBytes]
    rw [ih _ (a + 1) (by omega), Sparse.get_set_ne _ _ _ (by omega)]

theorem Sparse.get_writeBytes_in (m : Sparse Byte) (d : Byte) (a : Nat) (bs : List Byte) (i : Nat) (h : i < bs.length) :
    (m.writeBytes d a bs).get d (a + i) = bs[i] := by
  induction bs generalizing m a i with
  | nil => simp at h
  | cons b bs ih =>
    simp only [Sparse.writeBytes]
    cases i with
    | zero =>
      rw [Sparse.get_writeBytes_out _ _ _ _ _ (by omega)]
      simp
    | succ i =>
      have := ih (m.set d a b) (a + 1) i (by simpa using h)
      rw [show a + (i + 1) = a + 1 + i by omega, this]
      simp

end Sys2Proof
end

