-- ==== Sys2Proof/Laws/State.lean ====
section
/-! SUPPORT. What each named update of the device leaves unchanged, field by field, and what the table entries read after it. -/
namespace Sys2Proof.Machine
open Sys2Proof
variable (s : Device)


@[simp] theorem setBed_time (n : Nat) (x : Bed) : (setBed n x s).time = s.time := rfl
@[simp] theorem setBed_flt (n : Nat) (x : Bed) : (setBed n x s).flt = s.flt := rfl
@[simp] theorem setBed_trl (n : Nat) (x : Bed) : (setBed n x s).trl = s.trl := rfl
@[simp] theorem setBed_trust (n : Nat) (x : Bed) : (setBed n x s).trust = s.trust := rfl
@[simp] theorem setBed_policy (n : Nat) (x : Bed) : (setBed n x s).policy = s.policy := rfl
@[simp] theorem setBed_alm (n : Nat) (x : Bed) : (setBed n x s).alm = s.alm := rfl
@[simp] theorem setBed_own (n : Nat) (x : Bed) : (setBed n x s).own = s.own := rfl
@[simp] theorem setBed_mgmt (n : Nat) (x : Bed) : (setBed n x s).mgmt = s.mgmt := rfl
@[simp] theorem setBed_shells (n : Nat) (x : Bed) : (setBed n x s).shells = s.shells := rfl
@[simp] theorem setBed_gpio (n : Nat) (x : Bed) : (setBed n x s).gpio = s.gpio := rfl
@[simp] theorem setBed_msix (n : Nat) (x : Bed) : (setBed n x s).msix = s.msix := rfl
@[simp] theorem setBed_arrays (n : Nat) (x : Bed) : (setBed n x s).arrays = s.arrays := rfl
@[simp] theorem setBed_rakes (n : Nat) (x : Bed) : (setBed n x s).rakes = s.rakes := rfl
@[simp] theorem setBed_coreIo (n : Nat) (x : Bed) : (setBed n x s).coreIo = s.coreIo := rfl
@[simp] theorem setBed_cores (n : Nat) (x : Bed) : (setBed n x s).cores = s.cores := rfl
@[simp] theorem setBed_dbg (n : Nat) (x : Bed) : (setBed n x s).dbg = s.dbg := rfl
@[simp] theorem setBed_mem (n : Nat) (x : Bed) : (setBed n x s).mem = s.mem := rfl
@[simp] theorem setBed_cxl (n : Nat) (x : Bed) : (setBed n x s).cxl = s.cxl := rfl
@[simp] theorem setBed_d2d (n : Nat) (x : Bed) : (setBed n x s).d2d = s.d2d := rfl
@[simp] theorem setBed_ports (n : Nat) (x : Bed) : (setBed n x s).ports = s.ports := rfl
@[simp] theorem setBed_cfg (n : Nat) (x : Bed) : (setBed n x s).cfg = s.cfg := rfl
@[simp] theorem setBed_bist (n : Nat) (x : Bed) : (setBed n x s).bist = s.bist := rfl
@[simp] theorem setBed_start (n : Nat) (x : Bed) : (setBed n x s).start = s.start := rfl
@[simp] theorem setBed_board (n : Nat) (x : Bed) : (setBed n x s).board = s.board := rfl
@[simp] theorem setBed_answer (n : Nat) (x : Bed) : (setBed n x s).answer = s.answer := rfl
@[simp] theorem setBed_free (n : Nat) (x : Bed) : (setBed n x s).free = s.free := rfl

@[simp] theorem setCore_time (n : Nat) (x : Core) : (setCore n x s).time = s.time := rfl
@[simp] theorem setCore_flt (n : Nat) (x : Core) : (setCore n x s).flt = s.flt := rfl
@[simp] theorem setCore_trl (n : Nat) (x : Core) : (setCore n x s).trl = s.trl := rfl
@[simp] theorem setCore_trust (n : Nat) (x : Core) : (setCore n x s).trust = s.trust := rfl
@[simp] theorem setCore_policy (n : Nat) (x : Core) : (setCore n x s).policy = s.policy := rfl
@[simp] theorem setCore_alm (n : Nat) (x : Core) : (setCore n x s).alm = s.alm := rfl
@[simp] theorem setCore_own (n : Nat) (x : Core) : (setCore n x s).own = s.own := rfl
@[simp] theorem setCore_mgmt (n : Nat) (x : Core) : (setCore n x s).mgmt = s.mgmt := rfl
@[simp] theorem setCore_shells (n : Nat) (x : Core) : (setCore n x s).shells = s.shells := rfl
@[simp] theorem setCore_gpio (n : Nat) (x : Core) : (setCore n x s).gpio = s.gpio := rfl
@[simp] theorem setCore_msix (n : Nat) (x : Core) : (setCore n x s).msix = s.msix := rfl
@[simp] theorem setCore_beds (n : Nat) (x : Core) : (setCore n x s).beds = s.beds := rfl
@[simp] theorem setCore_arrays (n : Nat) (x : Core) : (setCore n x s).arrays = s.arrays := rfl
@[simp] theorem setCore_rakes (n : Nat) (x : Core) : (setCore n x s).rakes = s.rakes := rfl
@[simp] theorem setCore_coreIo (n : Nat) (x : Core) : (setCore n x s).coreIo = s.coreIo := rfl
@[simp] theorem setCore_dbg (n : Nat) (x : Core) : (setCore n x s).dbg = s.dbg := rfl
@[simp] theorem setCore_mem (n : Nat) (x : Core) : (setCore n x s).mem = s.mem := rfl
@[simp] theorem setCore_cxl (n : Nat) (x : Core) : (setCore n x s).cxl = s.cxl := rfl
@[simp] theorem setCore_d2d (n : Nat) (x : Core) : (setCore n x s).d2d = s.d2d := rfl
@[simp] theorem setCore_ports (n : Nat) (x : Core) : (setCore n x s).ports = s.ports := rfl
@[simp] theorem setCore_cfg (n : Nat) (x : Core) : (setCore n x s).cfg = s.cfg := rfl
@[simp] theorem setCore_bist (n : Nat) (x : Core) : (setCore n x s).bist = s.bist := rfl
@[simp] theorem setCore_start (n : Nat) (x : Core) : (setCore n x s).start = s.start := rfl
@[simp] theorem setCore_board (n : Nat) (x : Core) : (setCore n x s).board = s.board := rfl
@[simp] theorem setCore_answer (n : Nat) (x : Core) : (setCore n x s).answer = s.answer := rfl
@[simp] theorem setCore_free (n : Nat) (x : Core) : (setCore n x s).free = s.free := rfl

@[simp] theorem setCoreIo_time (n : Nat) (x : CoreIo) : (setCoreIo n x s).time = s.time := rfl
@[simp] theorem setCoreIo_flt (n : Nat) (x : CoreIo) : (setCoreIo n x s).flt = s.flt := rfl
@[simp] theorem setCoreIo_trl (n : Nat) (x : CoreIo) : (setCoreIo n x s).trl = s.trl := rfl
@[simp] theorem setCoreIo_trust (n : Nat) (x : CoreIo) : (setCoreIo n x s).trust = s.trust := rfl
@[simp] theorem setCoreIo_policy (n : Nat) (x : CoreIo) : (setCoreIo n x s).policy = s.policy := rfl
@[simp] theorem setCoreIo_alm (n : Nat) (x : CoreIo) : (setCoreIo n x s).alm = s.alm := rfl
@[simp] theorem setCoreIo_own (n : Nat) (x : CoreIo) : (setCoreIo n x s).own = s.own := rfl
@[simp] theorem setCoreIo_mgmt (n : Nat) (x : CoreIo) : (setCoreIo n x s).mgmt = s.mgmt := rfl
@[simp] theorem setCoreIo_shells (n : Nat) (x : CoreIo) : (setCoreIo n x s).shells = s.shells := rfl
@[simp] theorem setCoreIo_gpio (n : Nat) (x : CoreIo) : (setCoreIo n x s).gpio = s.gpio := rfl
@[simp] theorem setCoreIo_msix (n : Nat) (x : CoreIo) : (setCoreIo n x s).msix = s.msix := rfl
@[simp] theorem setCoreIo_beds (n : Nat) (x : CoreIo) : (setCoreIo n x s).beds = s.beds := rfl
@[simp] theorem setCoreIo_arrays (n : Nat) (x : CoreIo) : (setCoreIo n x s).arrays = s.arrays := rfl
@[simp] theorem setCoreIo_rakes (n : Nat) (x : CoreIo) : (setCoreIo n x s).rakes = s.rakes := rfl
@[simp] theorem setCoreIo_cores (n : Nat) (x : CoreIo) : (setCoreIo n x s).cores = s.cores := rfl
@[simp] theorem setCoreIo_dbg (n : Nat) (x : CoreIo) : (setCoreIo n x s).dbg = s.dbg := rfl
@[simp] theorem setCoreIo_mem (n : Nat) (x : CoreIo) : (setCoreIo n x s).mem = s.mem := rfl
@[simp] theorem setCoreIo_cxl (n : Nat) (x : CoreIo) : (setCoreIo n x s).cxl = s.cxl := rfl
@[simp] theorem setCoreIo_d2d (n : Nat) (x : CoreIo) : (setCoreIo n x s).d2d = s.d2d := rfl
@[simp] theorem setCoreIo_ports (n : Nat) (x : CoreIo) : (setCoreIo n x s).ports = s.ports := rfl
@[simp] theorem setCoreIo_cfg (n : Nat) (x : CoreIo) : (setCoreIo n x s).cfg = s.cfg := rfl
@[simp] theorem setCoreIo_bist (n : Nat) (x : CoreIo) : (setCoreIo n x s).bist = s.bist := rfl
@[simp] theorem setCoreIo_start (n : Nat) (x : CoreIo) : (setCoreIo n x s).start = s.start := rfl
@[simp] theorem setCoreIo_board (n : Nat) (x : CoreIo) : (setCoreIo n x s).board = s.board := rfl
@[simp] theorem setCoreIo_answer (n : Nat) (x : CoreIo) : (setCoreIo n x s).answer = s.answer := rfl
@[simp] theorem setCoreIo_free (n : Nat) (x : CoreIo) : (setCoreIo n x s).free = s.free := rfl

@[simp] theorem setArray_time (cls i : Nat) (x : Coded) : (setArray cls i x s).time = s.time := rfl
@[simp] theorem setArray_flt (cls i : Nat) (x : Coded) : (setArray cls i x s).flt = s.flt := rfl
@[simp] theorem setArray_trl (cls i : Nat) (x : Coded) : (setArray cls i x s).trl = s.trl := rfl
@[simp] theorem setArray_trust (cls i : Nat) (x : Coded) : (setArray cls i x s).trust = s.trust := rfl
@[simp] theorem setArray_policy (cls i : Nat) (x : Coded) : (setArray cls i x s).policy = s.policy := rfl
@[simp] theorem setArray_alm (cls i : Nat) (x : Coded) : (setArray cls i x s).alm = s.alm := rfl
@[simp] theorem setArray_own (cls i : Nat) (x : Coded) : (setArray cls i x s).own = s.own := rfl
@[simp] theorem setArray_mgmt (cls i : Nat) (x : Coded) : (setArray cls i x s).mgmt = s.mgmt := rfl
@[simp] theorem setArray_shells (cls i : Nat) (x : Coded) : (setArray cls i x s).shells = s.shells := rfl
@[simp] theorem setArray_gpio (cls i : Nat) (x : Coded) : (setArray cls i x s).gpio = s.gpio := rfl
@[simp] theorem setArray_msix (cls i : Nat) (x : Coded) : (setArray cls i x s).msix = s.msix := rfl
@[simp] theorem setArray_beds (cls i : Nat) (x : Coded) : (setArray cls i x s).beds = s.beds := rfl
@[simp] theorem setArray_rakes (cls i : Nat) (x : Coded) : (setArray cls i x s).rakes = s.rakes := rfl
@[simp] theorem setArray_coreIo (cls i : Nat) (x : Coded) : (setArray cls i x s).coreIo = s.coreIo := rfl
@[simp] theorem setArray_cores (cls i : Nat) (x : Coded) : (setArray cls i x s).cores = s.cores := rfl
@[simp] theorem setArray_dbg (cls i : Nat) (x : Coded) : (setArray cls i x s).dbg = s.dbg := rfl
@[simp] theorem setArray_mem (cls i : Nat) (x : Coded) : (setArray cls i x s).mem = s.mem := rfl
@[simp] theorem setArray_cxl (cls i : Nat) (x : Coded) : (setArray cls i x s).cxl = s.cxl := rfl
@[simp] theorem setArray_d2d (cls i : Nat) (x : Coded) : (setArray cls i x s).d2d = s.d2d := rfl
@[simp] theorem setArray_ports (cls i : Nat) (x : Coded) : (setArray cls i x s).ports = s.ports := rfl
@[simp] theorem setArray_cfg (cls i : Nat) (x : Coded) : (setArray cls i x s).cfg = s.cfg := rfl
@[simp] theorem setArray_bist (cls i : Nat) (x : Coded) : (setArray cls i x s).bist = s.bist := rfl
@[simp] theorem setArray_start (cls i : Nat) (x : Coded) : (setArray cls i x s).start = s.start := rfl
@[simp] theorem setArray_board (cls i : Nat) (x : Coded) : (setArray cls i x s).board = s.board := rfl
@[simp] theorem setArray_answer (cls i : Nat) (x : Coded) : (setArray cls i x s).answer = s.answer := rfl
@[simp] theorem setArray_free (cls i : Nat) (x : Coded) : (setArray cls i x s).free = s.free := rfl

@[simp] theorem setShell_time (i : ShellId) (x : Shell) : (setShell i x s).time = s.time := rfl
@[simp] theorem setShell_flt (i : ShellId) (x : Shell) : (setShell i x s).flt = s.flt := rfl
@[simp] theorem setShell_trl (i : ShellId) (x : Shell) : (setShell i x s).trl = s.trl := rfl
@[simp] theorem setShell_trust (i : ShellId) (x : Shell) : (setShell i x s).trust = s.trust := rfl
@[simp] theorem setShell_policy (i : ShellId) (x : Shell) : (setShell i x s).policy = s.policy := rfl
@[simp] theorem setShell_alm (i : ShellId) (x : Shell) : (setShell i x s).alm = s.alm := rfl
@[simp] theorem setShell_own (i : ShellId) (x : Shell) : (setShell i x s).own = s.own := rfl
@[simp] theorem setShell_mgmt (i : ShellId) (x : Shell) : (setShell i x s).mgmt = s.mgmt := rfl
@[simp] theorem setShell_gpio (i : ShellId) (x : Shell) : (setShell i x s).gpio = s.gpio := rfl
@[simp] theorem setShell_msix (i : ShellId) (x : Shell) : (setShell i x s).msix = s.msix := rfl
@[simp] theorem setShell_beds (i : ShellId) (x : Shell) : (setShell i x s).beds = s.beds := rfl
@[simp] theorem setShell_arrays (i : ShellId) (x : Shell) : (setShell i x s).arrays = s.arrays := rfl
@[simp] theorem setShell_rakes (i : ShellId) (x : Shell) : (setShell i x s).rakes = s.rakes := rfl
@[simp] theorem setShell_coreIo (i : ShellId) (x : Shell) : (setShell i x s).coreIo = s.coreIo := rfl
@[simp] theorem setShell_cores (i : ShellId) (x : Shell) : (setShell i x s).cores = s.cores := rfl
@[simp] theorem setShell_dbg (i : ShellId) (x : Shell) : (setShell i x s).dbg = s.dbg := rfl
@[simp] theorem setShell_mem (i : ShellId) (x : Shell) : (setShell i x s).mem = s.mem := rfl
@[simp] theorem setShell_cxl (i : ShellId) (x : Shell) : (setShell i x s).cxl = s.cxl := rfl
@[simp] theorem setShell_d2d (i : ShellId) (x : Shell) : (setShell i x s).d2d = s.d2d := rfl
@[simp] theorem setShell_ports (i : ShellId) (x : Shell) : (setShell i x s).ports = s.ports := rfl
@[simp] theorem setShell_cfg (i : ShellId) (x : Shell) : (setShell i x s).cfg = s.cfg := rfl
@[simp] theorem setShell_bist (i : ShellId) (x : Shell) : (setShell i x s).bist = s.bist := rfl
@[simp] theorem setShell_start (i : ShellId) (x : Shell) : (setShell i x s).start = s.start := rfl
@[simp] theorem setShell_board (i : ShellId) (x : Shell) : (setShell i x s).board = s.board := rfl
@[simp] theorem setShell_answer (i : ShellId) (x : Shell) : (setShell i x s).answer = s.answer := rfl
@[simp] theorem setShell_free (i : ShellId) (x : Shell) : (setShell i x s).free = s.free := rfl

@[simp] theorem setPlot_time (p : Nat) (f : PlotSt → PlotSt) : (setPlot p f s).time = s.time := rfl
@[simp] theorem setPlot_flt (p : Nat) (f : PlotSt → PlotSt) : (setPlot p f s).flt = s.flt := rfl
@[simp] theorem setPlot_trl (p : Nat) (f : PlotSt → PlotSt) : (setPlot p f s).trl = s.trl := rfl
@[simp] theorem setPlot_policy (p : Nat) (f : PlotSt → PlotSt) : (setPlot p f s).policy = s.policy := rfl
@[simp] theorem setPlot_alm (p : Nat) (f : PlotSt → PlotSt) : (setPlot p f s).alm = s.alm := rfl
@[simp] theorem setPlot_own (p : Nat) (f : PlotSt → PlotSt) : (setPlot p f s).own = s.own := rfl
@[simp] theorem setPlot_mgmt (p : Nat) (f : PlotSt → PlotSt) : (setPlot p f s).mgmt = s.mgmt := rfl
@[simp] theorem setPlot_shells (p : Nat) (f : PlotSt → PlotSt) : (setPlot p f s).shells = s.shells := rfl
@[simp] theorem setPlot_gpio (p : Nat) (f : PlotSt → PlotSt) : (setPlot p f s).gpio = s.gpio := rfl
@[simp] theorem setPlot_msix (p : Nat) (f : PlotSt → PlotSt) : (setPlot p f s).msix = s.msix := rfl
@[simp] theorem setPlot_beds (p : Nat) (f : PlotSt → PlotSt) : (setPlot p f s).beds = s.beds := rfl
@[simp] theorem setPlot_arrays (p : Nat) (f : PlotSt → PlotSt) : (setPlot p f s).arrays = s.arrays := rfl
@[simp] theorem setPlot_rakes (p : Nat) (f : PlotSt → PlotSt) : (setPlot p f s).rakes = s.rakes := rfl
@[simp] theorem setPlot_coreIo (p : Nat) (f : PlotSt → PlotSt) : (setPlot p f s).coreIo = s.coreIo := rfl
@[simp] theorem setPlot_cores (p : Nat) (f : PlotSt → PlotSt) : (setPlot p f s).cores = s.cores := rfl
@[simp] theorem setPlot_dbg (p : Nat) (f : PlotSt → PlotSt) : (setPlot p f s).dbg = s.dbg := rfl
@[simp] theorem setPlot_mem (p : Nat) (f : PlotSt → PlotSt) : (setPlot p f s).mem = s.mem := rfl
@[simp] theorem setPlot_cxl (p : Nat) (f : PlotSt → PlotSt) : (setPlot p f s).cxl = s.cxl := rfl
@[simp] theorem setPlot_d2d (p : Nat) (f : PlotSt → PlotSt) : (setPlot p f s).d2d = s.d2d := rfl
@[simp] theorem setPlot_ports (p : Nat) (f : PlotSt → PlotSt) : (setPlot p f s).ports = s.ports := rfl
@[simp] theorem setPlot_cfg (p : Nat) (f : PlotSt → PlotSt) : (setPlot p f s).cfg = s.cfg := rfl
@[simp] theorem setPlot_bist (p : Nat) (f : PlotSt → PlotSt) : (setPlot p f s).bist = s.bist := rfl
@[simp] theorem setPlot_start (p : Nat) (f : PlotSt → PlotSt) : (setPlot p f s).start = s.start := rfl
@[simp] theorem setPlot_board (p : Nat) (f : PlotSt → PlotSt) : (setPlot p f s).board = s.board := rfl
@[simp] theorem setPlot_answer (p : Nat) (f : PlotSt → PlotSt) : (setPlot p f s).answer = s.answer := rfl
@[simp] theorem setPlot_free (p : Nat) (f : PlotSt → PlotSt) : (setPlot p f s).free = s.free := rfl

@[simp] theorem setMsix_time (ld v : Nat) (x : MsixEntry) : (setMsix ld v x s).time = s.time := rfl
@[simp] theorem setMsix_flt (ld v : Nat) (x : MsixEntry) : (setMsix ld v x s).flt = s.flt := rfl
@[simp] theorem setMsix_trl (ld v : Nat) (x : MsixEntry) : (setMsix ld v x s).trl = s.trl := rfl
@[simp] theorem setMsix_trust (ld v : Nat) (x : MsixEntry) : (setMsix ld v x s).trust = s.trust := rfl
@[simp] theorem setMsix_policy (ld v : Nat) (x : MsixEntry) : (setMsix ld v x s).policy = s.policy := rfl
@[simp] theorem setMsix_alm (ld v : Nat) (x : MsixEntry) : (setMsix ld v x s).alm = s.alm := rfl
@[simp] theorem setMsix_own (ld v : Nat) (x : MsixEntry) : (setMsix ld v x s).own = s.own := rfl
@[simp] theorem setMsix_mgmt (ld v : Nat) (x : MsixEntry) : (setMsix ld v x s).mgmt = s.mgmt := rfl
@[simp] theorem setMsix_shells (ld v : Nat) (x : MsixEntry) : (setMsix ld v x s).shells = s.shells := rfl
@[simp] theorem setMsix_gpio (ld v : Nat) (x : MsixEntry) : (setMsix ld v x s).gpio = s.gpio := rfl
@[simp] theorem setMsix_beds (ld v : Nat) (x : MsixEntry) : (setMsix ld v x s).beds = s.beds := rfl
@[simp] theorem setMsix_arrays (ld v : Nat) (x : MsixEntry) : (setMsix ld v x s).arrays = s.arrays := rfl
@[simp] theorem setMsix_rakes (ld v : Nat) (x : MsixEntry) : (setMsix ld v x s).rakes = s.rakes := rfl
@[simp] theorem setMsix_coreIo (ld v : Nat) (x : MsixEntry) : (setMsix ld v x s).coreIo = s.coreIo := rfl
@[simp] theorem setMsix_cores (ld v : Nat) (x : MsixEntry) : (setMsix ld v x s).cores = s.cores := rfl
@[simp] theorem setMsix_dbg (ld v : Nat) (x : MsixEntry) : (setMsix ld v x s).dbg = s.dbg := rfl
@[simp] theorem setMsix_mem (ld v : Nat) (x : MsixEntry) : (setMsix ld v x s).mem = s.mem := rfl
@[simp] theorem setMsix_cxl (ld v : Nat) (x : MsixEntry) : (setMsix ld v x s).cxl = s.cxl := rfl
@[simp] theorem setMsix_d2d (ld v : Nat) (x : MsixEntry) : (setMsix ld v x s).d2d = s.d2d := rfl
@[simp] theorem setMsix_ports (ld v : Nat) (x : MsixEntry) : (setMsix ld v x s).ports = s.ports := rfl
@[simp] theorem setMsix_cfg (ld v : Nat) (x : MsixEntry) : (setMsix ld v x s).cfg = s.cfg := rfl
@[simp] theorem setMsix_bist (ld v : Nat) (x : MsixEntry) : (setMsix ld v x s).bist = s.bist := rfl
@[simp] theorem setMsix_start (ld v : Nat) (x : MsixEntry) : (setMsix ld v x s).start = s.start := rfl
@[simp] theorem setMsix_board (ld v : Nat) (x : MsixEntry) : (setMsix ld v x s).board = s.board := rfl
@[simp] theorem setMsix_answer (ld v : Nat) (x : MsixEntry) : (setMsix ld v x s).answer = s.answer := rfl
@[simp] theorem setMsix_free (ld v : Nat) (x : MsixEntry) : (setMsix ld v x s).free = s.free := rfl

@[simp] theorem setTb_flt (n : Nat) (f : TimeBase → TimeBase) : (setTb n f s).flt = s.flt := rfl
@[simp] theorem setTb_trl (n : Nat) (f : TimeBase → TimeBase) : (setTb n f s).trl = s.trl := rfl
@[simp] theorem setTb_trust (n : Nat) (f : TimeBase → TimeBase) : (setTb n f s).trust = s.trust := rfl
@[simp] theorem setTb_policy (n : Nat) (f : TimeBase → TimeBase) : (setTb n f s).policy = s.policy := rfl
@[simp] theorem setTb_alm (n : Nat) (f : TimeBase → TimeBase) : (setTb n f s).alm = s.alm := rfl
@[simp] theorem setTb_own (n : Nat) (f : TimeBase → TimeBase) : (setTb n f s).own = s.own := rfl
@[simp] theorem setTb_mgmt (n : Nat) (f : TimeBase → TimeBase) : (setTb n f s).mgmt = s.mgmt := rfl
@[simp] theorem setTb_shells (n : Nat) (f : TimeBase → TimeBase) : (setTb n f s).shells = s.shells := rfl
@[simp] theorem setTb_gpio (n : Nat) (f : TimeBase → TimeBase) : (setTb n f s).gpio = s.gpio := rfl
@[simp] theorem setTb_msix (n : Nat) (f : TimeBase → TimeBase) : (setTb n f s).msix = s.msix := rfl
@[simp] theorem setTb_beds (n : Nat) (f : TimeBase → TimeBase) : (setTb n f s).beds = s.beds := rfl
@[simp] theorem setTb_arrays (n : Nat) (f : TimeBase → TimeBase) : (setTb n f s).arrays = s.arrays := rfl
@[simp] theorem setTb_rakes (n : Nat) (f : TimeBase → TimeBase) : (setTb n f s).rakes = s.rakes := rfl
@[simp] theorem setTb_coreIo (n : Nat) (f : TimeBase → TimeBase) : (setTb n f s).coreIo = s.coreIo := rfl
@[simp] theorem setTb_cores (n : Nat) (f : TimeBase → TimeBase) : (setTb n f s).cores = s.cores := rfl
@[simp] theorem setTb_dbg (n : Nat) (f : TimeBase → TimeBase) : (setTb n f s).dbg = s.dbg := rfl
@[simp] theorem setTb_mem (n : Nat) (f : TimeBase → TimeBase) : (setTb n f s).mem = s.mem := rfl
@[simp] theorem setTb_cxl (n : Nat) (f : TimeBase → TimeBase) : (setTb n f s).cxl = s.cxl := rfl
@[simp] theorem setTb_d2d (n : Nat) (f : TimeBase → TimeBase) : (setTb n f s).d2d = s.d2d := rfl
@[simp] theorem setTb_ports (n : Nat) (f : TimeBase → TimeBase) : (setTb n f s).ports = s.ports := rfl
@[simp] theorem setTb_cfg (n : Nat) (f : TimeBase → TimeBase) : (setTb n f s).cfg = s.cfg := rfl
@[simp] theorem setTb_bist (n : Nat) (f : TimeBase → TimeBase) : (setTb n f s).bist = s.bist := rfl
@[simp] theorem setTb_start (n : Nat) (f : TimeBase → TimeBase) : (setTb n f s).start = s.start := rfl
@[simp] theorem setTb_board (n : Nat) (f : TimeBase → TimeBase) : (setTb n f s).board = s.board := rfl
@[simp] theorem setTb_answer (n : Nat) (f : TimeBase → TimeBase) : (setTb n f s).answer = s.answer := rfl
@[simp] theorem setTb_free (n : Nat) (f : TimeBase → TimeBase) : (setTb n f s).free = s.free := rfl

@[simp] theorem setReplica_flt (d src : Nat) (x : Replica) : (setReplica d src x s).flt = s.flt := rfl
@[simp] theorem setReplica_trl (d src : Nat) (x : Replica) : (setReplica d src x s).trl = s.trl := rfl
@[simp] theorem setReplica_trust (d src : Nat) (x : Replica) : (setReplica d src x s).trust = s.trust := rfl
@[simp] theorem setReplica_policy (d src : Nat) (x : Replica) : (setReplica d src x s).policy = s.policy := rfl
@[simp] theorem setReplica_alm (d src : Nat) (x : Replica) : (setReplica d src x s).alm = s.alm := rfl
@[simp] theorem setReplica_own (d src : Nat) (x : Replica) : (setReplica d src x s).own = s.own := rfl
@[simp] theorem setReplica_mgmt (d src : Nat) (x : Replica) : (setReplica d src x s).mgmt = s.mgmt := rfl
@[simp] theorem setReplica_shells (d src : Nat) (x : Replica) : (setReplica d src x s).shells = s.shells := rfl
@[simp] theorem setReplica_gpio (d src : Nat) (x : Replica) : (setReplica d src x s).gpio = s.gpio := rfl
@[simp] theorem setReplica_msix (d src : Nat) (x : Replica) : (setReplica d src x s).msix = s.msix := rfl
@[simp] theorem setReplica_beds (d src : Nat) (x : Replica) : (setReplica d src x s).beds = s.beds := rfl
@[simp] theorem setReplica_arrays (d src : Nat) (x : Replica) : (setReplica d src x s).arrays = s.arrays := rfl
@[simp] theorem setReplica_rakes (d src : Nat) (x : Replica) : (setReplica d src x s).rakes = s.rakes := rfl
@[simp] theorem setReplica_coreIo (d src : Nat) (x : Replica) : (setReplica d src x s).coreIo = s.coreIo := rfl
@[simp] theorem setReplica_cores (d src : Nat) (x : Replica) : (setReplica d src x s).cores = s.cores := rfl
@[simp] theorem setReplica_dbg (d src : Nat) (x : Replica) : (setReplica d src x s).dbg = s.dbg := rfl
@[simp] theorem setReplica_mem (d src : Nat) (x : Replica) : (setReplica d src x s).mem = s.mem := rfl
@[simp] theorem setReplica_cxl (d src : Nat) (x : Replica) : (setReplica d src x s).cxl = s.cxl := rfl
@[simp] theorem setReplica_d2d (d src : Nat) (x : Replica) : (setReplica d src x s).d2d = s.d2d := rfl
@[simp] theorem setReplica_ports (d src : Nat) (x : Replica) : (setReplica d src x s).ports = s.ports := rfl
@[simp] theorem setReplica_cfg (d src : Nat) (x : Replica) : (setReplica d src x s).cfg = s.cfg := rfl
@[simp] theorem setReplica_bist (d src : Nat) (x : Replica) : (setReplica d src x s).bist = s.bist := rfl
@[simp] theorem setReplica_start (d src : Nat) (x : Replica) : (setReplica d src x s).start = s.start := rfl
@[simp] theorem setReplica_board (d src : Nat) (x : Replica) : (setReplica d src x s).board = s.board := rfl
@[simp] theorem setReplica_answer (d src : Nat) (x : Replica) : (setReplica d src x s).answer = s.answer := rfl
@[simp] theorem setReplica_free (d src : Nat) (x : Replica) : (setReplica d src x s).free = s.free := rfl

@[simp] theorem setWin_time (i : InitId) (x : InitWin) : (setWin i x s).time = s.time := rfl
@[simp] theorem setWin_flt (i : InitId) (x : InitWin) : (setWin i x s).flt = s.flt := rfl
@[simp] theorem setWin_trust (i : InitId) (x : InitWin) : (setWin i x s).trust = s.trust := rfl
@[simp] theorem setWin_policy (i : InitId) (x : InitWin) : (setWin i x s).policy = s.policy := rfl
@[simp] theorem setWin_alm (i : InitId) (x : InitWin) : (setWin i x s).alm = s.alm := rfl
@[simp] theorem setWin_own (i : InitId) (x : InitWin) : (setWin i x s).own = s.own := rfl
@[simp] theorem setWin_mgmt (i : InitId) (x : InitWin) : (setWin i x s).mgmt = s.mgmt := rfl
@[simp] theorem setWin_shells (i : InitId) (x : InitWin) : (setWin i x s).shells = s.shells := rfl
@[simp] theorem setWin_gpio (i : InitId) (x : InitWin) : (setWin i x s).gpio = s.gpio := rfl
@[simp] theorem setWin_msix (i : InitId) (x : InitWin) : (setWin i x s).msix = s.msix := rfl
@[simp] theorem setWin_beds (i : InitId) (x : InitWin) : (setWin i x s).beds = s.beds := rfl
@[simp] theorem setWin_arrays (i : InitId) (x : InitWin) : (setWin i x s).arrays = s.arrays := rfl
@[simp] theorem setWin_rakes (i : InitId) (x : InitWin) : (setWin i x s).rakes = s.rakes := rfl
@[simp] theorem setWin_coreIo (i : InitId) (x : InitWin) : (setWin i x s).coreIo = s.coreIo := rfl
@[simp] theorem setWin_cores (i : InitId) (x : InitWin) : (setWin i x s).cores = s.cores := rfl
@[simp] theorem setWin_dbg (i : InitId) (x : InitWin) : (setWin i x s).dbg = s.dbg := rfl
@[simp] theorem setWin_mem (i : InitId) (x : InitWin) : (setWin i x s).mem = s.mem := rfl
@[simp] theorem setWin_cxl (i : InitId) (x : InitWin) : (setWin i x s).cxl = s.cxl := rfl
@[simp] theorem setWin_d2d (i : InitId) (x : InitWin) : (setWin i x s).d2d = s.d2d := rfl
@[simp] theorem setWin_ports (i : InitId) (x : InitWin) : (setWin i x s).ports = s.ports := rfl
@[simp] theorem setWin_cfg (i : InitId) (x : InitWin) : (setWin i x s).cfg = s.cfg := rfl
@[simp] theorem setWin_bist (i : InitId) (x : InitWin) : (setWin i x s).bist = s.bist := rfl
@[simp] theorem setWin_start (i : InitId) (x : InitWin) : (setWin i x s).start = s.start := rfl
@[simp] theorem setWin_board (i : InitId) (x : InitWin) : (setWin i x s).board = s.board := rfl
@[simp] theorem setWin_answer (i : InitId) (x : InitWin) : (setWin i x s).answer = s.answer := rfl
@[simp] theorem setWin_free (i : InitId) (x : InitWin) : (setWin i x s).free = s.free := rfl

@[simp] theorem setWord_time (i : Nat) (x : SrcWord) : (setWord i x s).time = s.time := rfl
@[simp] theorem setWord_trl (i : Nat) (x : SrcWord) : (setWord i x s).trl = s.trl := rfl
@[simp] theorem setWord_trust (i : Nat) (x : SrcWord) : (setWord i x s).trust = s.trust := rfl
@[simp] theorem setWord_policy (i : Nat) (x : SrcWord) : (setWord i x s).policy = s.policy := rfl
@[simp] theorem setWord_alm (i : Nat) (x : SrcWord) : (setWord i x s).alm = s.alm := rfl
@[simp] theorem setWord_own (i : Nat) (x : SrcWord) : (setWord i x s).own = s.own := rfl
@[simp] theorem setWord_mgmt (i : Nat) (x : SrcWord) : (setWord i x s).mgmt = s.mgmt := rfl
@[simp] theorem setWord_shells (i : Nat) (x : SrcWord) : (setWord i x s).shells = s.shells := rfl
@[simp] theorem setWord_gpio (i : Nat) (x : SrcWord) : (setWord i x s).gpio = s.gpio := rfl
@[simp] theorem setWord_msix (i : Nat) (x : SrcWord) : (setWord i x s).msix = s.msix := rfl
@[simp] theorem setWord_beds (i : Nat) (x : SrcWord) : (setWord i x s).beds = s.beds := rfl
@[simp] theorem setWord_arrays (i : Nat) (x : SrcWord) : (setWord i x s).arrays = s.arrays := rfl
@[simp] theorem setWord_rakes (i : Nat) (x : SrcWord) : (setWord i x s).rakes = s.rakes := rfl
@[simp] theorem setWord_coreIo (i : Nat) (x : SrcWord) : (setWord i x s).coreIo = s.coreIo := rfl
@[simp] theorem setWord_cores (i : Nat) (x : SrcWord) : (setWord i x s).cores = s.cores := rfl
@[simp] theorem setWord_dbg (i : Nat) (x : SrcWord) : (setWord i x s).dbg = s.dbg := rfl
@[simp] theorem setWord_mem (i : Nat) (x : SrcWord) : (setWord i x s).mem = s.mem := rfl
@[simp] theorem setWord_cxl (i : Nat) (x : SrcWord) : (setWord i x s).cxl = s.cxl := rfl
@[simp] theorem setWord_d2d (i : Nat) (x : SrcWord) : (setWord i x s).d2d = s.d2d := rfl
@[simp] theorem setWord_ports (i : Nat) (x : SrcWord) : (setWord i x s).ports = s.ports := rfl
@[simp] theorem setWord_cfg (i : Nat) (x : SrcWord) : (setWord i x s).cfg = s.cfg := rfl
@[simp] theorem setWord_bist (i : Nat) (x : SrcWord) : (setWord i x s).bist = s.bist := rfl
@[simp] theorem setWord_start (i : Nat) (x : SrcWord) : (setWord i x s).start = s.start := rfl
@[simp] theorem setWord_board (i : Nat) (x : SrcWord) : (setWord i x s).board = s.board := rfl
@[simp] theorem setWord_answer (i : Nat) (x : SrcWord) : (setWord i x s).answer = s.answer := rfl
@[simp] theorem setWord_free (i : Nat) (x : SrcWord) : (setWord i x s).free = s.free := rfl

@[simp] theorem setLane_time (l : Nat) (x : Lane) : (setLane l x s).time = s.time := rfl
@[simp] theorem setLane_flt (l : Nat) (x : Lane) : (setLane l x s).flt = s.flt := rfl
@[simp] theorem setLane_trl (l : Nat) (x : Lane) : (setLane l x s).trl = s.trl := rfl
@[simp] theorem setLane_trust (l : Nat) (x : Lane) : (setLane l x s).trust = s.trust := rfl
@[simp] theorem setLane_policy (l : Nat) (x : Lane) : (setLane l x s).policy = s.policy := rfl
@[simp] theorem setLane_alm (l : Nat) (x : Lane) : (setLane l x s).alm = s.alm := rfl
@[simp] theorem setLane_own (l : Nat) (x : Lane) : (setLane l x s).own = s.own := rfl
@[simp] theorem setLane_mgmt (l : Nat) (x : Lane) : (setLane l x s).mgmt = s.mgmt := rfl
@[simp] theorem setLane_shells (l : Nat) (x : Lane) : (setLane l x s).shells = s.shells := rfl
@[simp] theorem setLane_gpio (l : Nat) (x : Lane) : (setLane l x s).gpio = s.gpio := rfl
@[simp] theorem setLane_msix (l : Nat) (x : Lane) : (setLane l x s).msix = s.msix := rfl
@[simp] theorem setLane_beds (l : Nat) (x : Lane) : (setLane l x s).beds = s.beds := rfl
@[simp] theorem setLane_arrays (l : Nat) (x : Lane) : (setLane l x s).arrays = s.arrays := rfl
@[simp] theorem setLane_rakes (l : Nat) (x : Lane) : (setLane l x s).rakes = s.rakes := rfl
@[simp] theorem setLane_coreIo (l : Nat) (x : Lane) : (setLane l x s).coreIo = s.coreIo := rfl
@[simp] theorem setLane_cores (l : Nat) (x : Lane) : (setLane l x s).cores = s.cores := rfl
@[simp] theorem setLane_dbg (l : Nat) (x : Lane) : (setLane l x s).dbg = s.dbg := rfl
@[simp] theorem setLane_mem (l : Nat) (x : Lane) : (setLane l x s).mem = s.mem := rfl
@[simp] theorem setLane_cxl (l : Nat) (x : Lane) : (setLane l x s).cxl = s.cxl := rfl
@[simp] theorem setLane_d2d (l : Nat) (x : Lane) : (setLane l x s).d2d = s.d2d := rfl
@[simp] theorem setLane_cfg (l : Nat) (x : Lane) : (setLane l x s).cfg = s.cfg := rfl
@[simp] theorem setLane_bist (l : Nat) (x : Lane) : (setLane l x s).bist = s.bist := rfl
@[simp] theorem setLane_start (l : Nat) (x : Lane) : (setLane l x s).start = s.start := rfl
@[simp] theorem setLane_board (l : Nat) (x : Lane) : (setLane l x s).board = s.board := rfl
@[simp] theorem setLane_answer (l : Nat) (x : Lane) : (setLane l x s).answer = s.answer := rfl
@[simp] theorem setLane_free (l : Nat) (x : Lane) : (setLane l x s).free = s.free := rfl

@[simp] theorem setSub_time (e k : Nat) (x : Subport) : (setSub e k x s).time = s.time := rfl
@[simp] theorem setSub_flt (e k : Nat) (x : Subport) : (setSub e k x s).flt = s.flt := rfl
@[simp] theorem setSub_trl (e k : Nat) (x : Subport) : (setSub e k x s).trl = s.trl := rfl
@[simp] theorem setSub_trust (e k : Nat) (x : Subport) : (setSub e k x s).trust = s.trust := rfl
@[simp] theorem setSub_policy (e k : Nat) (x : Subport) : (setSub e k x s).policy = s.policy := rfl
@[simp] theorem setSub_alm (e k : Nat) (x : Subport) : (setSub e k x s).alm = s.alm := rfl
@[simp] theorem setSub_own (e k : Nat) (x : Subport) : (setSub e k x s).own = s.own := rfl
@[simp] theorem setSub_mgmt (e k : Nat) (x : Subport) : (setSub e k x s).mgmt = s.mgmt := rfl
@[simp] theorem setSub_shells (e k : Nat) (x : Subport) : (setSub e k x s).shells = s.shells := rfl
@[simp] theorem setSub_gpio (e k : Nat) (x : Subport) : (setSub e k x s).gpio = s.gpio := rfl
@[simp] theorem setSub_msix (e k : Nat) (x : Subport) : (setSub e k x s).msix = s.msix := rfl
@[simp] theorem setSub_beds (e k : Nat) (x : Subport) : (setSub e k x s).beds = s.beds := rfl
@[simp] theorem setSub_arrays (e k : Nat) (x : Subport) : (setSub e k x s).arrays = s.arrays := rfl
@[simp] theorem setSub_rakes (e k : Nat) (x : Subport) : (setSub e k x s).rakes = s.rakes := rfl
@[simp] theorem setSub_coreIo (e k : Nat) (x : Subport) : (setSub e k x s).coreIo = s.coreIo := rfl
@[simp] theorem setSub_cores (e k : Nat) (x : Subport) : (setSub e k x s).cores = s.cores := rfl
@[simp] theorem setSub_dbg (e k : Nat) (x : Subport) : (setSub e k x s).dbg = s.dbg := rfl
@[simp] theorem setSub_mem (e k : Nat) (x : Subport) : (setSub e k x s).mem = s.mem := rfl
@[simp] theorem setSub_cxl (e k : Nat) (x : Subport) : (setSub e k x s).cxl = s.cxl := rfl
@[simp] theorem setSub_d2d (e k : Nat) (x : Subport) : (setSub e k x s).d2d = s.d2d := rfl
@[simp] theorem setSub_cfg (e k : Nat) (x : Subport) : (setSub e k x s).cfg = s.cfg := rfl
@[simp] theorem setSub_bist (e k : Nat) (x : Subport) : (setSub e k x s).bist = s.bist := rfl
@[simp] theorem setSub_start (e k : Nat) (x : Subport) : (setSub e k x s).start = s.start := rfl
@[simp] theorem setSub_board (e k : Nat) (x : Subport) : (setSub e k x s).board = s.board := rfl
@[simp] theorem setSub_answer (e k : Nat) (x : Subport) : (setSub e k x s).answer = s.answer := rfl
@[simp] theorem setSub_free (e k : Nat) (x : Subport) : (setSub e k x s).free = s.free := rfl

@[simp] theorem setLink_time (l : Nat) (x : Link) : (setLink l x s).time = s.time := rfl
@[simp] theorem setLink_flt (l : Nat) (x : Link) : (setLink l x s).flt = s.flt := rfl
@[simp] theorem setLink_trl (l : Nat) (x : Link) : (setLink l x s).trl = s.trl := rfl
@[simp] theorem setLink_trust (l : Nat) (x : Link) : (setLink l x s).trust = s.trust := rfl
@[simp] theorem setLink_policy (l : Nat) (x : Link) : (setLink l x s).policy = s.policy := rfl
@[simp] theorem setLink_alm (l : Nat) (x : Link) : (setLink l x s).alm = s.alm := rfl
@[simp] theorem setLink_own (l : Nat) (x : Link) : (setLink l x s).own = s.own := rfl
@[simp] theorem setLink_mgmt (l : Nat) (x : Link) : (setLink l x s).mgmt = s.mgmt := rfl
@[simp] theorem setLink_shells (l : Nat) (x : Link) : (setLink l x s).shells = s.shells := rfl
@[simp] theorem setLink_gpio (l : Nat) (x : Link) : (setLink l x s).gpio = s.gpio := rfl
@[simp] theorem setLink_msix (l : Nat) (x : Link) : (setLink l x s).msix = s.msix := rfl
@[simp] theorem setLink_beds (l : Nat) (x : Link) : (setLink l x s).beds = s.beds := rfl
@[simp] theorem setLink_arrays (l : Nat) (x : Link) : (setLink l x s).arrays = s.arrays := rfl
@[simp] theorem setLink_rakes (l : Nat) (x : Link) : (setLink l x s).rakes = s.rakes := rfl
@[simp] theorem setLink_coreIo (l : Nat) (x : Link) : (setLink l x s).coreIo = s.coreIo := rfl
@[simp] theorem setLink_cores (l : Nat) (x : Link) : (setLink l x s).cores = s.cores := rfl
@[simp] theorem setLink_dbg (l : Nat) (x : Link) : (setLink l x s).dbg = s.dbg := rfl
@[simp] theorem setLink_mem (l : Nat) (x : Link) : (setLink l x s).mem = s.mem := rfl
@[simp] theorem setLink_cxl (l : Nat) (x : Link) : (setLink l x s).cxl = s.cxl := rfl
@[simp] theorem setLink_ports (l : Nat) (x : Link) : (setLink l x s).ports = s.ports := rfl
@[simp] theorem setLink_cfg (l : Nat) (x : Link) : (setLink l x s).cfg = s.cfg := rfl
@[simp] theorem setLink_bist (l : Nat) (x : Link) : (setLink l x s).bist = s.bist := rfl
@[simp] theorem setLink_start (l : Nat) (x : Link) : (setLink l x s).start = s.start := rfl
@[simp] theorem setLink_board (l : Nat) (x : Link) : (setLink l x s).board = s.board := rfl
@[simp] theorem setLink_answer (l : Nat) (x : Link) : (setLink l x s).answer = s.answer := rfl
@[simp] theorem setLink_free (l : Nat) (x : Link) : (setLink l x s).free = s.free := rfl

@[simp] theorem setCh_time (c : Nat) (x : Chan) : (setCh c x s).time = s.time := rfl
@[simp] theorem setCh_flt (c : Nat) (x : Chan) : (setCh c x s).flt = s.flt := rfl
@[simp] theorem setCh_trl (c : Nat) (x : Chan) : (setCh c x s).trl = s.trl := rfl
@[simp] theorem setCh_trust (c : Nat) (x : Chan) : (setCh c x s).trust = s.trust := rfl
@[simp] theorem setCh_policy (c : Nat) (x : Chan) : (setCh c x s).policy = s.policy := rfl
@[simp] theorem setCh_alm (c : Nat) (x : Chan) : (setCh c x s).alm = s.alm := rfl
@[simp] theorem setCh_own (c : Nat) (x : Chan) : (setCh c x s).own = s.own := rfl
@[simp] theorem setCh_mgmt (c : Nat) (x : Chan) : (setCh c x s).mgmt = s.mgmt := rfl
@[simp] theorem setCh_shells (c : Nat) (x : Chan) : (setCh c x s).shells = s.shells := rfl
@[simp] theorem setCh_gpio (c : Nat) (x : Chan) : (setCh c x s).gpio = s.gpio := rfl
@[simp] theorem setCh_msix (c : Nat) (x : Chan) : (setCh c x s).msix = s.msix := rfl
@[simp] theorem setCh_beds (c : Nat) (x : Chan) : (setCh c x s).beds = s.beds := rfl
@[simp] theorem setCh_arrays (c : Nat) (x : Chan) : (setCh c x s).arrays = s.arrays := rfl
@[simp] theorem setCh_rakes (c : Nat) (x : Chan) : (setCh c x s).rakes = s.rakes := rfl
@[simp] theorem setCh_coreIo (c : Nat) (x : Chan) : (setCh c x s).coreIo = s.coreIo := rfl
@[simp] theorem setCh_cores (c : Nat) (x : Chan) : (setCh c x s).cores = s.cores := rfl
@[simp] theorem setCh_dbg (c : Nat) (x : Chan) : (setCh c x s).dbg = s.dbg := rfl
@[simp] theorem setCh_cxl (c : Nat) (x : Chan) : (setCh c x s).cxl = s.cxl := rfl
@[simp] theorem setCh_d2d (c : Nat) (x : Chan) : (setCh c x s).d2d = s.d2d := rfl
@[simp] theorem setCh_ports (c : Nat) (x : Chan) : (setCh c x s).ports = s.ports := rfl
@[simp] theorem setCh_cfg (c : Nat) (x : Chan) : (setCh c x s).cfg = s.cfg := rfl
@[simp] theorem setCh_bist (c : Nat) (x : Chan) : (setCh c x s).bist = s.bist := rfl
@[simp] theorem setCh_start (c : Nat) (x : Chan) : (setCh c x s).start = s.start := rfl
@[simp] theorem setCh_board (c : Nat) (x : Chan) : (setCh c x s).board = s.board := rfl
@[simp] theorem setCh_answer (c : Nat) (x : Chan) : (setCh c x s).answer = s.answer := rfl
@[simp] theorem setCh_free (c : Nat) (x : Chan) : (setCh c x s).free = s.free := rfl

@[simp] theorem setLine_time (c l : Nat) (x : Line) : (setLine c l x s).time = s.time := rfl
@[simp] theorem setLine_flt (c l : Nat) (x : Line) : (setLine c l x s).flt = s.flt := rfl
@[simp] theorem setLine_trl (c l : Nat) (x : Line) : (setLine c l x s).trl = s.trl := rfl
@[simp] theorem setLine_trust (c l : Nat) (x : Line) : (setLine c l x s).trust = s.trust := rfl
@[simp] theorem setLine_policy (c l : Nat) (x : Line) : (setLine c l x s).policy = s.policy := rfl
@[simp] theorem setLine_alm (c l : Nat) (x : Line) : (setLine c l x s).alm = s.alm := rfl
@[simp] theorem setLine_own (c l : Nat) (x : Line) : (setLine c l x s).own = s.own := rfl
@[simp] theorem setLine_mgmt (c l : Nat) (x : Line) : (setLine c l x s).mgmt = s.mgmt := rfl
@[simp] theorem setLine_shells (c l : Nat) (x : Line) : (setLine c l x s).shells = s.shells := rfl
@[simp] theorem setLine_gpio (c l : Nat) (x : Line) : (setLine c l x s).gpio = s.gpio := rfl
@[simp] theorem setLine_msix (c l : Nat) (x : Line) : (setLine c l x s).msix = s.msix := rfl
@[simp] theorem setLine_beds (c l : Nat) (x : Line) : (setLine c l x s).beds = s.beds := rfl
@[simp] theorem setLine_arrays (c l : Nat) (x : Line) : (setLine c l x s).arrays = s.arrays := rfl
@[simp] theorem setLine_rakes (c l : Nat) (x : Line) : (setLine c l x s).rakes = s.rakes := rfl
@[simp] theorem setLine_coreIo (c l : Nat) (x : Line) : (setLine c l x s).coreIo = s.coreIo := rfl
@[simp] theorem setLine_cores (c l : Nat) (x : Line) : (setLine c l x s).cores = s.cores := rfl
@[simp] theorem setLine_dbg (c l : Nat) (x : Line) : (setLine c l x s).dbg = s.dbg := rfl
@[simp] theorem setLine_cxl (c l : Nat) (x : Line) : (setLine c l x s).cxl = s.cxl := rfl
@[simp] theorem setLine_d2d (c l : Nat) (x : Line) : (setLine c l x s).d2d = s.d2d := rfl
@[simp] theorem setLine_ports (c l : Nat) (x : Line) : (setLine c l x s).ports = s.ports := rfl
@[simp] theorem setLine_cfg (c l : Nat) (x : Line) : (setLine c l x s).cfg = s.cfg := rfl
@[simp] theorem setLine_bist (c l : Nat) (x : Line) : (setLine c l x s).bist = s.bist := rfl
@[simp] theorem setLine_start (c l : Nat) (x : Line) : (setLine c l x s).start = s.start := rfl
@[simp] theorem setLine_board (c l : Nat) (x : Line) : (setLine c l x s).board = s.board := rfl
@[simp] theorem setLine_answer (c l : Nat) (x : Line) : (setLine c l x s).answer = s.answer := rfl
@[simp] theorem setLine_free (c l : Nat) (x : Line) : (setLine c l x s).free = s.free := rfl

@[simp] theorem setRegion_time (i : Nat) (x : Region) : (setRegion i x s).time = s.time := rfl
@[simp] theorem setRegion_flt (i : Nat) (x : Region) : (setRegion i x s).flt = s.flt := rfl
@[simp] theorem setRegion_trl (i : Nat) (x : Region) : (setRegion i x s).trl = s.trl := rfl
@[simp] theorem setRegion_trust (i : Nat) (x : Region) : (setRegion i x s).trust = s.trust := rfl
@[simp] theorem setRegion_policy (i : Nat) (x : Region) : (setRegion i x s).policy = s.policy := rfl
@[simp] theorem setRegion_alm (i : Nat) (x : Region) : (setRegion i x s).alm = s.alm := rfl
@[simp] theorem setRegion_own (i : Nat) (x : Region) : (setRegion i x s).own = s.own := rfl
@[simp] theorem setRegion_mgmt (i : Nat) (x : Region) : (setRegion i x s).mgmt = s.mgmt := rfl
@[simp] theorem setRegion_shells (i : Nat) (x : Region) : (setRegion i x s).shells = s.shells := rfl
@[simp] theorem setRegion_gpio (i : Nat) (x : Region) : (setRegion i x s).gpio = s.gpio := rfl
@[simp] theorem setRegion_msix (i : Nat) (x : Region) : (setRegion i x s).msix = s.msix := rfl
@[simp] theorem setRegion_beds (i : Nat) (x : Region) : (setRegion i x s).beds = s.beds := rfl
@[simp] theorem setRegion_arrays (i : Nat) (x : Region) : (setRegion i x s).arrays = s.arrays := rfl
@[simp] theorem setRegion_rakes (i : Nat) (x : Region) : (setRegion i x s).rakes = s.rakes := rfl
@[simp] theorem setRegion_coreIo (i : Nat) (x : Region) : (setRegion i x s).coreIo = s.coreIo := rfl
@[simp] theorem setRegion_cores (i : Nat) (x : Region) : (setRegion i x s).cores = s.cores := rfl
@[simp] theorem setRegion_dbg (i : Nat) (x : Region) : (setRegion i x s).dbg = s.dbg := rfl
@[simp] theorem setRegion_cxl (i : Nat) (x : Region) : (setRegion i x s).cxl = s.cxl := rfl
@[simp] theorem setRegion_d2d (i : Nat) (x : Region) : (setRegion i x s).d2d = s.d2d := rfl
@[simp] theorem setRegion_ports (i : Nat) (x : Region) : (setRegion i x s).ports = s.ports := rfl
@[simp] theorem setRegion_cfg (i : Nat) (x : Region) : (setRegion i x s).cfg = s.cfg := rfl
@[simp] theorem setRegion_bist (i : Nat) (x : Region) : (setRegion i x s).bist = s.bist := rfl
@[simp] theorem setRegion_start (i : Nat) (x : Region) : (setRegion i x s).start = s.start := rfl
@[simp] theorem setRegion_board (i : Nat) (x : Region) : (setRegion i x s).board = s.board := rfl
@[simp] theorem setRegion_answer (i : Nat) (x : Region) : (setRegion i x s).answer = s.answer := rfl
@[simp] theorem setRegion_free (i : Nat) (x : Region) : (setRegion i x s).free = s.free := rfl

@[simp] theorem setKey_time (k : Nat) (x : KeySlot) : (setKey k x s).time = s.time := rfl
@[simp] theorem setKey_flt (k : Nat) (x : KeySlot) : (setKey k x s).flt = s.flt := rfl
@[simp] theorem setKey_trl (k : Nat) (x : KeySlot) : (setKey k x s).trl = s.trl := rfl
@[simp] theorem setKey_trust (k : Nat) (x : KeySlot) : (setKey k x s).trust = s.trust := rfl
@[simp] theorem setKey_policy (k : Nat) (x : KeySlot) : (setKey k x s).policy = s.policy := rfl
@[simp] theorem setKey_alm (k : Nat) (x : KeySlot) : (setKey k x s).alm = s.alm := rfl
@[simp] theorem setKey_own (k : Nat) (x : KeySlot) : (setKey k x s).own = s.own := rfl
@[simp] theorem setKey_mgmt (k : Nat) (x : KeySlot) : (setKey k x s).mgmt = s.mgmt := rfl
@[simp] theorem setKey_shells (k : Nat) (x : KeySlot) : (setKey k x s).shells = s.shells := rfl
@[simp] theorem setKey_gpio (k : Nat) (x : KeySlot) : (setKey k x s).gpio = s.gpio := rfl
@[simp] theorem setKey_msix (k : Nat) (x : KeySlot) : (setKey k x s).msix = s.msix := rfl
@[simp] theorem setKey_beds (k : Nat) (x : KeySlot) : (setKey k x s).beds = s.beds := rfl
@[simp] theorem setKey_arrays (k : Nat) (x : KeySlot) : (setKey k x s).arrays = s.arrays := rfl
@[simp] theorem setKey_rakes (k : Nat) (x : KeySlot) : (setKey k x s).rakes = s.rakes := rfl
@[simp] theorem setKey_coreIo (k : Nat) (x : KeySlot) : (setKey k x s).coreIo = s.coreIo := rfl
@[simp] theorem setKey_cores (k : Nat) (x : KeySlot) : (setKey k x s).cores = s.cores := rfl
@[simp] theorem setKey_dbg (k : Nat) (x : KeySlot) : (setKey k x s).dbg = s.dbg := rfl
@[simp] theorem setKey_cxl (k : Nat) (x : KeySlot) : (setKey k x s).cxl = s.cxl := rfl
@[simp] theorem setKey_d2d (k : Nat) (x : KeySlot) : (setKey k x s).d2d = s.d2d := rfl
@[simp] theorem setKey_ports (k : Nat) (x : KeySlot) : (setKey k x s).ports = s.ports := rfl
@[simp] theorem setKey_cfg (k : Nat) (x : KeySlot) : (setKey k x s).cfg = s.cfg := rfl
@[simp] theorem setKey_bist (k : Nat) (x : KeySlot) : (setKey k x s).bist = s.bist := rfl
@[simp] theorem setKey_start (k : Nat) (x : KeySlot) : (setKey k x s).start = s.start := rfl
@[simp] theorem setKey_board (k : Nat) (x : KeySlot) : (setKey k x s).board = s.board := rfl
@[simp] theorem setKey_answer (k : Nat) (x : KeySlot) : (setKey k x s).answer = s.answer := rfl
@[simp] theorem setKey_free (k : Nat) (x : KeySlot) : (setKey k x s).free = s.free := rfl

@[simp] theorem setCache_time (l : List CacheLine) : (setCache l s).time = s.time := rfl
@[simp] theorem setCache_flt (l : List CacheLine) : (setCache l s).flt = s.flt := rfl
@[simp] theorem setCache_trl (l : List CacheLine) : (setCache l s).trl = s.trl := rfl
@[simp] theorem setCache_trust (l : List CacheLine) : (setCache l s).trust = s.trust := rfl
@[simp] theorem setCache_policy (l : List CacheLine) : (setCache l s).policy = s.policy := rfl
@[simp] theorem setCache_alm (l : List CacheLine) : (setCache l s).alm = s.alm := rfl
@[simp] theorem setCache_own (l : List CacheLine) : (setCache l s).own = s.own := rfl
@[simp] theorem setCache_mgmt (l : List CacheLine) : (setCache l s).mgmt = s.mgmt := rfl
@[simp] theorem setCache_shells (l : List CacheLine) : (setCache l s).shells = s.shells := rfl
@[simp] theorem setCache_gpio (l : List CacheLine) : (setCache l s).gpio = s.gpio := rfl
@[simp] theorem setCache_msix (l : List CacheLine) : (setCache l s).msix = s.msix := rfl
@[simp] theorem setCache_beds (l : List CacheLine) : (setCache l s).beds = s.beds := rfl
@[simp] theorem setCache_arrays (l : List CacheLine) : (setCache l s).arrays = s.arrays := rfl
@[simp] theorem setCache_rakes (l : List CacheLine) : (setCache l s).rakes = s.rakes := rfl
@[simp] theorem setCache_coreIo (l : List CacheLine) : (setCache l s).coreIo = s.coreIo := rfl
@[simp] theorem setCache_cores (l : List CacheLine) : (setCache l s).cores = s.cores := rfl
@[simp] theorem setCache_dbg (l : List CacheLine) : (setCache l s).dbg = s.dbg := rfl
@[simp] theorem setCache_cxl (l : List CacheLine) : (setCache l s).cxl = s.cxl := rfl
@[simp] theorem setCache_d2d (l : List CacheLine) : (setCache l s).d2d = s.d2d := rfl
@[simp] theorem setCache_ports (l : List CacheLine) : (setCache l s).ports = s.ports := rfl
@[simp] theorem setCache_cfg (l : List CacheLine) : (setCache l s).cfg = s.cfg := rfl
@[simp] theorem setCache_bist (l : List CacheLine) : (setCache l s).bist = s.bist := rfl
@[simp] theorem setCache_start (l : List CacheLine) : (setCache l s).start = s.start := rfl
@[simp] theorem setCache_board (l : List CacheLine) : (setCache l s).board = s.board := rfl
@[simp] theorem setCache_answer (l : List CacheLine) : (setCache l s).answer = s.answer := rfl
@[simp] theorem setCache_free (l : List CacheLine) : (setCache l s).free = s.free := rfl

@[simp] theorem setRenewal_time (x : Renewal) : (setRenewal x s).time = s.time := rfl
@[simp] theorem setRenewal_flt (x : Renewal) : (setRenewal x s).flt = s.flt := rfl
@[simp] theorem setRenewal_trl (x : Renewal) : (setRenewal x s).trl = s.trl := rfl
@[simp] theorem setRenewal_trust (x : Renewal) : (setRenewal x s).trust = s.trust := rfl
@[simp] theorem setRenewal_policy (x : Renewal) : (setRenewal x s).policy = s.policy := rfl
@[simp] theorem setRenewal_alm (x : Renewal) : (setRenewal x s).alm = s.alm := rfl
@[simp] theorem setRenewal_own (x : Renewal) : (setRenewal x s).own = s.own := rfl
@[simp] theorem setRenewal_mgmt (x : Renewal) : (setRenewal x s).mgmt = s.mgmt := rfl
@[simp] theorem setRenewal_shells (x : Renewal) : (setRenewal x s).shells = s.shells := rfl
@[simp] theorem setRenewal_gpio (x : Renewal) : (setRenewal x s).gpio = s.gpio := rfl
@[simp] theorem setRenewal_msix (x : Renewal) : (setRenewal x s).msix = s.msix := rfl
@[simp] theorem setRenewal_beds (x : Renewal) : (setRenewal x s).beds = s.beds := rfl
@[simp] theorem setRenewal_arrays (x : Renewal) : (setRenewal x s).arrays = s.arrays := rfl
@[simp] theorem setRenewal_rakes (x : Renewal) : (setRenewal x s).rakes = s.rakes := rfl
@[simp] theorem setRenewal_coreIo (x : Renewal) : (setRenewal x s).coreIo = s.coreIo := rfl
@[simp] theorem setRenewal_cores (x : Renewal) : (setRenewal x s).cores = s.cores := rfl
@[simp] theorem setRenewal_dbg (x : Renewal) : (setRenewal x s).dbg = s.dbg := rfl
@[simp] theorem setRenewal_cxl (x : Renewal) : (setRenewal x s).cxl = s.cxl := rfl
@[simp] theorem setRenewal_d2d (x : Renewal) : (setRenewal x s).d2d = s.d2d := rfl
@[simp] theorem setRenewal_ports (x : Renewal) : (setRenewal x s).ports = s.ports := rfl
@[simp] theorem setRenewal_cfg (x : Renewal) : (setRenewal x s).cfg = s.cfg := rfl
@[simp] theorem setRenewal_bist (x : Renewal) : (setRenewal x s).bist = s.bist := rfl
@[simp] theorem setRenewal_start (x : Renewal) : (setRenewal x s).start = s.start := rfl
@[simp] theorem setRenewal_board (x : Renewal) : (setRenewal x s).board = s.board := rfl
@[simp] theorem setRenewal_answer (x : Renewal) : (setRenewal x s).answer = s.answer := rfl
@[simp] theorem setRenewal_free (x : Renewal) : (setRenewal x s).free = s.free := rfl

@[simp] theorem setStop_time (site n : Nat) (x : StopSt) : (setStop site n x s).time = s.time := rfl
@[simp] theorem setStop_flt (site n : Nat) (x : StopSt) : (setStop site n x s).flt = s.flt := rfl
@[simp] theorem setStop_trust (site n : Nat) (x : StopSt) : (setStop site n x s).trust = s.trust := rfl
@[simp] theorem setStop_policy (site n : Nat) (x : StopSt) : (setStop site n x s).policy = s.policy := rfl
@[simp] theorem setStop_alm (site n : Nat) (x : StopSt) : (setStop site n x s).alm = s.alm := rfl
@[simp] theorem setStop_own (site n : Nat) (x : StopSt) : (setStop site n x s).own = s.own := rfl
@[simp] theorem setStop_mgmt (site n : Nat) (x : StopSt) : (setStop site n x s).mgmt = s.mgmt := rfl
@[simp] theorem setStop_shells (site n : Nat) (x : StopSt) : (setStop site n x s).shells = s.shells := rfl
@[simp] theorem setStop_gpio (site n : Nat) (x : StopSt) : (setStop site n x s).gpio = s.gpio := rfl
@[simp] theorem setStop_msix (site n : Nat) (x : StopSt) : (setStop site n x s).msix = s.msix := rfl
@[simp] theorem setStop_beds (site n : Nat) (x : StopSt) : (setStop site n x s).beds = s.beds := rfl
@[simp] theorem setStop_arrays (site n : Nat) (x : StopSt) : (setStop site n x s).arrays = s.arrays := rfl
@[simp] theorem setStop_rakes (site n : Nat) (x : StopSt) : (setStop site n x s).rakes = s.rakes := rfl
@[simp] theorem setStop_coreIo (site n : Nat) (x : StopSt) : (setStop site n x s).coreIo = s.coreIo := rfl
@[simp] theorem setStop_cores (site n : Nat) (x : StopSt) : (setStop site n x s).cores = s.cores := rfl
@[simp] theorem setStop_dbg (site n : Nat) (x : StopSt) : (setStop site n x s).dbg = s.dbg := rfl
@[simp] theorem setStop_mem (site n : Nat) (x : StopSt) : (setStop site n x s).mem = s.mem := rfl
@[simp] theorem setStop_cxl (site n : Nat) (x : StopSt) : (setStop site n x s).cxl = s.cxl := rfl
@[simp] theorem setStop_d2d (site n : Nat) (x : StopSt) : (setStop site n x s).d2d = s.d2d := rfl
@[simp] theorem setStop_ports (site n : Nat) (x : StopSt) : (setStop site n x s).ports = s.ports := rfl
@[simp] theorem setStop_cfg (site n : Nat) (x : StopSt) : (setStop site n x s).cfg = s.cfg := rfl
@[simp] theorem setStop_bist (site n : Nat) (x : StopSt) : (setStop site n x s).bist = s.bist := rfl
@[simp] theorem setStop_start (site n : Nat) (x : StopSt) : (setStop site n x s).start = s.start := rfl
@[simp] theorem setStop_board (site n : Nat) (x : StopSt) : (setStop site n x s).board = s.board := rfl
@[simp] theorem setStop_answer (site n : Nat) (x : StopSt) : (setStop site n x s).answer = s.answer := rfl
@[simp] theorem setStop_free (site n : Nat) (x : StopSt) : (setStop site n x s).free = s.free := rfl

@[simp] theorem setRings_time (i : Site) (f : Rings → Rings) : (setRings i f s).time = s.time := by cases i <;> rfl
@[simp] theorem setRings_flt (i : Site) (f : Rings → Rings) : (setRings i f s).flt = s.flt := by cases i <;> rfl
@[simp] theorem setRings_trust (i : Site) (f : Rings → Rings) : (setRings i f s).trust = s.trust := by cases i <;> rfl
@[simp] theorem setRings_policy (i : Site) (f : Rings → Rings) : (setRings i f s).policy = s.policy := by cases i <;> rfl
@[simp] theorem setRings_alm (i : Site) (f : Rings → Rings) : (setRings i f s).alm = s.alm := by cases i <;> rfl
@[simp] theorem setRings_own (i : Site) (f : Rings → Rings) : (setRings i f s).own = s.own := by cases i <;> rfl
@[simp] theorem setRings_mgmt (i : Site) (f : Rings → Rings) : (setRings i f s).mgmt = s.mgmt := by cases i <;> rfl
@[simp] theorem setRings_shells (i : Site) (f : Rings → Rings) : (setRings i f s).shells = s.shells := by cases i <;> rfl
@[simp] theorem setRings_gpio (i : Site) (f : Rings → Rings) : (setRings i f s).gpio = s.gpio := by cases i <;> rfl
@[simp] theorem setRings_msix (i : Site) (f : Rings → Rings) : (setRings i f s).msix = s.msix := by cases i <;> rfl
@[simp] theorem setRings_beds (i : Site) (f : Rings → Rings) : (setRings i f s).beds = s.beds := by cases i <;> rfl
@[simp] theorem setRings_arrays (i : Site) (f : Rings → Rings) : (setRings i f s).arrays = s.arrays := by cases i <;> rfl
@[simp] theorem setRings_rakes (i : Site) (f : Rings → Rings) : (setRings i f s).rakes = s.rakes := by cases i <;> rfl
@[simp] theorem setRings_coreIo (i : Site) (f : Rings → Rings) : (setRings i f s).coreIo = s.coreIo := by cases i <;> rfl
@[simp] theorem setRings_cores (i : Site) (f : Rings → Rings) : (setRings i f s).cores = s.cores := by cases i <;> rfl
@[simp] theorem setRings_dbg (i : Site) (f : Rings → Rings) : (setRings i f s).dbg = s.dbg := by cases i <;> rfl
@[simp] theorem setRings_mem (i : Site) (f : Rings → Rings) : (setRings i f s).mem = s.mem := by cases i <;> rfl
@[simp] theorem setRings_cxl (i : Site) (f : Rings → Rings) : (setRings i f s).cxl = s.cxl := by cases i <;> rfl
@[simp] theorem setRings_d2d (i : Site) (f : Rings → Rings) : (setRings i f s).d2d = s.d2d := by cases i <;> rfl
@[simp] theorem setRings_ports (i : Site) (f : Rings → Rings) : (setRings i f s).ports = s.ports := by cases i <;> rfl
@[simp] theorem setRings_cfg (i : Site) (f : Rings → Rings) : (setRings i f s).cfg = s.cfg := by cases i <;> rfl
@[simp] theorem setRings_bist (i : Site) (f : Rings → Rings) : (setRings i f s).bist = s.bist := by cases i <;> rfl
@[simp] theorem setRings_start (i : Site) (f : Rings → Rings) : (setRings i f s).start = s.start := by cases i <;> rfl
@[simp] theorem setRings_board (i : Site) (f : Rings → Rings) : (setRings i f s).board = s.board := by cases i <;> rfl
@[simp] theorem setRings_answer (i : Site) (f : Rings → Rings) : (setRings i f s).answer = s.answer := by cases i <;> rfl
@[simp] theorem setRings_free (i : Site) (f : Rings → Rings) : (setRings i f s).free = s.free := by cases i <;> rfl

@[simp] theorem setLeg_time (g : Leg) : (setLeg g s).time = s.time := rfl
@[simp] theorem setLeg_flt (g : Leg) : (setLeg g s).flt = s.flt := rfl
@[simp] theorem setLeg_trust (g : Leg) : (setLeg g s).trust = s.trust := rfl
@[simp] theorem setLeg_policy (g : Leg) : (setLeg g s).policy = s.policy := rfl
@[simp] theorem setLeg_alm (g : Leg) : (setLeg g s).alm = s.alm := rfl
@[simp] theorem setLeg_own (g : Leg) : (setLeg g s).own = s.own := rfl
@[simp] theorem setLeg_mgmt (g : Leg) : (setLeg g s).mgmt = s.mgmt := rfl
@[simp] theorem setLeg_shells (g : Leg) : (setLeg g s).shells = s.shells := rfl
@[simp] theorem setLeg_gpio (g : Leg) : (setLeg g s).gpio = s.gpio := rfl
@[simp] theorem setLeg_msix (g : Leg) : (setLeg g s).msix = s.msix := rfl
@[simp] theorem setLeg_beds (g : Leg) : (setLeg g s).beds = s.beds := rfl
@[simp] theorem setLeg_arrays (g : Leg) : (setLeg g s).arrays = s.arrays := rfl
@[simp] theorem setLeg_rakes (g : Leg) : (setLeg g s).rakes = s.rakes := rfl
@[simp] theorem setLeg_coreIo (g : Leg) : (setLeg g s).coreIo = s.coreIo := rfl
@[simp] theorem setLeg_cores (g : Leg) : (setLeg g s).cores = s.cores := rfl
@[simp] theorem setLeg_dbg (g : Leg) : (setLeg g s).dbg = s.dbg := rfl
@[simp] theorem setLeg_mem (g : Leg) : (setLeg g s).mem = s.mem := rfl
@[simp] theorem setLeg_cxl (g : Leg) : (setLeg g s).cxl = s.cxl := rfl
@[simp] theorem setLeg_d2d (g : Leg) : (setLeg g s).d2d = s.d2d := rfl
@[simp] theorem setLeg_ports (g : Leg) : (setLeg g s).ports = s.ports := rfl
@[simp] theorem setLeg_cfg (g : Leg) : (setLeg g s).cfg = s.cfg := rfl
@[simp] theorem setLeg_bist (g : Leg) : (setLeg g s).bist = s.bist := rfl
@[simp] theorem setLeg_start (g : Leg) : (setLeg g s).start = s.start := rfl
@[simp] theorem setLeg_board (g : Leg) : (setLeg g s).board = s.board := rfl
@[simp] theorem setLeg_answer (g : Leg) : (setLeg g s).answer = s.answer := rfl
@[simp] theorem setLeg_free (g : Leg) : (setLeg g s).free = s.free := rfl

@[simp] theorem addLeg_time (g : Leg) : (addLeg g s).time = s.time := rfl
@[simp] theorem addLeg_flt (g : Leg) : (addLeg g s).flt = s.flt := rfl
@[simp] theorem addLeg_trust (g : Leg) : (addLeg g s).trust = s.trust := rfl
@[simp] theorem addLeg_policy (g : Leg) : (addLeg g s).policy = s.policy := rfl
@[simp] theorem addLeg_alm (g : Leg) : (addLeg g s).alm = s.alm := rfl
@[simp] theorem addLeg_own (g : Leg) : (addLeg g s).own = s.own := rfl
@[simp] theorem addLeg_mgmt (g : Leg) : (addLeg g s).mgmt = s.mgmt := rfl
@[simp] theorem addLeg_shells (g : Leg) : (addLeg g s).shells = s.shells := rfl
@[simp] theorem addLeg_gpio (g : Leg) : (addLeg g s).gpio = s.gpio := rfl
@[simp] theorem addLeg_msix (g : Leg) : (addLeg g s).msix = s.msix := rfl
@[simp] theorem addLeg_beds (g : Leg) : (addLeg g s).beds = s.beds := rfl
@[simp] theorem addLeg_arrays (g : Leg) : (addLeg g s).arrays = s.arrays := rfl
@[simp] theorem addLeg_rakes (g : Leg) : (addLeg g s).rakes = s.rakes := rfl
@[simp] theorem addLeg_coreIo (g : Leg) : (addLeg g s).coreIo = s.coreIo := rfl
@[simp] theorem addLeg_cores (g : Leg) : (addLeg g s).cores = s.cores := rfl
@[simp] theorem addLeg_dbg (g : Leg) : (addLeg g s).dbg = s.dbg := rfl
@[simp] theorem addLeg_mem (g : Leg) : (addLeg g s).mem = s.mem := rfl
@[simp] theorem addLeg_cxl (g : Leg) : (addLeg g s).cxl = s.cxl := rfl
@[simp] theorem addLeg_d2d (g : Leg) : (addLeg g s).d2d = s.d2d := rfl
@[simp] theorem addLeg_ports (g : Leg) : (addLeg g s).ports = s.ports := rfl
@[simp] theorem addLeg_cfg (g : Leg) : (addLeg g s).cfg = s.cfg := rfl
@[simp] theorem addLeg_bist (g : Leg) : (addLeg g s).bist = s.bist := rfl
@[simp] theorem addLeg_start (g : Leg) : (addLeg g s).start = s.start := rfl
@[simp] theorem addLeg_board (g : Leg) : (addLeg g s).board = s.board := rfl
@[simp] theorem addLeg_answer (g : Leg) : (addLeg g s).answer = s.answer := rfl
@[simp] theorem addLeg_free (g : Leg) : (addLeg g s).free = s.free := rfl

@[simp] theorem dropLeg_time (i : Nat) : (dropLeg i s).time = s.time := rfl
@[simp] theorem dropLeg_flt (i : Nat) : (dropLeg i s).flt = s.flt := rfl
@[simp] theorem dropLeg_trust (i : Nat) : (dropLeg i s).trust = s.trust := rfl
@[simp] theorem dropLeg_policy (i : Nat) : (dropLeg i s).policy = s.policy := rfl
@[simp] theorem dropLeg_alm (i : Nat) : (dropLeg i s).alm = s.alm := rfl
@[simp] theorem dropLeg_own (i : Nat) : (dropLeg i s).own = s.own := rfl
@[simp] theorem dropLeg_mgmt (i : Nat) : (dropLeg i s).mgmt = s.mgmt := rfl
@[simp] theorem dropLeg_shells (i : Nat) : (dropLeg i s).shells = s.shells := rfl
@[simp] theorem dropLeg_gpio (i : Nat) : (dropLeg i s).gpio = s.gpio := rfl
@[simp] theorem dropLeg_msix (i : Nat) : (dropLeg i s).msix = s.msix := rfl
@[simp] theorem dropLeg_beds (i : Nat) : (dropLeg i s).beds = s.beds := rfl
@[simp] theorem dropLeg_arrays (i : Nat) : (dropLeg i s).arrays = s.arrays := rfl
@[simp] theorem dropLeg_rakes (i : Nat) : (dropLeg i s).rakes = s.rakes := rfl
@[simp] theorem dropLeg_coreIo (i : Nat) : (dropLeg i s).coreIo = s.coreIo := rfl
@[simp] theorem dropLeg_cores (i : Nat) : (dropLeg i s).cores = s.cores := rfl
@[simp] theorem dropLeg_dbg (i : Nat) : (dropLeg i s).dbg = s.dbg := rfl
@[simp] theorem dropLeg_mem (i : Nat) : (dropLeg i s).mem = s.mem := rfl
@[simp] theorem dropLeg_cxl (i : Nat) : (dropLeg i s).cxl = s.cxl := rfl
@[simp] theorem dropLeg_d2d (i : Nat) : (dropLeg i s).d2d = s.d2d := rfl
@[simp] theorem dropLeg_ports (i : Nat) : (dropLeg i s).ports = s.ports := rfl
@[simp] theorem dropLeg_cfg (i : Nat) : (dropLeg i s).cfg = s.cfg := rfl
@[simp] theorem dropLeg_bist (i : Nat) : (dropLeg i s).bist = s.bist := rfl
@[simp] theorem dropLeg_start (i : Nat) : (dropLeg i s).start = s.start := rfl
@[simp] theorem dropLeg_board (i : Nat) : (dropLeg i s).board = s.board := rfl
@[simp] theorem dropLeg_answer (i : Nat) : (dropLeg i s).answer = s.answer := rfl
@[simp] theorem dropLeg_free (i : Nat) : (dropLeg i s).free = s.free := rfl

@[simp] theorem putSlot_time (x : Slot) : (putSlot x s).time = s.time := rfl
@[simp] theorem putSlot_flt (x : Slot) : (putSlot x s).flt = s.flt := rfl
@[simp] theorem putSlot_trust (x : Slot) : (putSlot x s).trust = s.trust := rfl
@[simp] theorem putSlot_policy (x : Slot) : (putSlot x s).policy = s.policy := rfl
@[simp] theorem putSlot_alm (x : Slot) : (putSlot x s).alm = s.alm := rfl
@[simp] theorem putSlot_own (x : Slot) : (putSlot x s).own = s.own := rfl
@[simp] theorem putSlot_mgmt (x : Slot) : (putSlot x s).mgmt = s.mgmt := rfl
@[simp] theorem putSlot_shells (x : Slot) : (putSlot x s).shells = s.shells := rfl
@[simp] theorem putSlot_gpio (x : Slot) : (putSlot x s).gpio = s.gpio := rfl
@[simp] theorem putSlot_msix (x : Slot) : (putSlot x s).msix = s.msix := rfl
@[simp] theorem putSlot_beds (x : Slot) : (putSlot x s).beds = s.beds := rfl
@[simp] theorem putSlot_arrays (x : Slot) : (putSlot x s).arrays = s.arrays := rfl
@[simp] theorem putSlot_rakes (x : Slot) : (putSlot x s).rakes = s.rakes := rfl
@[simp] theorem putSlot_coreIo (x : Slot) : (putSlot x s).coreIo = s.coreIo := rfl
@[simp] theorem putSlot_cores (x : Slot) : (putSlot x s).cores = s.cores := rfl
@[simp] theorem putSlot_dbg (x : Slot) : (putSlot x s).dbg = s.dbg := rfl
@[simp] theorem putSlot_mem (x : Slot) : (putSlot x s).mem = s.mem := rfl
@[simp] theorem putSlot_cxl (x : Slot) : (putSlot x s).cxl = s.cxl := rfl
@[simp] theorem putSlot_d2d (x : Slot) : (putSlot x s).d2d = s.d2d := rfl
@[simp] theorem putSlot_ports (x : Slot) : (putSlot x s).ports = s.ports := rfl
@[simp] theorem putSlot_cfg (x : Slot) : (putSlot x s).cfg = s.cfg := rfl
@[simp] theorem putSlot_bist (x : Slot) : (putSlot x s).bist = s.bist := rfl
@[simp] theorem putSlot_start (x : Slot) : (putSlot x s).start = s.start := rfl
@[simp] theorem putSlot_board (x : Slot) : (putSlot x s).board = s.board := rfl
@[simp] theorem putSlot_answer (x : Slot) : (putSlot x s).answer = s.answer := rfl
@[simp] theorem putSlot_free (x : Slot) : (putSlot x s).free = s.free := rfl

@[simp] theorem opPlot_time (k p : Nat) : (opPlot k p s).time = s.time := rfl
@[simp] theorem opPlot_flt (k p : Nat) : (opPlot k p s).flt = s.flt := rfl
@[simp] theorem opPlot_trust (k p : Nat) : (opPlot k p s).trust = s.trust := rfl
@[simp] theorem opPlot_policy (k p : Nat) : (opPlot k p s).policy = s.policy := rfl
@[simp] theorem opPlot_alm (k p : Nat) : (opPlot k p s).alm = s.alm := rfl
@[simp] theorem opPlot_own (k p : Nat) : (opPlot k p s).own = s.own := rfl
@[simp] theorem opPlot_mgmt (k p : Nat) : (opPlot k p s).mgmt = s.mgmt := rfl
@[simp] theorem opPlot_shells (k p : Nat) : (opPlot k p s).shells = s.shells := rfl
@[simp] theorem opPlot_gpio (k p : Nat) : (opPlot k p s).gpio = s.gpio := rfl
@[simp] theorem opPlot_msix (k p : Nat) : (opPlot k p s).msix = s.msix := rfl
@[simp] theorem opPlot_beds (k p : Nat) : (opPlot k p s).beds = s.beds := rfl
@[simp] theorem opPlot_arrays (k p : Nat) : (opPlot k p s).arrays = s.arrays := rfl
@[simp] theorem opPlot_rakes (k p : Nat) : (opPlot k p s).rakes = s.rakes := rfl
@[simp] theorem opPlot_coreIo (k p : Nat) : (opPlot k p s).coreIo = s.coreIo := rfl
@[simp] theorem opPlot_cores (k p : Nat) : (opPlot k p s).cores = s.cores := rfl
@[simp] theorem opPlot_dbg (k p : Nat) : (opPlot k p s).dbg = s.dbg := rfl
@[simp] theorem opPlot_mem (k p : Nat) : (opPlot k p s).mem = s.mem := rfl
@[simp] theorem opPlot_cxl (k p : Nat) : (opPlot k p s).cxl = s.cxl := rfl
@[simp] theorem opPlot_d2d (k p : Nat) : (opPlot k p s).d2d = s.d2d := rfl
@[simp] theorem opPlot_ports (k p : Nat) : (opPlot k p s).ports = s.ports := rfl
@[simp] theorem opPlot_cfg (k p : Nat) : (opPlot k p s).cfg = s.cfg := rfl
@[simp] theorem opPlot_bist (k p : Nat) : (opPlot k p s).bist = s.bist := rfl
@[simp] theorem opPlot_start (k p : Nat) : (opPlot k p s).start = s.start := rfl
@[simp] theorem opPlot_board (k p : Nat) : (opPlot k p s).board = s.board := rfl
@[simp] theorem opPlot_answer (k p : Nat) : (opPlot k p s).answer = s.answer := rfl
@[simp] theorem opPlot_free (k p : Nat) : (opPlot k p s).free = s.free := rfl

@[simp] theorem setTiller_time (e : Nat) (x : Tiller) : (setTiller e x s).time = s.time := rfl
@[simp] theorem setTiller_flt (e : Nat) (x : Tiller) : (setTiller e x s).flt = s.flt := rfl
@[simp] theorem setTiller_trl (e : Nat) (x : Tiller) : (setTiller e x s).trl = s.trl := rfl
@[simp] theorem setTiller_trust (e : Nat) (x : Tiller) : (setTiller e x s).trust = s.trust := rfl
@[simp] theorem setTiller_policy (e : Nat) (x : Tiller) : (setTiller e x s).policy = s.policy := rfl
@[simp] theorem setTiller_alm (e : Nat) (x : Tiller) : (setTiller e x s).alm = s.alm := rfl
@[simp] theorem setTiller_own (e : Nat) (x : Tiller) : (setTiller e x s).own = s.own := rfl
@[simp] theorem setTiller_mgmt (e : Nat) (x : Tiller) : (setTiller e x s).mgmt = s.mgmt := rfl
@[simp] theorem setTiller_shells (e : Nat) (x : Tiller) : (setTiller e x s).shells = s.shells := rfl
@[simp] theorem setTiller_gpio (e : Nat) (x : Tiller) : (setTiller e x s).gpio = s.gpio := rfl
@[simp] theorem setTiller_msix (e : Nat) (x : Tiller) : (setTiller e x s).msix = s.msix := rfl
@[simp] theorem setTiller_beds (e : Nat) (x : Tiller) : (setTiller e x s).beds = s.beds := rfl
@[simp] theorem setTiller_arrays (e : Nat) (x : Tiller) : (setTiller e x s).arrays = s.arrays := rfl
@[simp] theorem setTiller_rakes (e : Nat) (x : Tiller) : (setTiller e x s).rakes = s.rakes := rfl
@[simp] theorem setTiller_coreIo (e : Nat) (x : Tiller) : (setTiller e x s).coreIo = s.coreIo := rfl
@[simp] theorem setTiller_cores (e : Nat) (x : Tiller) : (setTiller e x s).cores = s.cores := rfl
@[simp] theorem setTiller_dbg (e : Nat) (x : Tiller) : (setTiller e x s).dbg = s.dbg := rfl
@[simp] theorem setTiller_cxl (e : Nat) (x : Tiller) : (setTiller e x s).cxl = s.cxl := rfl
@[simp] theorem setTiller_d2d (e : Nat) (x : Tiller) : (setTiller e x s).d2d = s.d2d := rfl
@[simp] theorem setTiller_ports (e : Nat) (x : Tiller) : (setTiller e x s).ports = s.ports := rfl
@[simp] theorem setTiller_cfg (e : Nat) (x : Tiller) : (setTiller e x s).cfg = s.cfg := rfl
@[simp] theorem setTiller_bist (e : Nat) (x : Tiller) : (setTiller e x s).bist = s.bist := rfl
@[simp] theorem setTiller_start (e : Nat) (x : Tiller) : (setTiller e x s).start = s.start := rfl
@[simp] theorem setTiller_board (e : Nat) (x : Tiller) : (setTiller e x s).board = s.board := rfl
@[simp] theorem setTiller_answer (e : Nat) (x : Tiller) : (setTiller e x s).answer = s.answer := rfl
@[simp] theorem setTiller_free (e : Nat) (x : Tiller) : (setTiller e x s).free = s.free := rfl

@[simp] theorem setSes_time (k : Nat) (x : Option CfgSes) : (setSes k x s).time = s.time := rfl
@[simp] theorem setSes_flt (k : Nat) (x : Option CfgSes) : (setSes k x s).flt = s.flt := rfl
@[simp] theorem setSes_trl (k : Nat) (x : Option CfgSes) : (setSes k x s).trl = s.trl := rfl
@[simp] theorem setSes_trust (k : Nat) (x : Option CfgSes) : (setSes k x s).trust = s.trust := rfl
@[simp] theorem setSes_policy (k : Nat) (x : Option CfgSes) : (setSes k x s).policy = s.policy := rfl
@[simp] theorem setSes_alm (k : Nat) (x : Option CfgSes) : (setSes k x s).alm = s.alm := rfl
@[simp] theorem setSes_own (k : Nat) (x : Option CfgSes) : (setSes k x s).own = s.own := rfl
@[simp] theorem setSes_mgmt (k : Nat) (x : Option CfgSes) : (setSes k x s).mgmt = s.mgmt := rfl
@[simp] theorem setSes_shells (k : Nat) (x : Option CfgSes) : (setSes k x s).shells = s.shells := rfl
@[simp] theorem setSes_gpio (k : Nat) (x : Option CfgSes) : (setSes k x s).gpio = s.gpio := rfl
@[simp] theorem setSes_msix (k : Nat) (x : Option CfgSes) : (setSes k x s).msix = s.msix := rfl
@[simp] theorem setSes_beds (k : Nat) (x : Option CfgSes) : (setSes k x s).beds = s.beds := rfl
@[simp] theorem setSes_arrays (k : Nat) (x : Option CfgSes) : (setSes k x s).arrays = s.arrays := rfl
@[simp] theorem setSes_rakes (k : Nat) (x : Option CfgSes) : (setSes k x s).rakes = s.rakes := rfl
@[simp] theorem setSes_coreIo (k : Nat) (x : Option CfgSes) : (setSes k x s).coreIo = s.coreIo := rfl
@[simp] theorem setSes_cores (k : Nat) (x : Option CfgSes) : (setSes k x s).cores = s.cores := rfl
@[simp] theorem setSes_dbg (k : Nat) (x : Option CfgSes) : (setSes k x s).dbg = s.dbg := rfl
@[simp] theorem setSes_mem (k : Nat) (x : Option CfgSes) : (setSes k x s).mem = s.mem := rfl
@[simp] theorem setSes_cxl (k : Nat) (x : Option CfgSes) : (setSes k x s).cxl = s.cxl := rfl
@[simp] theorem setSes_d2d (k : Nat) (x : Option CfgSes) : (setSes k x s).d2d = s.d2d := rfl
@[simp] theorem setSes_ports (k : Nat) (x : Option CfgSes) : (setSes k x s).ports = s.ports := rfl
@[simp] theorem setSes_bist (k : Nat) (x : Option CfgSes) : (setSes k x s).bist = s.bist := rfl
@[simp] theorem setSes_start (k : Nat) (x : Option CfgSes) : (setSes k x s).start = s.start := rfl
@[simp] theorem setSes_board (k : Nat) (x : Option CfgSes) : (setSes k x s).board = s.board := rfl
@[simp] theorem setSes_answer (k : Nat) (x : Option CfgSes) : (setSes k x s).answer = s.answer := rfl
@[simp] theorem setSes_free (k : Nat) (x : Option CfgSes) : (setSes k x s).free = s.free := rfl

@[simp] theorem setIde_time (k : Nat) (x : Ide) : (setIde k x s).time = s.time := rfl
@[simp] theorem setIde_flt (k : Nat) (x : Ide) : (setIde k x s).flt = s.flt := rfl
@[simp] theorem setIde_trl (k : Nat) (x : Ide) : (setIde k x s).trl = s.trl := rfl
@[simp] theorem setIde_trust (k : Nat) (x : Ide) : (setIde k x s).trust = s.trust := rfl
@[simp] theorem setIde_policy (k : Nat) (x : Ide) : (setIde k x s).policy = s.policy := rfl
@[simp] theorem setIde_alm (k : Nat) (x : Ide) : (setIde k x s).alm = s.alm := rfl
@[simp] theorem setIde_own (k : Nat) (x : Ide) : (setIde k x s).own = s.own := rfl
@[simp] theorem setIde_mgmt (k : Nat) (x : Ide) : (setIde k x s).mgmt = s.mgmt := rfl
@[simp] theorem setIde_shells (k : Nat) (x : Ide) : (setIde k x s).shells = s.shells := rfl
@[simp] theorem setIde_gpio (k : Nat) (x : Ide) : (setIde k x s).gpio = s.gpio := rfl
@[simp] theorem setIde_msix (k : Nat) (x : Ide) : (setIde k x s).msix = s.msix := rfl
@[simp] theorem setIde_beds (k : Nat) (x : Ide) : (setIde k x s).beds = s.beds := rfl
@[simp] theorem setIde_arrays (k : Nat) (x : Ide) : (setIde k x s).arrays = s.arrays := rfl
@[simp] theorem setIde_rakes (k : Nat) (x : Ide) : (setIde k x s).rakes = s.rakes := rfl
@[simp] theorem setIde_coreIo (k : Nat) (x : Ide) : (setIde k x s).coreIo = s.coreIo := rfl
@[simp] theorem setIde_cores (k : Nat) (x : Ide) : (setIde k x s).cores = s.cores := rfl
@[simp] theorem setIde_dbg (k : Nat) (x : Ide) : (setIde k x s).dbg = s.dbg := rfl
@[simp] theorem setIde_mem (k : Nat) (x : Ide) : (setIde k x s).mem = s.mem := rfl
@[simp] theorem setIde_d2d (k : Nat) (x : Ide) : (setIde k x s).d2d = s.d2d := rfl
@[simp] theorem setIde_ports (k : Nat) (x : Ide) : (setIde k x s).ports = s.ports := rfl
@[simp] theorem setIde_cfg (k : Nat) (x : Ide) : (setIde k x s).cfg = s.cfg := rfl
@[simp] theorem setIde_bist (k : Nat) (x : Ide) : (setIde k x s).bist = s.bist := rfl
@[simp] theorem setIde_start (k : Nat) (x : Ide) : (setIde k x s).start = s.start := rfl
@[simp] theorem setIde_board (k : Nat) (x : Ide) : (setIde k x s).board = s.board := rfl
@[simp] theorem setIde_answer (k : Nat) (x : Ide) : (setIde k x s).answer = s.answer := rfl
@[simp] theorem setIde_free (k : Nat) (x : Ide) : (setIde k x s).free = s.free := rfl

@[simp] theorem modDbg_time (f : Dbg → Dbg) : (modDbg f s).time = s.time := rfl
@[simp] theorem modDbg_flt (f : Dbg → Dbg) : (modDbg f s).flt = s.flt := rfl
@[simp] theorem modDbg_trl (f : Dbg → Dbg) : (modDbg f s).trl = s.trl := rfl
@[simp] theorem modDbg_trust (f : Dbg → Dbg) : (modDbg f s).trust = s.trust := rfl
@[simp] theorem modDbg_policy (f : Dbg → Dbg) : (modDbg f s).policy = s.policy := rfl
@[simp] theorem modDbg_alm (f : Dbg → Dbg) : (modDbg f s).alm = s.alm := rfl
@[simp] theorem modDbg_own (f : Dbg → Dbg) : (modDbg f s).own = s.own := rfl
@[simp] theorem modDbg_mgmt (f : Dbg → Dbg) : (modDbg f s).mgmt = s.mgmt := rfl
@[simp] theorem modDbg_shells (f : Dbg → Dbg) : (modDbg f s).shells = s.shells := rfl
@[simp] theorem modDbg_gpio (f : Dbg → Dbg) : (modDbg f s).gpio = s.gpio := rfl
@[simp] theorem modDbg_msix (f : Dbg → Dbg) : (modDbg f s).msix = s.msix := rfl
@[simp] theorem modDbg_beds (f : Dbg → Dbg) : (modDbg f s).beds = s.beds := rfl
@[simp] theorem modDbg_arrays (f : Dbg → Dbg) : (modDbg f s).arrays = s.arrays := rfl
@[simp] theorem modDbg_rakes (f : Dbg → Dbg) : (modDbg f s).rakes = s.rakes := rfl
@[simp] theorem modDbg_coreIo (f : Dbg → Dbg) : (modDbg f s).coreIo = s.coreIo := rfl
@[simp] theorem modDbg_cores (f : Dbg → Dbg) : (modDbg f s).cores = s.cores := rfl
@[simp] theorem modDbg_mem (f : Dbg → Dbg) : (modDbg f s).mem = s.mem := rfl
@[simp] theorem modDbg_cxl (f : Dbg → Dbg) : (modDbg f s).cxl = s.cxl := rfl
@[simp] theorem modDbg_d2d (f : Dbg → Dbg) : (modDbg f s).d2d = s.d2d := rfl
@[simp] theorem modDbg_ports (f : Dbg → Dbg) : (modDbg f s).ports = s.ports := rfl
@[simp] theorem modDbg_cfg (f : Dbg → Dbg) : (modDbg f s).cfg = s.cfg := rfl
@[simp] theorem modDbg_bist (f : Dbg → Dbg) : (modDbg f s).bist = s.bist := rfl
@[simp] theorem modDbg_start (f : Dbg → Dbg) : (modDbg f s).start = s.start := rfl
@[simp] theorem modDbg_board (f : Dbg → Dbg) : (modDbg f s).board = s.board := rfl
@[simp] theorem modDbg_answer (f : Dbg → Dbg) : (modDbg f s).answer = s.answer := rfl
@[simp] theorem modDbg_free (f : Dbg → Dbg) : (modDbg f s).free = s.free := rfl

@[simp] theorem modStart_time (f : Startup → Startup) : (modStart f s).time = s.time := rfl
@[simp] theorem modStart_flt (f : Startup → Startup) : (modStart f s).flt = s.flt := rfl
@[simp] theorem modStart_trl (f : Startup → Startup) : (modStart f s).trl = s.trl := rfl
@[simp] theorem modStart_trust (f : Startup → Startup) : (modStart f s).trust = s.trust := rfl
@[simp] theorem modStart_policy (f : Startup → Startup) : (modStart f s).policy = s.policy := rfl
@[simp] theorem modStart_alm (f : Startup → Startup) : (modStart f s).alm = s.alm := rfl
@[simp] theorem modStart_own (f : Startup → Startup) : (modStart f s).own = s.own := rfl
@[simp] theorem modStart_mgmt (f : Startup → Startup) : (modStart f s).mgmt = s.mgmt := rfl
@[simp] theorem modStart_shells (f : Startup → Startup) : (modStart f s).shells = s.shells := rfl
@[simp] theorem modStart_gpio (f : Startup → Startup) : (modStart f s).gpio = s.gpio := rfl
@[simp] theorem modStart_msix (f : Startup → Startup) : (modStart f s).msix = s.msix := rfl
@[simp] theorem modStart_beds (f : Startup → Startup) : (modStart f s).beds = s.beds := rfl
@[simp] theorem modStart_arrays (f : Startup → Startup) : (modStart f s).arrays = s.arrays := rfl
@[simp] theorem modStart_rakes (f : Startup → Startup) : (modStart f s).rakes = s.rakes := rfl
@[simp] theorem modStart_coreIo (f : Startup → Startup) : (modStart f s).coreIo = s.coreIo := rfl
@[simp] theorem modStart_cores (f : Startup → Startup) : (modStart f s).cores = s.cores := rfl
@[simp] theorem modStart_dbg (f : Startup → Startup) : (modStart f s).dbg = s.dbg := rfl
@[simp] theorem modStart_mem (f : Startup → Startup) : (modStart f s).mem = s.mem := rfl
@[simp] theorem modStart_cxl (f : Startup → Startup) : (modStart f s).cxl = s.cxl := rfl
@[simp] theorem modStart_d2d (f : Startup → Startup) : (modStart f s).d2d = s.d2d := rfl
@[simp] theorem modStart_ports (f : Startup → Startup) : (modStart f s).ports = s.ports := rfl
@[simp] theorem modStart_cfg (f : Startup → Startup) : (modStart f s).cfg = s.cfg := rfl
@[simp] theorem modStart_bist (f : Startup → Startup) : (modStart f s).bist = s.bist := rfl
@[simp] theorem modStart_board (f : Startup → Startup) : (modStart f s).board = s.board := rfl
@[simp] theorem modStart_answer (f : Startup → Startup) : (modStart f s).answer = s.answer := rfl
@[simp] theorem modStart_free (f : Startup → Startup) : (modStart f s).free = s.free := rfl

@[simp] theorem raise_time (src : Source) (cls : Fin 5) (cause detail : Nat) : (raise src cls cause detail s).time = s.time := rfl
@[simp] theorem raise_trl (src : Source) (cls : Fin 5) (cause detail : Nat) : (raise src cls cause detail s).trl = s.trl := rfl
@[simp] theorem raise_trust (src : Source) (cls : Fin 5) (cause detail : Nat) : (raise src cls cause detail s).trust = s.trust := rfl
@[simp] theorem raise_policy (src : Source) (cls : Fin 5) (cause detail : Nat) : (raise src cls cause detail s).policy = s.policy := rfl
@[simp] theorem raise_alm (src : Source) (cls : Fin 5) (cause detail : Nat) : (raise src cls cause detail s).alm = s.alm := rfl
@[simp] theorem raise_own (src : Source) (cls : Fin 5) (cause detail : Nat) : (raise src cls cause detail s).own = s.own := rfl
@[simp] theorem raise_mgmt (src : Source) (cls : Fin 5) (cause detail : Nat) : (raise src cls cause detail s).mgmt = s.mgmt := rfl
@[simp] theorem raise_shells (src : Source) (cls : Fin 5) (cause detail : Nat) : (raise src cls cause detail s).shells = s.shells := rfl
@[simp] theorem raise_gpio (src : Source) (cls : Fin 5) (cause detail : Nat) : (raise src cls cause detail s).gpio = s.gpio := rfl
@[simp] theorem raise_msix (src : Source) (cls : Fin 5) (cause detail : Nat) : (raise src cls cause detail s).msix = s.msix := rfl
@[simp] theorem raise_beds (src : Source) (cls : Fin 5) (cause detail : Nat) : (raise src cls cause detail s).beds = s.beds := rfl
@[simp] theorem raise_arrays (src : Source) (cls : Fin 5) (cause detail : Nat) : (raise src cls cause detail s).arrays = s.arrays := rfl
@[simp] theorem raise_rakes (src : Source) (cls : Fin 5) (cause detail : Nat) : (raise src cls cause detail s).rakes = s.rakes := rfl
@[simp] theorem raise_coreIo (src : Source) (cls : Fin 5) (cause detail : Nat) : (raise src cls cause detail s).coreIo = s.coreIo := rfl
@[simp] theorem raise_cores (src : Source) (cls : Fin 5) (cause detail : Nat) : (raise src cls cause detail s).cores = s.cores := rfl
@[simp] theorem raise_dbg (src : Source) (cls : Fin 5) (cause detail : Nat) : (raise src cls cause detail s).dbg = s.dbg := rfl
@[simp] theorem raise_mem (src : Source) (cls : Fin 5) (cause detail : Nat) : (raise src cls cause detail s).mem = s.mem := rfl
@[simp] theorem raise_cxl (src : Source) (cls : Fin 5) (cause detail : Nat) : (raise src cls cause detail s).cxl = s.cxl := rfl
@[simp] theorem raise_d2d (src : Source) (cls : Fin 5) (cause detail : Nat) : (raise src cls cause detail s).d2d = s.d2d := rfl
@[simp] theorem raise_ports (src : Source) (cls : Fin 5) (cause detail : Nat) : (raise src cls cause detail s).ports = s.ports := rfl
@[simp] theorem raise_cfg (src : Source) (cls : Fin 5) (cause detail : Nat) : (raise src cls cause detail s).cfg = s.cfg := rfl
@[simp] theorem raise_bist (src : Source) (cls : Fin 5) (cause detail : Nat) : (raise src cls cause detail s).bist = s.bist := rfl
@[simp] theorem raise_start (src : Source) (cls : Fin 5) (cause detail : Nat) : (raise src cls cause detail s).start = s.start := rfl
@[simp] theorem raise_board (src : Source) (cls : Fin 5) (cause detail : Nat) : (raise src cls cause detail s).board = s.board := rfl
@[simp] theorem raise_answer (src : Source) (cls : Fin 5) (cause detail : Nat) : (raise src cls cause detail s).answer = s.answer := rfl
@[simp] theorem raise_free (src : Source) (cls : Fin 5) (cause detail : Nat) : (raise src cls cause detail s).free = s.free := rfl

@[simp] theorem occur_time (kind inst : Nat) (v : Int) : (occur kind inst v s).time = s.time := rfl
@[simp] theorem occur_flt (kind inst : Nat) (v : Int) : (occur kind inst v s).flt = s.flt := rfl
@[simp] theorem occur_trl (kind inst : Nat) (v : Int) : (occur kind inst v s).trl = s.trl := rfl
@[simp] theorem occur_trust (kind inst : Nat) (v : Int) : (occur kind inst v s).trust = s.trust := rfl
@[simp] theorem occur_alm (kind inst : Nat) (v : Int) : (occur kind inst v s).alm = s.alm := rfl
@[simp] theorem occur_own (kind inst : Nat) (v : Int) : (occur kind inst v s).own = s.own := rfl
@[simp] theorem occur_mgmt (kind inst : Nat) (v : Int) : (occur kind inst v s).mgmt = s.mgmt := rfl
@[simp] theorem occur_shells (kind inst : Nat) (v : Int) : (occur kind inst v s).shells = s.shells := rfl
@[simp] theorem occur_gpio (kind inst : Nat) (v : Int) : (occur kind inst v s).gpio = s.gpio := rfl
@[simp] theorem occur_msix (kind inst : Nat) (v : Int) : (occur kind inst v s).msix = s.msix := rfl
@[simp] theorem occur_beds (kind inst : Nat) (v : Int) : (occur kind inst v s).beds = s.beds := rfl
@[simp] theorem occur_arrays (kind inst : Nat) (v : Int) : (occur kind inst v s).arrays = s.arrays := rfl
@[simp] theorem occur_rakes (kind inst : Nat) (v : Int) : (occur kind inst v s).rakes = s.rakes := rfl
@[simp] theorem occur_coreIo (kind inst : Nat) (v : Int) : (occur kind inst v s).coreIo = s.coreIo := rfl
@[simp] theorem occur_cores (kind inst : Nat) (v : Int) : (occur kind inst v s).cores = s.cores := rfl
@[simp] theorem occur_dbg (kind inst : Nat) (v : Int) : (occur kind inst v s).dbg = s.dbg := rfl
@[simp] theorem occur_mem (kind inst : Nat) (v : Int) : (occur kind inst v s).mem = s.mem := rfl
@[simp] theorem occur_cxl (kind inst : Nat) (v : Int) : (occur kind inst v s).cxl = s.cxl := rfl
@[simp] theorem occur_d2d (kind inst : Nat) (v : Int) : (occur kind inst v s).d2d = s.d2d := rfl
@[simp] theorem occur_ports (kind inst : Nat) (v : Int) : (occur kind inst v s).ports = s.ports := rfl
@[simp] theorem occur_cfg (kind inst : Nat) (v : Int) : (occur kind inst v s).cfg = s.cfg := rfl
@[simp] theorem occur_bist (kind inst : Nat) (v : Int) : (occur kind inst v s).bist = s.bist := rfl
@[simp] theorem occur_start (kind inst : Nat) (v : Int) : (occur kind inst v s).start = s.start := rfl
@[simp] theorem occur_board (kind inst : Nat) (v : Int) : (occur kind inst v s).board = s.board := rfl
@[simp] theorem occur_answer (kind inst : Nat) (v : Int) : (occur kind inst v s).answer = s.answer := rfl
@[simp] theorem occur_free (kind inst : Nat) (v : Int) : (occur kind inst v s).free = s.free := rfl

@[simp] theorem holdObjs_time (o : List Obj) : (holdObjs o s).time = s.time := rfl
@[simp] theorem holdObjs_flt (o : List Obj) : (holdObjs o s).flt = s.flt := rfl
@[simp] theorem holdObjs_trl (o : List Obj) : (holdObjs o s).trl = s.trl := rfl
@[simp] theorem holdObjs_trust (o : List Obj) : (holdObjs o s).trust = s.trust := rfl
@[simp] theorem holdObjs_policy (o : List Obj) : (holdObjs o s).policy = s.policy := rfl
@[simp] theorem holdObjs_alm (o : List Obj) : (holdObjs o s).alm = s.alm := rfl
@[simp] theorem holdObjs_own (o : List Obj) : (holdObjs o s).own = s.own := rfl
@[simp] theorem holdObjs_shells (o : List Obj) : (holdObjs o s).shells = s.shells := rfl
@[simp] theorem holdObjs_gpio (o : List Obj) : (holdObjs o s).gpio = s.gpio := rfl
@[simp] theorem holdObjs_msix (o : List Obj) : (holdObjs o s).msix = s.msix := rfl
@[simp] theorem holdObjs_beds (o : List Obj) : (holdObjs o s).beds = s.beds := rfl
@[simp] theorem holdObjs_arrays (o : List Obj) : (holdObjs o s).arrays = s.arrays := rfl
@[simp] theorem holdObjs_rakes (o : List Obj) : (holdObjs o s).rakes = s.rakes := rfl
@[simp] theorem holdObjs_coreIo (o : List Obj) : (holdObjs o s).coreIo = s.coreIo := rfl
@[simp] theorem holdObjs_cores (o : List Obj) : (holdObjs o s).cores = s.cores := rfl
@[simp] theorem holdObjs_dbg (o : List Obj) : (holdObjs o s).dbg = s.dbg := rfl
@[simp] theorem holdObjs_mem (o : List Obj) : (holdObjs o s).mem = s.mem := rfl
@[simp] theorem holdObjs_cxl (o : List Obj) : (holdObjs o s).cxl = s.cxl := rfl
@[simp] theorem holdObjs_d2d (o : List Obj) : (holdObjs o s).d2d = s.d2d := rfl
@[simp] theorem holdObjs_ports (o : List Obj) : (holdObjs o s).ports = s.ports := rfl
@[simp] theorem holdObjs_cfg (o : List Obj) : (holdObjs o s).cfg = s.cfg := rfl
@[simp] theorem holdObjs_bist (o : List Obj) : (holdObjs o s).bist = s.bist := rfl
@[simp] theorem holdObjs_start (o : List Obj) : (holdObjs o s).start = s.start := rfl
@[simp] theorem holdObjs_board (o : List Obj) : (holdObjs o s).board = s.board := rfl
@[simp] theorem holdObjs_answer (o : List Obj) : (holdObjs o s).answer = s.answer := rfl
@[simp] theorem holdObjs_free (o : List Obj) : (holdObjs o s).free = s.free := rfl

@[simp] theorem dropObjs_time (o : List Obj) : (dropObjs o s).time = s.time := rfl
@[simp] theorem dropObjs_flt (o : List Obj) : (dropObjs o s).flt = s.flt := rfl
@[simp] theorem dropObjs_trl (o : List Obj) : (dropObjs o s).trl = s.trl := rfl
@[simp] theorem dropObjs_trust (o : List Obj) : (dropObjs o s).trust = s.trust := rfl
@[simp] theorem dropObjs_policy (o : List Obj) : (dropObjs o s).policy = s.policy := rfl
@[simp] theorem dropObjs_alm (o : List Obj) : (dropObjs o s).alm = s.alm := rfl
@[simp] theorem dropObjs_own (o : List Obj) : (dropObjs o s).own = s.own := rfl
@[simp] theorem dropObjs_shells (o : List Obj) : (dropObjs o s).shells = s.shells := rfl
@[simp] theorem dropObjs_gpio (o : List Obj) : (dropObjs o s).gpio = s.gpio := rfl
@[simp] theorem dropObjs_msix (o : List Obj) : (dropObjs o s).msix = s.msix := rfl
@[simp] theorem dropObjs_beds (o : List Obj) : (dropObjs o s).beds = s.beds := rfl
@[simp] theorem dropObjs_arrays (o : List Obj) : (dropObjs o s).arrays = s.arrays := rfl
@[simp] theorem dropObjs_rakes (o : List Obj) : (dropObjs o s).rakes = s.rakes := rfl
@[simp] theorem dropObjs_coreIo (o : List Obj) : (dropObjs o s).coreIo = s.coreIo := rfl
@[simp] theorem dropObjs_cores (o : List Obj) : (dropObjs o s).cores = s.cores := rfl
@[simp] theorem dropObjs_dbg (o : List Obj) : (dropObjs o s).dbg = s.dbg := rfl
@[simp] theorem dropObjs_mem (o : List Obj) : (dropObjs o s).mem = s.mem := rfl
@[simp] theorem dropObjs_cxl (o : List Obj) : (dropObjs o s).cxl = s.cxl := rfl
@[simp] theorem dropObjs_d2d (o : List Obj) : (dropObjs o s).d2d = s.d2d := rfl
@[simp] theorem dropObjs_ports (o : List Obj) : (dropObjs o s).ports = s.ports := rfl
@[simp] theorem dropObjs_cfg (o : List Obj) : (dropObjs o s).cfg = s.cfg := rfl
@[simp] theorem dropObjs_bist (o : List Obj) : (dropObjs o s).bist = s.bist := rfl
@[simp] theorem dropObjs_start (o : List Obj) : (dropObjs o s).start = s.start := rfl
@[simp] theorem dropObjs_board (o : List Obj) : (dropObjs o s).board = s.board := rfl
@[simp] theorem dropObjs_answer (o : List Obj) : (dropObjs o s).answer = s.answer := rfl
@[simp] theorem dropObjs_free (o : List Obj) : (dropObjs o s).free = s.free := rfl

@[simp] theorem dropReply_time (i : Inst) : (dropReply i s).time = s.time := rfl
@[simp] theorem dropReply_flt (i : Inst) : (dropReply i s).flt = s.flt := rfl
@[simp] theorem dropReply_trl (i : Inst) : (dropReply i s).trl = s.trl := rfl
@[simp] theorem dropReply_trust (i : Inst) : (dropReply i s).trust = s.trust := rfl
@[simp] theorem dropReply_policy (i : Inst) : (dropReply i s).policy = s.policy := rfl
@[simp] theorem dropReply_alm (i : Inst) : (dropReply i s).alm = s.alm := rfl
@[simp] theorem dropReply_own (i : Inst) : (dropReply i s).own = s.own := rfl
@[simp] theorem dropReply_shells (i : Inst) : (dropReply i s).shells = s.shells := rfl
@[simp] theorem dropReply_gpio (i : Inst) : (dropReply i s).gpio = s.gpio := rfl
@[simp] theorem dropReply_msix (i : Inst) : (dropReply i s).msix = s.msix := rfl
@[simp] theorem dropReply_beds (i : Inst) : (dropReply i s).beds = s.beds := rfl
@[simp] theorem dropReply_arrays (i : Inst) : (dropReply i s).arrays = s.arrays := rfl
@[simp] theorem dropReply_rakes (i : Inst) : (dropReply i s).rakes = s.rakes := rfl
@[simp] theorem dropReply_coreIo (i : Inst) : (dropReply i s).coreIo = s.coreIo := rfl
@[simp] theorem dropReply_cores (i : Inst) : (dropReply i s).cores = s.cores := rfl
@[simp] theorem dropReply_dbg (i : Inst) : (dropReply i s).dbg = s.dbg := rfl
@[simp] theorem dropReply_mem (i : Inst) : (dropReply i s).mem = s.mem := rfl
@[simp] theorem dropReply_cxl (i : Inst) : (dropReply i s).cxl = s.cxl := rfl
@[simp] theorem dropReply_d2d (i : Inst) : (dropReply i s).d2d = s.d2d := rfl
@[simp] theorem dropReply_ports (i : Inst) : (dropReply i s).ports = s.ports := rfl
@[simp] theorem dropReply_cfg (i : Inst) : (dropReply i s).cfg = s.cfg := rfl
@[simp] theorem dropReply_bist (i : Inst) : (dropReply i s).bist = s.bist := rfl
@[simp] theorem dropReply_start (i : Inst) : (dropReply i s).start = s.start := rfl
@[simp] theorem dropReply_board (i : Inst) : (dropReply i s).board = s.board := rfl
@[simp] theorem dropReply_answer (i : Inst) : (dropReply i s).answer = s.answer := rfl
@[simp] theorem dropReply_free (i : Inst) : (dropReply i s).free = s.free := rfl

@[simp] theorem defer_time (c : Ctx) (o : List Obj) : (defer c o s).time = s.time := rfl
@[simp] theorem defer_flt (c : Ctx) (o : List Obj) : (defer c o s).flt = s.flt := rfl
@[simp] theorem defer_trl (c : Ctx) (o : List Obj) : (defer c o s).trl = s.trl := rfl
@[simp] theorem defer_trust (c : Ctx) (o : List Obj) : (defer c o s).trust = s.trust := rfl
@[simp] theorem defer_policy (c : Ctx) (o : List Obj) : (defer c o s).policy = s.policy := rfl
@[simp] theorem defer_alm (c : Ctx) (o : List Obj) : (defer c o s).alm = s.alm := rfl
@[simp] theorem defer_own (c : Ctx) (o : List Obj) : (defer c o s).own = s.own := rfl
@[simp] theorem defer_shells (c : Ctx) (o : List Obj) : (defer c o s).shells = s.shells := rfl
@[simp] theorem defer_gpio (c : Ctx) (o : List Obj) : (defer c o s).gpio = s.gpio := rfl
@[simp] theorem defer_msix (c : Ctx) (o : List Obj) : (defer c o s).msix = s.msix := rfl
@[simp] theorem defer_beds (c : Ctx) (o : List Obj) : (defer c o s).beds = s.beds := rfl
@[simp] theorem defer_arrays (c : Ctx) (o : List Obj) : (defer c o s).arrays = s.arrays := rfl
@[simp] theorem defer_rakes (c : Ctx) (o : List Obj) : (defer c o s).rakes = s.rakes := rfl
@[simp] theorem defer_coreIo (c : Ctx) (o : List Obj) : (defer c o s).coreIo = s.coreIo := rfl
@[simp] theorem defer_cores (c : Ctx) (o : List Obj) : (defer c o s).cores = s.cores := rfl
@[simp] theorem defer_dbg (c : Ctx) (o : List Obj) : (defer c o s).dbg = s.dbg := rfl
@[simp] theorem defer_mem (c : Ctx) (o : List Obj) : (defer c o s).mem = s.mem := rfl
@[simp] theorem defer_cxl (c : Ctx) (o : List Obj) : (defer c o s).cxl = s.cxl := rfl
@[simp] theorem defer_d2d (c : Ctx) (o : List Obj) : (defer c o s).d2d = s.d2d := rfl
@[simp] theorem defer_ports (c : Ctx) (o : List Obj) : (defer c o s).ports = s.ports := rfl
@[simp] theorem defer_cfg (c : Ctx) (o : List Obj) : (defer c o s).cfg = s.cfg := rfl
@[simp] theorem defer_bist (c : Ctx) (o : List Obj) : (defer c o s).bist = s.bist := rfl
@[simp] theorem defer_start (c : Ctx) (o : List Obj) : (defer c o s).start = s.start := rfl
@[simp] theorem defer_board (c : Ctx) (o : List Obj) : (defer c o s).board = s.board := rfl
@[simp] theorem defer_answer (c : Ctx) (o : List Obj) : (defer c o s).answer = s.answer := rfl
@[simp] theorem defer_free (c : Ctx) (o : List Obj) : (defer c o s).free = s.free := rfl

@[simp] theorem park_time (i : Inst) (op : Nat) (p : Packet) : (park i op p s).time = s.time := rfl
@[simp] theorem park_flt (i : Inst) (op : Nat) (p : Packet) : (park i op p s).flt = s.flt := rfl
@[simp] theorem park_trl (i : Inst) (op : Nat) (p : Packet) : (park i op p s).trl = s.trl := rfl
@[simp] theorem park_trust (i : Inst) (op : Nat) (p : Packet) : (park i op p s).trust = s.trust := rfl
@[simp] theorem park_policy (i : Inst) (op : Nat) (p : Packet) : (park i op p s).policy = s.policy := rfl
@[simp] theorem park_alm (i : Inst) (op : Nat) (p : Packet) : (park i op p s).alm = s.alm := rfl
@[simp] theorem park_own (i : Inst) (op : Nat) (p : Packet) : (park i op p s).own = s.own := rfl
@[simp] theorem park_shells (i : Inst) (op : Nat) (p : Packet) : (park i op p s).shells = s.shells := rfl
@[simp] theorem park_gpio (i : Inst) (op : Nat) (p : Packet) : (park i op p s).gpio = s.gpio := rfl
@[simp] theorem park_msix (i : Inst) (op : Nat) (p : Packet) : (park i op p s).msix = s.msix := rfl
@[simp] theorem park_beds (i : Inst) (op : Nat) (p : Packet) : (park i op p s).beds = s.beds := rfl
@[simp] theorem park_arrays (i : Inst) (op : Nat) (p : Packet) : (park i op p s).arrays = s.arrays := rfl
@[simp] theorem park_rakes (i : Inst) (op : Nat) (p : Packet) : (park i op p s).rakes = s.rakes := rfl
@[simp] theorem park_coreIo (i : Inst) (op : Nat) (p : Packet) : (park i op p s).coreIo = s.coreIo := rfl
@[simp] theorem park_cores (i : Inst) (op : Nat) (p : Packet) : (park i op p s).cores = s.cores := rfl
@[simp] theorem park_dbg (i : Inst) (op : Nat) (p : Packet) : (park i op p s).dbg = s.dbg := rfl
@[simp] theorem park_mem (i : Inst) (op : Nat) (p : Packet) : (park i op p s).mem = s.mem := rfl
@[simp] theorem park_cxl (i : Inst) (op : Nat) (p : Packet) : (park i op p s).cxl = s.cxl := rfl
@[simp] theorem park_d2d (i : Inst) (op : Nat) (p : Packet) : (park i op p s).d2d = s.d2d := rfl
@[simp] theorem park_ports (i : Inst) (op : Nat) (p : Packet) : (park i op p s).ports = s.ports := rfl
@[simp] theorem park_cfg (i : Inst) (op : Nat) (p : Packet) : (park i op p s).cfg = s.cfg := rfl
@[simp] theorem park_bist (i : Inst) (op : Nat) (p : Packet) : (park i op p s).bist = s.bist := rfl
@[simp] theorem park_start (i : Inst) (op : Nat) (p : Packet) : (park i op p s).start = s.start := rfl
@[simp] theorem park_board (i : Inst) (op : Nat) (p : Packet) : (park i op p s).board = s.board := rfl
@[simp] theorem park_answer (i : Inst) (op : Nat) (p : Packet) : (park i op p s).answer = s.answer := rfl
@[simp] theorem park_free (i : Inst) (op : Nat) (p : Packet) : (park i op p s).free = s.free := rfl

@[simp] theorem clearSlot_time (q : Nat) (old : List AlmRec) : (clearSlot q old s).time = s.time := rfl
@[simp] theorem clearSlot_flt (q : Nat) (old : List AlmRec) : (clearSlot q old s).flt = s.flt := rfl
@[simp] theorem clearSlot_trl (q : Nat) (old : List AlmRec) : (clearSlot q old s).trl = s.trl := rfl
@[simp] theorem clearSlot_trust (q : Nat) (old : List AlmRec) : (clearSlot q old s).trust = s.trust := rfl
@[simp] theorem clearSlot_policy (q : Nat) (old : List AlmRec) : (clearSlot q old s).policy = s.policy := rfl
@[simp] theorem clearSlot_alm (q : Nat) (old : List AlmRec) : (clearSlot q old s).alm = s.alm := rfl
@[simp] theorem clearSlot_own (q : Nat) (old : List AlmRec) : (clearSlot q old s).own = s.own := rfl
@[simp] theorem clearSlot_mgmt (q : Nat) (old : List AlmRec) : (clearSlot q old s).mgmt = s.mgmt := rfl
@[simp] theorem clearSlot_shells (q : Nat) (old : List AlmRec) : (clearSlot q old s).shells = s.shells := rfl
@[simp] theorem clearSlot_gpio (q : Nat) (old : List AlmRec) : (clearSlot q old s).gpio = s.gpio := rfl
@[simp] theorem clearSlot_msix (q : Nat) (old : List AlmRec) : (clearSlot q old s).msix = s.msix := rfl
@[simp] theorem clearSlot_beds (q : Nat) (old : List AlmRec) : (clearSlot q old s).beds = s.beds := rfl
@[simp] theorem clearSlot_rakes (q : Nat) (old : List AlmRec) : (clearSlot q old s).rakes = s.rakes := rfl
@[simp] theorem clearSlot_coreIo (q : Nat) (old : List AlmRec) : (clearSlot q old s).coreIo = s.coreIo := rfl
@[simp] theorem clearSlot_cores (q : Nat) (old : List AlmRec) : (clearSlot q old s).cores = s.cores := rfl
@[simp] theorem clearSlot_dbg (q : Nat) (old : List AlmRec) : (clearSlot q old s).dbg = s.dbg := rfl
@[simp] theorem clearSlot_mem (q : Nat) (old : List AlmRec) : (clearSlot q old s).mem = s.mem := rfl
@[simp] theorem clearSlot_cxl (q : Nat) (old : List AlmRec) : (clearSlot q old s).cxl = s.cxl := rfl
@[simp] theorem clearSlot_d2d (q : Nat) (old : List AlmRec) : (clearSlot q old s).d2d = s.d2d := rfl
@[simp] theorem clearSlot_ports (q : Nat) (old : List AlmRec) : (clearSlot q old s).ports = s.ports := rfl
@[simp] theorem clearSlot_cfg (q : Nat) (old : List AlmRec) : (clearSlot q old s).cfg = s.cfg := rfl
@[simp] theorem clearSlot_bist (q : Nat) (old : List AlmRec) : (clearSlot q old s).bist = s.bist := rfl
@[simp] theorem clearSlot_start (q : Nat) (old : List AlmRec) : (clearSlot q old s).start = s.start := rfl
@[simp] theorem clearSlot_board (q : Nat) (old : List AlmRec) : (clearSlot q old s).board = s.board := rfl
@[simp] theorem clearSlot_answer (q : Nat) (old : List AlmRec) : (clearSlot q old s).answer = s.answer := rfl
@[simp] theorem clearSlot_free (q : Nat) (old : List AlmRec) : (clearSlot q old s).free = s.free := rfl

@[simp] theorem freeNat_snd : (freeNat s).2 = { s with free := s.free + 1 } := rfl
@[simp] theorem freshDigest_snd : (freshDigest s).2 = { s with free := s.free + 1 } := rfl

/-! ## Entries of the tables -/

@[simp] theorem bedAt_setBed (n : Nat) (x : Bed) : bedAt (setBed n x s) n = x := Sparse.get_set_same _ _ _ _
theorem bedAt_setBed_ne {n m : Nat} (x : Bed) (h : m ≠ n) : bedAt (setBed n x s) m = bedAt s m := Sparse.get_set_ne _ _ _ h
@[simp] theorem coreAt_setCore (n : Nat) (x : Core) : coreAt (setCore n x s) n = x := Sparse.get_set_same _ _ _ _
theorem coreAt_setCore_ne {n m : Nat} (x : Core) (h : m ≠ n) : coreAt (setCore n x s) m = coreAt s m := Sparse.get_set_ne _ _ _ h
@[simp] theorem coreIoAt_setCoreIo (n : Nat) (x : CoreIo) : coreIoAt (setCoreIo n x s) n = x := Sparse.get_set_same _ _ _ _
theorem coreIoAt_setCoreIo_ne {n m : Nat} (x : CoreIo) (h : m ≠ n) : coreIoAt (setCoreIo n x s) m = coreIoAt s m := Sparse.get_set_ne _ _ _ h
@[simp] theorem laneAt_setLane (n : Nat) (x : Lane) : laneAt (setLane n x s) n = x := Sparse.get_set_same _ _ _ _
theorem laneAt_setLane_ne {n m : Nat} (x : Lane) (h : m ≠ n) : laneAt (setLane n x s) m = laneAt s m := Sparse.get_set_ne _ _ _ h
@[simp] theorem linkAt_setLink (n : Nat) (x : Link) : linkAt (setLink n x s) n = x := Sparse.get_set_same _ _ _ _
theorem linkAt_setLink_ne {n m : Nat} (x : Link) (h : m ≠ n) : linkAt (setLink n x s) m = linkAt s m := Sparse.get_set_ne _ _ _ h
@[simp] theorem chAt_setCh (n : Nat) (x : Chan) : chAt (setCh n x s) n = x := Sparse.get_set_same _ _ _ _
theorem chAt_setCh_ne {n m : Nat} (x : Chan) (h : m ≠ n) : chAt (setCh n x s) m = chAt s m := Sparse.get_set_ne _ _ _ h
@[simp] theorem regionAt_setRegion (n : Nat) (x : Region) : regionAt (setRegion n x s) n = x := Sparse.get_set_same _ _ _ _
theorem regionAt_setRegion_ne {n m : Nat} (x : Region) (h : m ≠ n) : regionAt (setRegion n x s) m = regionAt s m := Sparse.get_set_ne _ _ _ h
@[simp] theorem keySlot_setKey (n : Nat) (x : KeySlot) : keySlot (setKey n x s) n = x := Sparse.get_set_same _ _ _ _
theorem keySlot_setKey_ne {n m : Nat} (x : KeySlot) (h : m ≠ n) : keySlot (setKey n x s) m = keySlot s m := Sparse.get_set_ne _ _ _ h
theorem modBed_eq (n : Nat) (f : Bed → Bed) : modBed n f s = setBed n (f (bedAt s n)) s := rfl
theorem modCore_eq (n : Nat) (f : Core → Core) : modCore n f s = setCore n (f (coreAt s n)) s := rfl
theorem modLane_eq (n : Nat) (f : Lane → Lane) : modLane n f s = setLane n (f (laneAt s n)) s := rfl
theorem modLink_eq (n : Nat) (f : Link → Link) : modLink n f s = setLink n (f (linkAt s n)) s := rfl
theorem modCh_eq (n : Nat) (f : Chan → Chan) : modCh n f s = setCh n (f (chAt s n)) s := rfl
theorem modRegion_eq (n : Nat) (f : Region → Region) : modRegion n f s = setRegion n (f (regionAt s n)) s := rfl

theorem shellKey_inj {i j : ShellId} (h : shellKey i = shellKey j) : i = j := by
  cases i <;> cases j <;> simp only [shellKey] at h <;> first | rfl | (congr 1; exact Fin.ext (by omega)) | (exfalso; omega)
@[simp] theorem shellAt_setShell (i : ShellId) (x : Shell) : shellAt (setShell i x s) i = x := Sparse.get_set_same _ _ _ _
theorem shellAt_setShell_ne {i j : ShellId} (x : Shell) (h : j ≠ i) : shellAt (setShell i x s) j = shellAt s j :=
  Sparse.get_set_ne _ _ _ fun e => h (shellKey_inj e)
@[simp] theorem arrayAt_setArray (cls i : Nat) (x : Coded) : arrayAt (setArray cls i x s) cls i = x := Sparse.get_set_same _ _ _ _

/-! ## A command acts on the device -/

@[simp] theorem onDevice_pending (f : Device → Device) (s : State) : (onDevice f s).pending = s.pending := rfl

/-- A command that leaves the fuses and the self-test alone keeps all of its effect. -/
theorem fuseHold_of_eq {old new : Device} (ht : new.trust = old.trust) (hb : new.bist = old.bist) : fuseHold old new = new := by
  cases new
  simp only at ht hb
  subst ht hb
  simp only [fuseHold, Nat.le_refl, if_true, Bool.or_self, Option.or_self]
  congr 1
  simp [List.isPrefixOf_iff_prefix]

theorem onDevice_eq {f : Device → Device} {s : State} (ht : (f s.dev).trust = s.dev.trust) (hb : (f s.dev).bist = s.dev.bist) :
    onDevice f s = { s with dev := f s.dev } := by
  simp only [onDevice, fuseHold_of_eq ht hb]

/-! ## What commands in progress and parked packets add -/

theorem settle_idle (hr : s.rakes = []) (hp : s.mgmt.progress = []) (hk : s.mgmt.parked = []) : settle s = s := by
  simp [settle, hr, hp, hk]

theorem resetDue_of_not (h : s.start.due = false) : resetDue s = s := by
  simp [resetDue, h]

theorem drainPolicy_idle (h : s.policy.queue = []) : drainPolicy s = s := by
  simp [drainPolicy, h]

end Sys2Proof.Machine
end

