-- ==== Sys2Proof/Laws/Cell.lean ====
section
/-! SUPPORT. The word cell: the fields of a micro-instruction word, and what one row of the family changes. -/
namespace Sys2Proof.Machine
open Sys2Proof

theorem microWord_toNat (op : Nat) (h : op < 32) (m : Micro) :
    (microWord op m).toNat = op + m.sa.toNat * 2 ^ 5 + m.sb.toNat * 2 ^ 9 + m.dst.toNat * 2 ^ 13 + m.ci.toNat * 2 ^ 16
      + m.cnd.toNat * 2 ^ 18 + m.osel.toNat * 2 ^ 21 + m.k.toNat * 2 ^ 24 := by
  have h1 := m.sa.isLt; have h2 := m.sb.isLt; have h3 := m.dst.isLt; have h4 := m.ci.isLt
  have h5 := m.cnd.isLt; have h6 := m.osel.isLt; have h7 := m.k.isLt
  simp only [microWord, place, BitVec.toNat_ofNat, Nat.shiftLeft_eq]
  omega

section fields
variable (op : Nat) (h : op < 32) (m : Micro)
include h

theorem miOp_microWord : miOp (microWord op m) = op := by
  simp only [miOp, BitVec.extractLsb'_toNat, microWord_toNat op h m, Nat.shiftRight_eq_div_pow]
  omega

theorem miSa_microWord : miSa (microWord op m) = m.sa := by
  apply BitVec.eq_of_toNat_eq
  have h1 := m.sa.isLt
  simp only [miSa, BitVec.extractLsb'_toNat, microWord_toNat op h m, Nat.shiftRight_eq_div_pow]
  omega

theorem miSb_microWord : miSb (microWord op m) = m.sb := by
  apply BitVec.eq_of_toNat_eq
  have h1 := m.sa.isLt; have h2 := m.sb.isLt
  simp only [miSb, BitVec.extractLsb'_toNat, microWord_toNat op h m, Nat.shiftRight_eq_div_pow]
  omega

theorem miDst_microWord : miDst (microWord op m) = m.dst := by
  apply BitVec.eq_of_toNat_eq
  have h1 := m.sa.isLt; have h2 := m.sb.isLt; have h3 := m.dst.isLt
  simp only [miDst, BitVec.extractLsb'_toNat, microWord_toNat op h m, Nat.shiftRight_eq_div_pow]
  omega

theorem miCi_microWord : miCi (microWord op m) = m.ci := by
  apply BitVec.eq_of_toNat_eq
  have h1 := m.sa.isLt; have h2 := m.sb.isLt; have h3 := m.dst.isLt; have h4 := m.ci.isLt
  simp only [miCi, BitVec.extractLsb'_toNat, microWord_toNat op h m, Nat.shiftRight_eq_div_pow]
  omega

theorem miCnd_microWord : miCnd (microWord op m) = m.cnd := by
  apply BitVec.eq_of_toNat_eq
  have h1 := m.sa.isLt; have h2 := m.sb.isLt; have h3 := m.dst.isLt; have h4 := m.ci.isLt; have h5 := m.cnd.isLt
  simp only [miCnd, BitVec.extractLsb'_toNat, microWord_toNat op h m, Nat.shiftRight_eq_div_pow]
  omega

theorem miK_microWord : miK (microWord op m) = m.k := by
  apply BitVec.eq_of_toNat_eq
  have h1 := m.sa.isLt; have h2 := m.sb.isLt; have h3 := m.dst.isLt; have h4 := m.ci.isLt
  have h5 := m.cnd.isLt; have h6 := m.osel.isLt; have h7 := m.k.isLt
  simp only [miK, BitVec.extractLsb'_toNat, microWord_toNat op h m, Nat.shiftRight_eq_div_pow]
  omega

end fields
end Sys2Proof.Machine
end

