-- ==== Sys2Proof/Laws/Core.lean ====
section
/-! SUPPORT. The Fraelm core: the fields of a bundle, and what a bundle that issues in plain flow does. -/
namespace Sys2Proof.Machine
open Sys2Proof

theorem toNat_append_add {v w : Nat} (x : BitVec v) (y : BitVec w) : (x ++ y).toNat = x.toNat * 2 ^ w + y.toNat := by
  rw [BitVec.toNat_append, ← Nat.shiftLeft_add_eq_or_of_lt y.isLt, Nat.shiftLeft_eq]

/-! ## Bundles (R206) -/

theorem mkBundle_toNat (a b c d : Word32) :
    (mkBundle a b c d).toNat = d.toNat * 2 ^ 96 + c.toNat * 2 ^ 64 + b.toNat * 2 ^ 32 + a.toNat := by
  simp only [mkBundle, toNat_append_add]; omega

section slots
variable (a b c d : Word32)

@[simp] theorem bSc_mkBundle : bSc (mkBundle a b c d) = d := by
  apply BitVec.eq_of_toNat_eq
  have := a.isLt; have := b.isLt; have := c.isLt; have := d.isLt
  simp only [bSc, BitVec.extractLsb'_toNat, mkBundle_toNat, Nat.shiftRight_eq_div_pow]; omega

@[simp] theorem bLs_mkBundle : bLs (mkBundle a b c d) = c := by
  apply BitVec.eq_of_toNat_eq
  have := a.isLt; have := b.isLt; have := c.isLt; have := d.isLt
  simp only [bLs, BitVec.extractLsb'_toNat, mkBundle_toNat, Nat.shiftRight_eq_div_pow]; omega

@[simp] theorem bVx1_mkBundle : bVx1 (mkBundle a b c d) = b := by
  apply BitVec.eq_of_toNat_eq
  have := a.isLt; have := b.isLt; have := c.isLt; have := d.isLt
  simp only [bVx1, BitVec.extractLsb'_toNat, mkBundle_toNat, Nat.shiftRight_eq_div_pow]; omega

@[simp] theorem bVx0_mkBundle : bVx0 (mkBundle a b c d) = a := by
  apply BitVec.eq_of_toNat_eq
  have := a.isLt; have := b.isLt; have := c.isLt; have := d.isLt
  simp only [bVx0, BitVec.extractLsb'_toNat, mkBundle_toNat, Nat.shiftRight_eq_div_pow]; omega

end slots

theorem vxOk_nop (x : Bool) : vxOk x 0#32 = true := by cases x <;> decide
theorem lsOk_nop : lsOk 0#32 = true := by decide
theorem scOk_nop : scOk 0#32 = true := by decide
theorem synOp_nop : synOp 0#32 = 0 := by decide
theorem synGrd_nop : synGrd 0#32 = 0 := by decide
theorem vxExec_nop (rd : Reg → Nat) (rrb : Word32) (g : Guard) (fr : Nat) : vxExec 0#32 rd rrb g fr = [] := by
  simp [vxExec, synOp_nop]
theorem scExec_nop (rd : Reg → Nat) (rrb : Word32) (pc : Nat) : scExec 0#32 rd rrb pc = ScOut.none := by
  simp [scExec, synOp_nop, isLoop, isRpt, isLock]

/-! ## The end of a cycle -/

/-- Nothing that lands in this cycle is a failed load. -/
theorem endCycle_of_clean {c : Nat} {s : Device} (h : ∀ f ∈ (coreAt s c).flights, ∀ a, f.what ≠ .dataErr a) :
    endCycle c s = setCore c { coreAt s c with
      flights := ((coreAt s c).flights.map fun f => { f with left := f.left - 1 }).filter fun f => f.left ≠ 0
      regs := (coreAt s c).regs.landAll (((coreAt s c).flights.map fun f => { f with left := f.left - 1 }).filter fun f => f.left = 0)
      dstat := (coreAt s c).dstat &&& ~~~(BitVec.ofNat 5 (dstatClears
        (((coreAt s c).flights.map fun f => { f with left := f.left - 1 }).filter fun f => f.left = 0))) } s := by
  simp only [endCycle]
  split
  · rfl
  · rename_i a ha
    obtain ⟨f, hf, hfa⟩ := List.exists_of_findSome?_eq_some ha
    obtain ⟨g, hg, rfl⟩ := List.mem_map.1 (List.mem_filter.1 hf).1
    simp only at hfa
    split at hfa
    · rename_i b hb; exact absurd hb (h g hg b)
    · cases hfa

/-! ## Only one core -/

theorem onlyCore.refl (s : Device) (c : CoreId) : onlyCore s s c := ⟨rfl, fun _ _ => rfl⟩

theorem onlyCore.setCore {s d : Device} {c : CoreId} (h : onlyCore s d c) (x : Core) : onlyCore s (setCore c.val x d) c := by
  refine ⟨?_, fun n hn => ?_⟩
  · simp only [Machine.setCore]; rw [h.1]
  · rw [coreAt_setCore_ne _ _ hn, h.2 n hn]

theorem onlyCore.ofFree {s d : Device} {c : CoreId} {n : Nat} (h : onlyCore { s with free := n } d c) : onlyCore s d c := h

theorem onlyCore.free {s d : Device} {c : CoreId} (h : onlyCore s d c) (n : Nat) : onlyCore s { d with free := n } c := by
  refine ⟨?_, h.2⟩
  rw [h.1]

theorem onlyCore.endCycle {s d : Device} {c : CoreId} (h : onlyCore s d c)
    (hc : ∀ f ∈ (coreAt d c.val).flights, ∀ a, f.what ≠ .dataErr a) : onlyCore s (endCycle c.val d) c := by
  rw [endCycle_of_clean hc]; exact h.setCore _

/-! ## Issue in plain flow -/

/-- The state of a core in plain flow, field by field. -/
theorem Plain.fields {s : Device} {c : CoreId} (h : Plain s c) :
    coreAt s c.val = { coreAt s c.val with
      flights := [], branch := none, lock := 0, rpt := 0, idle := 0, stall := 0, held := none, returning := false, wfi := false,
      exc := none } := by
  have hw := h.issues
  have h1 := h.landed
  have h2 := h.noBranch
  have h3 := h.noLock
  have h4 := h.noRpt
  simp only [wouldIssue, Bool.and_eq_true, decide_eq_true_eq, Bool.not_eq_true', Option.isNone_iff_eq_none] at hw
  generalize coreAt s c.val = x at *
  cases x
  simp_all

/-- Whether loop 0 was set up by LOOPE, if a bundle says so (R225). -/
def CoreRegs.markE (r : CoreRegs) (e : Option Bool) : CoreRegs :=
  match e with
  | some e => r.modBank r.bank fun k => { k with loopE := e }
  | none => r

/-- The core after a bundle whose SC slot gives `sc`, issued in plain flow. -/
def Core.issued (x : Core) (ls : List (Nat × Landing)) (sc : ScOut) (br : Bool) (setE : Option Bool) (stall : Nat) : Core :=
  { x.after ls with
    regs := (x.regs.markE setE).landAll
      ((ls.map fun (p : Nat × Landing) => ({ left := p.1 - 1, bank := x.regs.bank, entered := false, what := p.2 } : Flight)).filter fun f => f.left = 0)
    stall
    pc := sc.skip.getD (x.pc + 16)
    branch := if br then some (2, sc.branch.getD .fall) else none
    rpt := sc.rpt.getD 0, lock := (sc.lock.getD 1) - 1, idle := if sc.skip.isSome then 2 else 0
    inLock := sc.lock.isSome, inSpan := br || sc.rpt.isSome, closed := sc.lock.isSome || (br || sc.rpt.isSome), wfi := sc.wfi }

theorem commit_plain {s d : Device} {c : CoreId} (h : Plain s c) (hx : coreAt d c.val = coreAt s c.val)
    (v0 v1 ls : List (Nat × Landing)) (sc : ScOut) (br : Bool) (setE : Option Bool) (p st : Nat)
    (hl : ∀ q ∈ v0 ++ v1 ++ ls ++ sc.lands, ∀ a, q.2 ≠ .dataErr a) (ht : sc.trap = false) :
    let e := commitBundle c.val false v0 v1 ls sc br setE p st d
    let y := (coreAt s c.val).issued (v0 ++ v1 ++ ls ++ sc.lands) sc br setE st
    onlyCore d e c ∧ coreAt e c.val =
      { y with regs := { y.regs with ipend := y.regs.ipend ||| BitVec.ofNat 32 ((p ||| sc.pends) &&& srcMask) } } := by
  have hacts : endActions (coreAt s c.val).regs.cur (coreAt s c.val).pc = ([], none) := by
    simp [endActions, h.noLoop0, h.noLoop1]
  have hw := h.issues
  have h1 := h.landed
  have h2 := h.noBranch
  have h3 := h.noLock
  have h4 := h.noRpt
  simp only [wouldIssue, Bool.and_eq_true, decide_eq_true_eq, Bool.not_eq_true', Option.isNone_iff_eq_none] at hw
  obtain ⟨⟨⟨⟨⟨⟨⟨⟨⟨⟨⟨-, -⟩, w3⟩, -⟩, -⟩, w6⟩, w7⟩, -⟩, -⟩, w10⟩, w11⟩, w12⟩ := hw
  intro e y
  have he : e = pendMask c.val (p ||| sc.pends) (endCycle c.val (setCore c.val { coreAt s c.val with
      flights := (v0 ++ v1 ++ ls ++ sc.lands).map fun (p : Nat × Landing) => { left := p.1, bank := (coreAt s c.val).regs.bank, entered := false, what := p.2 }
      regs := (coreAt s c.val).regs.markE setE
      stall := st, pc := sc.skip.getD ((coreAt s c.val).pc + 16)
      branch := if br then some (2, sc.branch.getD .fall) else none
      returning := false, pcSample := (coreAt s c.val).pc, held := none, hold := .none
      rpt := sc.rpt.getD 0, lock := (sc.lock.getD 1) - 1, idle := if sc.skip.isSome then 2 else 0
      inLock := sc.lock.isSome, inSpan := br || sc.rpt.isSome, closed := sc.lock.isSome || (br || sc.rpt.isSome), wfi := sc.wfi
      dbg := { (coreAt s c.val).dbg with pass := false } } d)) := by
    simp only [e, commitBundle, hx, h1, h2, h3, h4, flowAfter, ht]
    cases br <;> cases setE <;> cases hr : sc.rpt <;> simp [hacts, CoreRegs.markE]
  rw [he]
  generalize hX : ({ coreAt s c.val with
      flights := (v0 ++ v1 ++ ls ++ sc.lands).map fun (p : Nat × Landing) => { left := p.1, bank := (coreAt s c.val).regs.bank, entered := false, what := p.2 }
      regs := (coreAt s c.val).regs.markE setE
      stall := st, pc := sc.skip.getD ((coreAt s c.val).pc + 16)
      branch := if br then some (2, sc.branch.getD .fall) else none
      returning := false, pcSample := (coreAt s c.val).pc, held := none, hold := .none
      rpt := sc.rpt.getD 0, lock := (sc.lock.getD 1) - 1, idle := if sc.skip.isSome then 2 else 0
      inLock := sc.lock.isSome, inSpan := br || sc.rpt.isSome, closed := sc.lock.isSome || (br || sc.rpt.isSome), wfi := sc.wfi
      dbg := { (coreAt s c.val).dbg with pass := false } } : Core) = X
  have hc : ∀ f ∈ (coreAt (setCore c.val X d) c.val).flights, ∀ a, f.what ≠ .dataErr a := by
    rw [coreAt_setCore, ← hX]
    intro f hf a
    obtain ⟨q, hq, rfl⟩ := List.mem_map.1 hf
    exact hl q hq a
  refine ⟨?_, ?_⟩
  · simp only [pendMask, modCore]
    exact (((onlyCore.refl d c).setCore X).endCycle hc).setCore _
  · simp only [pendMask, modCore, coreAt_setCore, endCycle_of_clean hc]
    subst hX
    simp only [y, Core.issued, Core.after, List.map_map]
    have hmm : ((fun (f : Flight) => ({ f with left := f.left - 1 } : Flight)) ∘ fun (p : Nat × Landing) =>
        ({ left := p.1, bank := (coreAt s c.val).regs.bank, entered := false, what := p.2 } : Flight)) =
        fun p => { left := p.1 - 1, bank := (coreAt s c.val).regs.bank, entered := false, what := p.2 } := rfl
    rw [hmm]
    simp [w12, w7, w6]

theorem view_of_landed {x : Core} (h : x.flights = []) : x.view = x.regs := by
  simp [Core.view, h, CoreRegs.landAll]

theorem placeOk_plain {s : Device} {c : CoreId} (h : Plain s c) (b : Bundle) : placeOk (coreAt s c.val) b = true := by
  simp [placeOk, h.noBranch, h.noLock, h.noRpt, h.noLoop0, h.noLoop1]

/-- The guard of a syllable, by its own GRD field (R207). -/
def synGuard (s : Device) (c : CoreId) (w : Word32) : Guard :=
  if synGrd w = 0 then none else some (regNow s c ⟨.p, physP (rrbNow s c) (synGrd w - 16)⟩)

/-- What a SC syllable does in the core's current context. -/
def scNow (s : Device) (c : CoreId) (w : Word32) : ScOut :=
  if (if synOp w = 0x3D then !guardBit (synGuard s c w) 0 else guardBit (synGuard s c w) 0) then
    scExec w (regNow s c) (rrbNow s c) (coreAt s c.val).pc.toNat
  else ScOut.none

/-- Whether the syllable sets or clears the mark of LOOPE. -/
def setENow (s : Device) (c : CoreId) (w : Word32) : Option Bool :=
  let takes := if synOp w = 0x3D then !guardBit (synGuard s c w) 0 else guardBit (synGuard s c w) 0
  if takes && synOp w = 0x37 then some true else if takes && synOp w = 0x36 && !bitAt w.toNat 20 then some false else none

@[simp] theorem guardBit_none (i : Nat) : guardBit none i = true := rfl

theorem onlyCore_eq {s d : Device} {c : CoreId} (h : d = s) : onlyCore s d c := h ▸ onlyCore.refl s c

/-- A legal SC syllable alone in its bundle, in plain flow: the core one bundle on. -/
theorem issue_sc {s : Device} {c : CoreId} (h : Plain s c) {w : Word32} (hw : scOk w = true)
    (hl : ∀ q ∈ (scNow s c w).lands, ∀ a, q.2 ≠ .dataErr a) (ht : (scNow s c w).trap = false) :
    let y := (coreAt s c.val).issued (scNow s c w).lands (scNow s c w) (isBranch (synOp w)) (setENow s c w) 0
    onlyCore s (issueRow c 3 w s) c ∧ coreAt (issueRow c 3 w s) c.val =
      { y with regs := { y.regs with ipend := y.regs.ipend ||| BitVec.ofNat 32 ((scNow s c w).pends &&& srcMask) } } := by
  have hc := commit_plain h (d := { s with free := s.free + 1 }) rfl [] [] []
    (scNow s c w) (isBranch (synOp w)) (setENow s c w) 0 0 (by simpa using hl) ht
  have hi : issueRow c 3 w s = commitBundle c.val false [] [] [] (scNow s c w) (isBranch (synOp w))
      (setENow s c w) 0 0 { s with free := s.free + 1 } := by
    simp only [issueRow, h.issues, if_true, bundleOf, issueBundle, bundleOk, bVx0_mkBundle, bVx1_mkBundle, bLs_mkBundle,
      bSc_mkBundle]
    simp [vxOk_nop, lsOk_nop, hw, placeOk_plain h, synOp_nop, synGrd_nop, vxExec_nop, lsAccess, lsOp, guardBit_none, freeNat,
      scNow, setENow, synGuard, regNow, rrbNow, view_of_landed h.landed]
    rfl
  intro y
  rw [hi]
  exact ⟨hc.1.ofFree, by simpa using hc.2⟩

/-- A bundle without control effect moves the core one bundle on. -/
theorem issued_lands {s : Device} {c : CoreId} (h : Plain s c) (ls l : List (Nat × Landing)) :
    let y := (coreAt s c.val).issued ls { ScOut.none with lands := l } false none 0
    { y with regs := { y.regs with ipend := y.regs.ipend ||| BitVec.ofNat 32 (0 &&& srcMask) } } = (coreAt s c.val).after ls := by
  have hw := h.issues
  have h2 := h.noBranch
  have h3 := h.noLock
  have h4 := h.noRpt
  simp only [wouldIssue, Bool.and_eq_true, decide_eq_true_eq, Bool.not_eq_true', Option.isNone_iff_eq_none] at hw
  obtain ⟨⟨⟨⟨⟨⟨⟨⟨⟨⟨⟨-, -⟩, w3⟩, -⟩, -⟩, w6⟩, w7⟩, -⟩, -⟩, w10⟩, w11⟩, w12⟩ := hw
  generalize coreAt s c.val = x at *
  cases x
  simp only at h2 h3 h4 w3 w6 w7 w10 w11 w12
  subst h2 h3 h4 w3 w6 w7 w10 w11 w12
  simp [Core.issued, Core.after, CoreRegs.markE, ScOut.none]

/-- The same with stall cycles that follow and sources that pend. -/
theorem issued_access {s : Device} {c : CoreId} (h : Plain s c) (ls : List (Nat × Landing)) (p st : Nat) :
    let y := (coreAt s c.val).issued ls ScOut.none false none st
    { y with regs := { y.regs with ipend := y.regs.ipend ||| BitVec.ofNat 32 (p &&& srcMask) } } =
      let z := { (coreAt s c.val).after ls with stall := st }
      { z with regs := { z.regs with ipend := z.regs.ipend ||| BitVec.ofNat 32 (p &&& srcMask) } } := by
  have hw := h.issues
  have h2 := h.noBranch
  have h3 := h.noLock
  have h4 := h.noRpt
  simp only [wouldIssue, Bool.and_eq_true, decide_eq_true_eq, Bool.not_eq_true', Option.isNone_iff_eq_none] at hw
  obtain ⟨⟨⟨⟨⟨⟨⟨⟨⟨⟨⟨-, -⟩, w3⟩, -⟩, -⟩, w6⟩, w7⟩, -⟩, -⟩, w10⟩, w11⟩, w12⟩ := hw
  generalize coreAt s c.val = x at *
  cases x
  simp only at h2 h3 h4 w3 w6 w7 w10 w11 w12
  subst h2 h3 h4 w3 w6 w7 w10 w11 w12
  simp [Core.issued, Core.after, CoreRegs.markE, ScOut.none]

theorem vxSlot_bundle (vx1 : Bool) (w : Word32) :
    bundleOf (vxSlot vx1) w = mkBundle (if vx1 then 0 else w) (if vx1 then w else 0) 0 0 := by
  cases vx1 <;> rfl

/-- A legal VX syllable alone in its bundle, in plain flow: the core one bundle on. -/
theorem issue_vx {s : Device} {c : CoreId} (h : Plain s c) (vx1 : Bool) {w : Word32} (hw : vxOk vx1 w = true)
    (hl : ∀ fr, ∀ q ∈ vxExec w (regNow s c) (rrbNow s c) (synGuard s c w) fr, ∀ a, q.2 ≠ .dataErr a) :
    ∃ fr, onlyCore s (issueRow c (vxSlot vx1) w s) c ∧ coreAt (issueRow c (vxSlot vx1) w s) c.val =
      (coreAt s c.val).after (vxExec w (regNow s c) (rrbNow s c) (synGuard s c w) fr) := by
  refine ⟨if vx1 then Config.free s.free / 2 ^ 32 else Config.free s.free, ?_⟩
  generalize hfr : (if vx1 then Config.free s.free / 2 ^ 32 else Config.free s.free) = fr
  have hc (v0 v1) (hv : v0 ++ v1 = vxExec w (regNow s c) (rrbNow s c) (synGuard s c w) fr) :=
    commit_plain h (d := { s with free := s.free + 1 }) rfl v0 v1 []
      ScOut.none false none 0 0 (by simpa [ScOut.none, ← List.mem_append, hv] using hl fr) rfl
  have hi : ∃ v0 v1, v0 ++ v1 = vxExec w (regNow s c) (rrbNow s c) (synGuard s c w) fr ∧
      issueRow c (vxSlot vx1) w s = commitBundle c.val false v0 v1 [] ScOut.none false none 0 0
        { s with free := s.free + 1 } := by
    subst hfr
    cases vx1
    · refine ⟨_, [], List.append_nil _, ?_⟩
      simp only [issueRow, h.issues, if_true, vxSlot_bundle, issueBundle, bundleOk, bVx0_mkBundle, bVx1_mkBundle,
        bLs_mkBundle, bSc_mkBundle]
      simp [vxOk_nop, lsOk_nop, scOk_nop, hw, placeOk_plain h, synOp_nop, synGrd_nop, vxExec_nop, scExec_nop, lsAccess, lsOp,
        guardBit_none, freeNat, synGuard, regNow, rrbNow, view_of_landed h.landed, isBranch]
      rfl
    · refine ⟨[], _, List.nil_append _, ?_⟩
      simp only [issueRow, h.issues, if_true, vxSlot_bundle, issueBundle, bundleOk, bVx0_mkBundle, bVx1_mkBundle,
        bLs_mkBundle, bSc_mkBundle]
      simp [vxOk_nop, lsOk_nop, scOk_nop, hw, placeOk_plain h, synOp_nop, synGrd_nop, vxExec_nop, scExec_nop, lsAccess, lsOp,
        guardBit_none, freeNat, synGuard, regNow, rrbNow, view_of_landed h.landed, isBranch]
      rfl
  obtain ⟨v0, v1, hv, hi⟩ := hi
  rw [hi]
  have hc := hc v0 v1 hv
  exact ⟨hc.1.ofFree, by simpa [ScOut.none, hv] using hc.2.trans (by simpa [ScOut.none, hv] using issued_lands h _ [])⟩

/-- A legal LS syllable alone in its bundle, in plain flow, its access done: the core one bundle on. -/
theorem issue_ls {s s' : Device} {c : CoreId} (h : Plain s c) {w : Word32} (hw : lsOk w = true)
    (hg : guardBit (synGuard s c w) 0 = true) {ls : List (Nat × Landing)} {p st : Nat}
    (hr : lsAccess (initFrozen s (lsInit c.val)) c.val w (regNow s c) (rrbNow s c) s = .done ls p st s')
    (hx : coreAt s' c.val = coreAt s c.val) (hl : ∀ q ∈ ls, ∀ a, q.2 ≠ .dataErr a) :
    let y := { (coreAt s c.val).after ls with stall := st }
    onlyCore s' (issueRow c 2 w s) c ∧ coreAt (issueRow c 2 w s) c.val =
      { y with regs := { y.regs with ipend := y.regs.ipend ||| BitVec.ofNat 32 (p &&& srcMask) } } := by
  have hc := commit_plain h (d := { s' with free := s'.free + 1 }) hx [] [] ls
    ScOut.none false none p st (by simpa [ScOut.none] using hl) rfl
  have hi : issueRow c 2 w s = commitBundle c.val false [] [] ls ScOut.none false none p st
      { s' with free := s'.free + 1 } := by
    simp only [issueRow, h.issues, if_true, bundleOf, issueBundle, bundleOk, bVx0_mkBundle, bVx1_mkBundle, bLs_mkBundle,
      bSc_mkBundle]
    have hg' : guardBit (if synGrd w = 0 then none else
        some (((coreAt s c.val).view).get (coreAt s c.val).view.bank (levels s c.val) (dstatVal (coreAt s c.val))
          ⟨.p, physP (coreAt s c.val).view.cur.rrb (synGrd w - 16)⟩)) 0 = true := by
      rw [view_of_landed h.landed]; exact hg
    have hr' : lsAccess (initFrozen s (lsInit c.val)) c.val w
        (fun y => ((coreAt s c.val).view).get (coreAt s c.val).view.bank (levels s c.val) (dstatVal (coreAt s c.val)) y)
        (coreAt s c.val).view.cur.rrb s = .done ls p st s' := by
      rw [view_of_landed h.landed]; exact hr
    simp [hg', hr']
    simp [vxOk_nop, scOk_nop, hw, placeOk_plain h, synOp_nop, synGrd_nop, vxExec_nop, scExec_nop, guardBit_none, freeNat,
      isBranch]
  intro y
  rw [hi]
  refine ⟨hc.1.ofFree, hc.2.trans ?_⟩
  simpa [ScOut.none] using issued_access h ls p st

end Sys2Proof.Machine
end

