-- ==== Sys2Proof/Tests/Slice0.lean ====
section
/-! SUPPORT. Tests: each check of WellFormed refuses an ill-formed command, a concrete state and operands meet the hypotheses of each
statement, and a few single steps have the values that the spec gives. -/
namespace Sys2Proof.Machine.Tests
set_option Elab.async false
open Sys2Proof Sys2Proof.Machine

/-- A table with the given entries. -/
def tableOf {α : Type} [DecidableEq α] (d : α) (l : List (Nat × α)) : Sparse α := l.foldl (fun m x => m.set d x.1 x.2) .empty

/-- The device after a command; a stop shows as an impossible counter. -/
def ran (i : Instr) (s : Device) : Device :=
  match exec i { State.reset with dev := s } with
  | .next t => t.dev
  | _ => { s with free := 999999 }

/-- The state with nothing waiting over a device. -/
def above (s : Device) : State := { pending := [], dev := s }

/-- RegAccepts for a write of 32 bits, as a test. -/
def acceptsReg (s : Device) (i : InitId) (b : Blk) (blk off v : Nat) : Bool :=
  csrOpen s i (stampPlot s i) b off && !almRefuses (fun d => (blkWrite i b blk off v (2 ^ 32 - 1) d).getD d) s

/-- MgmtQuiet, as a test. -/
def quietMgmt (s : Device) : Bool := s.rakes.isEmpty && s.mgmt.progress.isEmpty && s.mgmt.parked.isEmpty

/-- MemCalm, as a test that is a little stronger. -/
def calmMem (s : Device) : Bool := s.trl.waiting.isEmpty && s.mem.renews.isEmpty

/-- NetReady, as a test that is a little stronger. -/
def netReady (s : Device) (i : InitId) (c : Nat) : Bool :=
  calmMem s && !s.trl.stuck && !(win s i).stalled && (lowestFree (win s i) (initOutst i)).isSome && decide (stampPlot s i < 16)
    && (route s (initSite i) (targetSite (coreAddr c 0))).isSome && targetSite (coreAddr c 0) = targetSite (coreAddr c 0x1FFFF)
    && s.mem.txns.isEmpty && (s.trl.rsps.all fun r => r.req.init ≠ i) && s.cxl.hostReqs.all fun p => p.init ≠ i

/-- BusOpen, as a test. -/
def busOpen (s : Device) (i : InitId) : Bool :=
  !s.trl.stuck && !(win s i).stalled && (lowestFree (win s i) (initOutst i)).isSome && s.trl.rsps.all fun r => r.req.init ≠ i

/-- Plain, as a test. -/
def plainCore (s : Device) (c : CoreId) : Bool :=
  let x := coreAt s c.val
  wouldIssue s c.val && x.flights.isEmpty && x.branch.isNone && decide (x.lock = 0 ∧ x.rpt = 0) && !endsAt x.regs.cur 0 x.pc
    && !endsAt x.regs.cur 1 x.pc && !x.dbg.feeding

/-- All hold. -/
def met (l : List Bool) : Bool := l.all id

/-- A hub management core. -/
def hubCore : InitId := 0x800

/-- The device once start-up is over. -/
def awake : Device :=
  { Device.reset with
    mgmt := { Device.reset.mgmt with up := true, dev := .user }
    trl := { Device.reset.trl with hlUp := 0xFF } }

/-! ## Ill-formed commands -/

def noPacket : Packet := { flags := 0, seq := 0, plot := 0, rsvd := 0, plen := 0, session := 0, mac := [], payload := [] }
def emptyTrain : LinkTrain := { groups := [], wires := [], failed := [] }

theorem test_wf_porN : Instr.wf (.porN 0 []) = false := by decide
theorem test_wf_sysResetN : Instr.wf (.sysResetN (List.replicate 31 0)) = false := by decide
theorem test_wf_checker : Instr.wf (.checkerSelfTestComplete [⟨1, 128⟩]) = false := by decide
theorem test_wf_screen : Instr.wf (.sramFillComplete [⟨1, 384, 0, 0, 0⟩]) = false := by decide
theorem test_wf_finding_link : Instr.wf (.bistComplete [⟨6, 14, 0, 0, 0⟩] []) = false := by decide
theorem test_wf_linkTrains : Instr.wf (.linkTrainingComplete [emptyTrain]) = false := by decide
theorem test_wf_linkTrain_strand :
    wfLinkTrain 8 { emptyTrain with failed := [(0, 8)] } = false := by decide
theorem test_wf_channels : Instr.wf (.startUpTrainingComplete []) = false := by decide
theorem test_wf_burst : Instr.wf (.dramReadComplete 0 ⟨0, 0, .clean⟩ ⟨0, 0, .clean⟩ (some []) none) = false := by decide
theorem test_wf_selfRefresh :
    Instr.wf (.memSelfrefreshEnter (.doe 0) { noPacket with payload := [0, 0, 0, 0, 1] }) = false
      ∧ Instr.wf (.memSelfrefreshExit (.doe 0) noPacket) = false := by decide
theorem test_wf_strand : Instr.wf (.ackDue 8 0 8) = false ∧ Instr.wf (.graftComplete 13 1 15) = false := by decide
theorem test_wf_memwr : Instr.wf (.memwr 0 0 [1]) = false := by decide
theorem test_wf_getLog : Instr.wf (.getLog 0 [] 0 0) = false := by decide
theorem test_wf_upset_bit : Instr.wf (.upset (.bit 0 0 4096 0)) = false := by decide
theorem test_wf_upset_tap : Instr.wf (.upset (.tap 0 true 0 0 16 0)) = false ∧ Instr.wf (.upset (.ring 0 4 0 false)) = false := by decide
theorem test_wf_upset_decoder : Instr.wf (.upset (.decoder 0 0 12 true)) = false := by decide
theorem test_wf_recovery : Instr.wf (.recoveryFlashReadComplete [] none) = false := by decide

/-- A command that names no object stops the step. -/
theorem test_illFormed_stops :
    (match exec (.memwr 0 0 [1]) State.reset with | .fault (.illFormed _) => true | _ => false) = true := by decide

/-! ## Word cells -/

/-- Bed 0 runs; the cells of its first row are clocked. -/
def cellDev : Device := { Device.reset with beds := tableOf Bed.reset [(0, { Bed.reset with st := .running, rowEn := 1 })] }
def cell00 : CellRef := { bed := 0, cluster := 0, cell := 0 }

theorem wit_CellOperations : cellRuns cellDev cell00 = true := by decide +kernel

/-! ## Fraelm cores -/

/-- An active core with a few registers set. -/
def liveCore : Core :=
  { Core.reset with
    en := true, st := .active, pc := 0x100
    regs := { CoreRegs.zero with
      main := { RegBank.zero with s := tableOf 0 [(1, 0x80000005), (2, 0x123)], a := tableOf 0 [(1, 0x20010), (2, 0x20101), (3, 0x50000), (4, 0x40000), (5, 0x40020), (6, 0x60000), (7, 0x20007)] }
      m := tableOf 0 [(1, 0x40)]
      p := tableOf 0 [(0, 0xFFFFFFFFFFFFFFFF), (1, 0xFFFFFFFFFFFFFFFE)] } }

def coreDev : Device := setCore 0 liveCore awake

/-- An address register's access address under an opcode without an update. -/
def addrOf (op : BitVec 6) (an : BitVec 4) : Nat := (lsAddress (lmWord 0 op 0 an 0 0) (regNow coreDev 0)).1

/-- Plain flow with a true guard (P0, and none) and a false one (P1): ScalarArithmetic to VectorAccumulate. -/
theorem wit_plain_core :
    (plainCore coreDev 0 && guardOn coreDev 0 16 && guardOn coreDev 0 0 && !guardOn coreDev 0 17 && grdLegal 31) = true
      ∧ grdLegal 17 = true ∧ guardBit (guardNow coreDev 0 17) 0 = false ∧ grdLegal 15 = false
      ∧ (coreAt coreDev 0).regs.istat.getLsbD 0 = false := by decide +kernel

/-- Aligned addresses in the local memories, in the streams and nowhere, and a misaligned one: LoadsComplete to SharedAccess. -/
theorem wit_addresses :
    addrOf 0x08 1 % 16 = 0 ∧ localMem (addrOf 0x05 1) = some (2, 0x10) ∧ addrOf 0x05 2 % 4 ≠ 0 ∧ localMem (addrOf 0x05 0) = some (1, 0)
      ∧ addrOf 0x07 4 = 0x40000 ∧ addrOf 0x0D 5 = 0x40020
      ∧ addrOf 0x05 6 % 4 = 0 ∧ localMem (addrOf 0x05 6) = none ∧ ¬(addrOf 0x05 6 < 0x60000) := by decide +kernel

theorem wit_local_memory : (arrayAt coreDev 2 0).dec = [] ∧ synClass ((arrayAt coreDev 2 0).read 0x10).syn = .clean := by decide +kernel

/-- Circular addressing with the buffer at the top of the address space, and linear: Addressing. -/
theorem wit_Addressing :
    let s := setCore 0 { liveCore with regs := { liveCore.regs with b := tableOf 0 [(1, 0xFFFFFF00)], l := tableOf 0 [(1, 0x100)] } } awake
    let B := regNow s 0 ⟨.b, 1⟩
    let L := regNow s 0 ⟨.l, 1⟩
    (0 < L ∧ B + L ≤ 2 ^ 32) ∧ regNow s 0 ⟨.l, 2⟩ = 0 := by decide +kernel

/-- Stream ports enabled, a token in L_IN and room in L_OUT: SharedAccess. -/
theorem wit_streams :
    let s := setCoreIo 0 { CoreIo.reset with lIn := [5], lOut := [1] } (setCore 0 { liveCore with enL := true } awake)
    plainCore s 0 = true ∧ (coreAt s 0).enL = true ∧ (coreIoAt s 0).lIn = [5] ∧ (coreIoAt s 0).lOut.length < 2 := by decide +kernel

/-- A request can go out for an exclusive access, and an answered one is held: SharedAccess. -/
theorem wit_exclusive :
    let s := setCore 0 { liveCore with regs := { liveCore.regs with main := { liveCore.regs.main with s := tableOf 0 [(2, 0x00020040), (3, 0xF000)] } } } awake
    let a := sNow s 0 2 + regNow s 0 ⟨.s, 3⟩ % 2 ^ 16 * 2 ^ 32
    let q := issue (initFrozen s (lsInit 0)) .atomic .xload { init := lsInit 0, tag := none, enters := false, odd := none, addr := BitVec.ofNat 48 a, len := 0, bcnt := 3, data := [], opA := 0, opB := 0 } s
    let t := setCore 0 { liveCore with hold := .answered rcOkay 7 } awake
    plainCore s 0 = true ∧ a % 8 = 0 ∧ (coreAt s 0).hold = .none ∧ q.isSome = true ∧ (q.map fun p => coreAt p.1 0) = some (coreAt s 0)
      ∧ plainCore t 0 = true ∧ (coreAt t 0).dbg.cut = false ∧ isErr rcOkay = false := by decide +kernel

/-- Register writes of a core in each state that the clauses name: CoreRegisters. -/
theorem wit_CoreRegisters : met (
    let idle := setCore 5 Core.reset awake
    let ok (s : Device) (off v : Nat) : Bool := acceptsReg s hubCore (.core 5) (coreOff 5) off v
    [quietMgmt idle, ok idle 0 1, ok (setCore 5 liveCore awake) 0 0, ok idle 0x24 9, ok idle 0x3C 0x5AFE, ok idle 0x18 0xFFFF,
      ok idle 0x48 (7 + 0xFFFF * 2 ^ 16), ok idle 0x114 1, ok idle 0x154 31, (coreAt idle 5).st = .idle, !(coreIoAt idle 5).unusable]) = true := by decide +kernel

theorem wit_CoreLife : met (
    let x : Core := { Core.reset with st := .stopping }
    [quietMgmt awake, !awake.start.due, (coreIoAt awake 5).lOut = [], (coreIoAt awake 5).uOut = [], !x.dma0.busy, !x.dma1.busy, !x.en]) = true := by decide +kernel

/-- An interrupt that is due, one that ends WFI, the timer and the watchdog at 1, a DMA transfer at its end, and a stream access that
waits: CoreEvents. -/
theorem wit_CoreEvents : met (
    let x : Core := { liveCore with regs := { liveCore.regs with pstat := 1, ien := 0x100, ipend := 0x100 } }
    let w : Core := { liveCore with timerEn := true, timerCnt := 1, wdtEn := true, wdtAction := true, wdtCnt := 1 }
    let s := setCore 0 x awake
    let y : Core := { x with hold := .stream 3, held := some (bundleOf 2 (lmWord 0 0x07 0 4 0 0)), enL := true, tmo := 1 }
    [interruptDue s 0 = some 8, !haltDue s 0, x.exc.isNone, x.flights.isEmpty, (enabledSource s 0).isSome,
      timerRuns (setCore 0 w awake) 0, wdtRuns (setCore 0 w awake) 0, !w.dbg.halted, !stalledNow (setCore 0 w awake) 0, !w.wdtStage,
      !stalledNow (setCoreIo 0 { CoreIo.reset with lIn := [5] } (setCore 0 y awake)) 0, !y.dbg.feeding]) = true := by decide +kernel

/-! ## Shells and registers -/

/-- Each shell's window is reached, and no state of the lane stands in the way: Shells. -/
theorem wit_ShellControl : met (
    let ok (id : ShellId) (r v : Nat) : Bool :=
      acceptsReg awake hubCore (shellWin id).1 (shellWin id).2.1 ((shellWin id).2.2 + r) v
    [ok (.gen 383) 0 1, ok (.pma 511) 0 1, ok (.phy 23) 0 1, ok (.gpio 15) 0 0, ok (.gen 0) 4 3, isMgmtCore hubCore,
      (shellAt awake (.gen 0)).st = .idle, calmMem awake, !almRefuses (shellWrite hubCore (.volt 7) 0 1) awake, shellHidden (.volt 7), !(shellAt awake (.gen 0)).start, (laneAt awake 511).next = none, awake.ports.jobs = [],
      !(subAt awake (laneEngine 511) 0).deferral]) = true := by decide +kernel

theorem wit_ShellEvents : met (
    let x : Shell := { Shell.reset with st := .starting, en := true, mspec := 1 }
    [vccoOk 1 1030, vccoOk 1 970, !x.pendStop, !awake.start.due, refFound (setShell (.gen 3) x awake) 3, !lockTooFast (setShell (.gen 3) x awake) 3,
      !refFound (setShell (.gen 3) { x with sampled := 1 } awake) 3, x.deferral.isNone,
      (chAt (setCh 2 { Chan.reset with retrain := some 1 } awake) 2).retrain = some 1, (bedAt awake 3).st = .unconfigured]) = true := by decide +kernel

/-- An address in no block, an owner's register, another plot's, a wrong width, and an offset with no register: RegisterWrite. -/
theorem wit_RegisterWrite : met (
    let bed := coreOff 5
    [blkOf 0xFFFFFFC = none, blkOf bed = some (.core 5, bed), (let s := { awake with own := { awake.own with cores := tableOf 0 [(16, 3)] } }; !csrOpen s 0x130 (stampPlot s 0x130) .tim 0),
      csrOpen awake hubCore (stampPlot awake hubCore) (.core 5) 0,
      regWrite (blkWidth (.core 5)) 2 4 1 = none, regWrite (blkWidth (.core 5)) 0xFFF0 4 1 = some none,
      (regWrite (blkWidth (.core 5)) 0x24 4 9).isSome, acceptsReg awake hubCore (.core 5) bed 0x24 9]) = true := by decide +kernel

/-- The halves of a 64-bit register, and TB_NOW: RegisterWrite. -/
theorem wit_RegisterHalves : met (
    let blk := 0x100000
    [blkOf (blk + 0x18) = some (.mem 0, blk), blkOf (blk + 0x1C) = some (.mem 0, blk), blkWidth (.mem 0) 0x18 = some (0x18, 64),
      blkWidth (.mem 0) 0x1C = some (0x18, 64), csrOpen awake hubCore (stampPlot awake hubCore) (.mem 0) 0x18,
      csrOpen awake hubCore (stampPlot awake hubCore) (.mem 0) 0x1C,
      csrOpen awake hubCore (stampPlot awake hubCore) .tim (0x108 + 0x40 * 7), hubCore ≠ islandInit]) = true := by decide +kernel

/-! ## Beds -/

/-- A tracking and a locked generator, a stretched clock and a saturated one: BedClocks. -/
theorem wit_BedClocks : met (
    let g (m : BitVec 15) (st : ShellSt) : Shell := { Shell.reset with en := true, st, sampled := m, mstat := 1 }
    [genMode (g 0 .active) = 0, genMode (g 1 .active) = 1, (g 1 .active).mstat.getLsbD 0, (g 1 .starting).deferral.isNone, quietMgmt awake,
      acceptsReg awake hubCore (.bed 3) (bedOff 3) 0x12C 15, (bedAt awake 3).st ≠ .committed]) = true := by decide +kernel

/-- A boundary with nothing to move, one that waits for a token, one past its limit: Boundaries. -/
theorem wit_Boundaries : met (
    let none' : Boundary := { outs := [], ins := [], levels := [], pins := (0, 0), waited := none }
    let ins (k : Nat) : Boundary := { none' with ins := [k] }
    let b : Bed := { Bed.reset with st := .running, border := { Border.reset with bound := some none' } }
    let w : Border := { b.border with waitLimit := 1 }
    let s := setBed 0 b { awake with time := { awake.time with ticks := 10 ^ 6 } }
    [firstUnmet s 0 none' = none, (firstUnmet s 0 (ins 64)).isSome, (bedAt s 0).st ≠ .waiting,
      w.waitStart + w.waitLimit.toNat * 1000 < devNs s, !w.alarmed]) = true := by decide +kernel

/-- A token between two beds, to a core and from one: BorderMovement. -/
theorem wit_BorderMovement : met (
    let r (ch : Fin 64) : BedEnd := { bed := 1, side := 3, ch }
    let e (ch : Fin 64) : BedEnd := { bed := 0, side := 1, ch }
    let bed (l : List (Nat × ChanSt)) : Bed := { Bed.reset with st := .running, border := { Border.reset with chans := tableOf ChanSt.reset l } }
    let from' := bed [(69, { ChanSt.reset with cfg := 1, tx := [⟨7, some (.bed (r 5))⟩] }), (70, { ChanSt.reset with cfg := 3, levels := [(9, some (.bed (r 6)))] })]
    let s := { awake with beds := tableOf Bed.reset [(0, from'), (1, bed [(197, { ChanSt.reset with cfg := 2 }), (198, { ChanSt.reset with cfg := 4 })])] }
    [(bedAt s 1).st.holdsConfig, (bedAt s 0).st ≠ .waiting, joined s 0 1 5, !crossDie s 0 1 5, !crossDie s 0 1 6,
      ((chan (bedAt s 0) (endKey (e 5))).tx.map (·.dest)) = [some (.bed (r 5))], levelTaken s (e 6) (some (.bed (r 6))) = some (r 6),
      (chan (bedAt s 1) (endKey (r 5))).fifo.length < fifoCap s 1 3 5, (coreIoAt s 127).lIn.length < 8, (streamBed 0 .lOut).1 < 384]) = true := by decide +kernel

/-- Two taps of one line in one phase: BedClocks. -/
theorem wit_LineContention : met (
    let b : Bed := { Bed.reset with st := .running, cfg := { BedCfg.blank with taps := tableOf Tap.off [(hTap 0 0 0, ⟨1, 1⟩), (hTap 0 0 1, ⟨1, 1⟩)] } }
    [(contended b 0).length = 1]) = true := by decide +kernel

/-- A running bed with a memory without check bits, nothing injected, no decoder fault: BlockMemoryAccess. -/
theorem wit_BlockMemoryAccess : met (
    let s := { awake with beds := tableOf Bed.reset [(0, { Bed.reset with st := .running })] }
    [(bedAt s 0).st = .running, (arrayAt s 0 0).dec = [], !(bedAt s 0).inject.arm, synClass ((arrayAt s 0 0).read 4095).syn = .clean]) = true := by decide +kernel

theorem wit_UpsetsAndInjection : met (
    let s := { awake with trust := { awake.trust with lifecycle := .deployed } }
    [wfUpset (.bit 6 0 65535 13), wfUpset (.tap 383 true 7 3 15 0), wfUpset (.ring 8 7 21 false), s.trust.lifecycle ≠ .decommissioned,
      ((slotHere { awake with trl := { awake.trl with slots := [{ site := 8, ring := 7, pos := 21, flit := some { leg := 3, idx := 0 }, mark := none, resv := none }] } } 8 7 21).bind (·.flit)).isSome, wfUpset (.decoder 0 18431 11 true), (arrayAt awake 6 0).dec = [],
      acceptsReg awake hubCore (.bed 383) (bedOff 383) 0xB08 0xFFF, acceptsReg s hubCore (.bed 383) (bedOff 383) 0xB08 0xFFF]) = true := by decide +kernel

/-- A rake at its first word and one at its end: CodedArrays. -/
theorem wit_Rakes : met (
    let r : Rake := { cls := 0, repairMode := true, index := 0, start := 0, len := 4096, done := 0, words := 0, corr := 0, unc := 0, addr := 0, repaired := 0, firstCorr := none, firstBad := none, skipped := 0, tStart := 0, aborted := false, inst := .doe 0, slotAt := 0 }
    let at' (r : Rake) := { awake with rakes := [r], time := { awake.time with ticks := 10 ^ 6 }, beds := tableOf Bed.reset [(0, { Bed.reset with st := .running, cfg := { BedCfg.blank with bms := tableOf BmCfg.reset [(0, { BmCfg.reset with check := true, used := true })] } })] }
    let s := at' r
    let core := at' { r with cls := 2, index := 5 }
    let last : Rake := { r with cls := 2, index := 5, done := 4096 - arrayWord 2 }
    let p : Progress := { inst := .doe 0, opcode := 0x0402, pkt := noPacket, holds := [], mute := false }
    let ends := { at' last with mgmt := { awake.mgmt with progress := [p] } }
    [findRake s 0 0 = some r, (bedAt s 0).st = .running, !noCheck s 0 0, decide (r.slotAt + 1000000 ≤ devNs s), r.done < r.len,
      ((arrayAt s 0 0).upset 0 3 |>.read 0).cls.corrected, (findRake core 2 5).isSome, (arrayAt core 2 5).dec.isEmpty, last.done + arrayWord 2 = last.len,
      !noCheck ends 2 5, rakeable ends 2 5, ((arrayAt ends 2 5).readBytes last.done (arrayWord 2)).all fun v => v.cls = .clean]) = true := by decide +kernel

/-! ## Faults, sensors and self-test -/

def aReport (src : Source) (cls : Fin 5) : Report := { src, cls, cause := 1, detail := 0, time := 0 }

/-- A report of the hub, one of a die, and one on a line: FaultReports. -/
theorem wit_FaultReports : met (
    let s := { awake with flt := { awake.flt with arriving := [aReport (.hub 2) 2], sending := [{ die := 7, rep := aReport (.die 7) 0, merged := 255 }] } }
    [quietMgmt s, !s.start.due, s.flt.fsafe ≠ .c4, s.flt.first.length = 5, srcDie (.hub 2) = none, srcDie (.bed 383) = some 7, (srcWord s 0).sticky = false,
      (2 : Fin 5).val ≤ 2, s.flt.sending.length = 1]) = true := by decide +kernel

/-- Nothing runs that C3 would end: SafeState. -/
theorem wit_SafeStateEntered : met (
    [quietMgmt awake, awake.cfg.load.isNone, (entries awake).isEmpty, awake.bist.run.isNone, !(bedAt awake 0).rbHold, awake.flt.fsafe = .none,
      awake.flt.first.length = 5, srcDie .device = none]) = true := by decide +kernel
theorem wit_no_readback : ∀ n, (bedAt awake n).rbHold = false := fun _ => rfl

/-- A die that has applied nothing, one that has applied C3, and a pulse at its end: SafeState. -/
theorem wit_FsafeAndErrN : met (
    let s := { awake with flt := { awake.flt with fsafe := .c4, dieSafe := .c3 :: List.replicate 7 .none, pulse := some 0 }, time := { awake.time with ticks := 80000 } }
    [s.flt.dieSafe.length = 8, levelNo (s.flt.dieSafe.getD 0 .none) < levelNo s.flt.fsafe, s.flt.dieSafe.getD 1 .none = .none,
      (List.range 48).all fun i => outOfService s (48 + i),
      (List.range 8).all fun i => (List.range 8).all fun k => !subEn (subAt s (8 + i) k), devNs s = 100000]) = true := by decide +kernel

/-- A rule whose count has not yet reached its number: PolicyCounting and Sensors. -/
theorem wit_Sensors : met (
    let c : RuleCount := { n := 2, s := 5, h := 0 }
    let s := { awake with dbg := { awake.dbg with vccaux := true }, policy := { awake.policy with counts := tableOf RuleCount.zero [(3 * 65536 + 8, c)] } }
    [quietMgmt s, s.dbg.vccaux, wardenRuns s, !wardenRuns Device.reset, s.policy.table.isNone, c.h ≤ devNs s, s.alm.unacked < 131072,
      s.alm.next < 2 ^ 48 - 1, s.policy.counts.wf RuleCount.zero, c.n ≠ 0 && devNs s - c.s < 10 ^ 9,
      360 < (361 : BitVec 12).toInt && (399 : BitVec 12).toInt < 400]) = true := by decide +kernel

theorem wit_SmbusWords : met (
    let b := { awake.board with temps := tableOf (-10000) [(15, 100), (143, 90)] }
    [!{ awake.dbg with vccaux := false }.vccaux, awake.dbg.vccaux, b.temps.wf (-10000), 15 / 16 = 0x10 - 0x10, 143 / 16 = 0x18 - 0x10,
      b.temps.get (-10000) 15 ≠ -10000, b.temps.get (-10000) 143 ≠ -10000]) = true := by decide +kernel

/-- A BIST by command, an open record just old enough, and one too young: SelfTest. -/
theorem wit_BistAndRecordClose : met (
    let r : BistRun := { kind := 2, repair := false, beds := [5], first := 5, count := 1, start := 0, before := 0, hist := true, saves := [] }
    let s := { awake with bist := { awake.bist with run := some r }, time := { awake.time with ticks := 800000 } }
    [quietMgmt s, r.kind = 2, devNs s = 1000000, awake.bist.run.isNone]) = true := by decide +kernel

/-! ## Time -/

theorem wit_TimePins : met (
    let t : TimeBase := { TimeBase.reset with mode := .pps, pin := true, gotEdge := true, val := 1000 * 2 ^ 48 }
    let f : TimeBase := { TimeBase.reset with mode := .freq }
    [t.pin = decide ((1 : Fin 2) = 1), -(1000 * 2 ^ 48 : Int) ≤ secError t.val, secError t.val ≤ (1000 * 2 ^ 48 : Int), f.mode = .freq,
      awake.time.ppsOut[(1 : Fin 2).val]? = some { tb := 0, width := 0, high := none }]) = true := by decide +kernel

/-- A sideband message with one good copy of its CRC. -/
def sbMsg (type : Nat) (sub : BitVec 4) (body : BitVec 40) : SbMsg :=
  { sub, body, crc0 := 0, crc1 := sbCrc type { sub, body, crc0 := 0, crc1 := 0 } }

/-- A session that waits for START_AT, with a bed and a core. -/
def waitingSes : CfgSes :=
  { st := .waitingStart, plot := 0, path := 1, inst := .doe 0, base := 0, units := 1, reserve := 0, bytes := [], status := 0, start := 2, touched := 0
    beds := [9], cores := [3] }

/-- A change that is due, a word 0 within 2 ns and beyond, a replica out of contact, and a start that fires: TimeBases. -/
theorem wit_TimeDistribution : met (
    let c : RadjChange := { atUs := 1, fadj := some 5, contrib := none, ends := true }
    let s := { awake with time := { awake.time with ticks := 12800, bases := { TimeBase.reset with pend := [c] } :: List.replicate 7 TimeBase.reset, startAt := some { tb := 0, target := 0, fired := false } } }
    let e (data : Nat) : Int := centred (0 - (data * 2 ^ 48 : Nat)) (16 * secUnits : Nat)
    [s.time.replicas.wf Replica.reset, (tb s 0).pend = [c], c.atUs ≤ devNs s / 1000, -2 * 2 ^ 48 ≤ e 2 && e 2 ≤ 2 * 2 ^ 48,
      !(-2 * 2 ^ 48 ≤ e 3 && e 3 ≤ 2 * 2 ^ 48), max (replica s 0 0).lastRx s.time.began + 16000 ≤ devNs s, !(replica s 0 0).holdover,
      0 ≤ (tb s 0).val, (entries s).isEmpty, (7 + 5 * 64 : BitVec 40).toNat % 64 = 7,
      hubPath s 7 = some [7], sbGood s 7 1 7 (sbMsg 7 0 (7 + 5 * 64)),
      (entries { s with cfg := { s.cfg with ses := s.cfg.ses.set 1 (some waitingSes) } }).map (·.1) = [1]]) = true := by decide +kernel

/-! ## The Trellis -/

def atCore (n : Nat) (data : List Byte) (a : Word64) : TrlReq :=
  { init := hubCore, tag := none, enters := false, odd := none, addr := 0xF00005020040, len := 0, bcnt := BitVec.ofNat 8 (n - 1), data, opA := a, opB := 0 }

/-- CanSend, as a test. -/
def canSend (s : Device) (opc : Opc) (at' : AtType) (r : TrlReq) (t : Nat) : Bool :=
  r.tag.isNone && (barred opc r s).isNone && !(win s r.init).stalled && mayIssue r.init opc at'
    && decide (lowestFree (win s r.init) (initOutst r.init) = some t ∧ r.data.length = r.bcnt.toNat + 1)
    && (route s (initSite r.init) (targetSite r.addr.toNat)).isSome && formOk (sentPkt s opc at' r t)

theorem wit_TrellisRequests : met (
    let w := atCore 8 [1, 2, 3, 4, 5, 6, 7, 8] 0
    let other := { awake with own := { awake.own with cores := tableOf 0 [(5, 3)] } }
    let line := 0xF00005020040 / 64
    let held := { awake with trl := { awake.trl with resvs := [{ stop := 7, init := hubCore, line }] } }
    [spotOf w.addr.toNat = .core 5 2 0x40, canSend awake .write .xload w 0, canSend awake .pwrite .xload { w with init := 0x005 } 0,
      canSend awake .read .xload w 0, canSend awake .atomic .fetchAdd w 0, canSend awake .atomic .swap w 0, canSend awake .atomic .cas w 0,
      canSend awake .atomic .xload w 0, canSend awake .atomic .xstore w 0, coreOwner awake 5 = actPlot awake (sentPkt awake .read .xload w 0),
      coreOwner other 5 ≠ actPlot other (sentPkt other .read .xload w 0), (arrayAt awake 2 5).dec = [],
      hasResv 7 hubCore line held, !hasResv 7 hubCore line awake, numAt awake 2 5 0x40 8 = 0,
      (match initKind hubCore with | .ls _ => false | _ => true)]) = true := by decide +kernel

/-- A response in time for its tag, one with another generation, a tainted tag, a request at its timeout, an entry that has run out:
TrellisTags. -/
theorem wit_TrellisTags : met (
    let p := sentPkt awake .read .xload (atCore 8 [] 0) 3
    let busy : Tag := { Tag.reset with st := .busy, tmo := 0 }
    let w (t : Tag) (ts : List (Nat × Nat)) : InitWin := { InitWin.reset with tags := tableOf Tag.reset [(3, t)], taints := ts }
    let at' (t : Tag) (ts : List (Nat × Nat)) : Device := { awake with trl := { awake.trl with rsps := [{ req := p, rcode := 0, data := [] }], wins := tableOf InitWin.reset [(hubCore.toNat, w t ts)] } }
    [isMgmtCore hubCore, (tagOf (win (at' busy []) hubCore) 3).st = .busy, !tooOld awake p, p.gen = busy.gen,
      (route awake (rspSite awake { req := p, rcode := 0, data := [] }) (initSite hubCore)).isSome, busy.start + busy.tmo ≤ devNs awake,
      (win (at' busy (List.replicate 62 (9, 0))) hubCore).taints.length < 63, (win (at' busy [(3, 0)]) hubCore).taints = [(3, 0)],
      (win (at' busy []) hubCore).expired = []]) = true := by decide +kernel

theorem wit_TrellisMoves : met (
    let p := sentPkt awake .read .xload (atCore 8 [] 0) 3
    let up := setLink 0 { Link.reset with mode := .up } awake
    let cut := { awake with trl := { awake.trl with hlUp := 0 } }
    let queued : Device := addLeg ({ newLeg awake 0 (.req p) 8 (initStop hubCore) none with head := some 0 }) awake
    let old := { awake with time := { awake.time with ticks := 800000 } }
    let site := siteNo (initSite 0x005)
    let held (t : Nat) : Device := { awake with
      trl := { awake.trl with stops := tableOf StopSt.reset [(stopKey site (initStop 0x005), { StopSt.reset with ready := tableOf 0 [(3, 1)] })] }
      time := { awake.time with ticks := t } }
    [awake.trl.legs.isEmpty, !tooOld awake p, (boundFrom awake (.req p)).1 = 8, (boundFor awake (.req p)).1 = 0,
      (match bridgeFor awake 8 0 with | some b => (bridgeLink 8 b).isSome | none => false),
      ((bridgeFor awake 8 0).bind (bridgeLink 8)).any (fun x => !decide ((linkAt awake x.1).mode = .up) && decide (x.1 = 0)
        && decide (Parcel.flits (.req p) ≤ flitCredits (linkAt up x.1) x.2 0) && (emptiestStrand x.1 x.2 (linkAt up x.1)).isSome),
      (bridgeFor cut 8 0).isNone, p.opc ≠ .pwrite,
      ((queued.trl.legs.find? fun g => g.stage = .queue && g.own && g.init = hubCore).bind (·.head)).isSome, initKind 0x005 ≠ .none,
      !(ringsOf awake (initSite 0x005)).marks.contains (initStop 0x005, 3), (stopAt (held 0) site (initStop 0x005)).ready.get 0 3 = 1,
      decide (0 + max 16 (ringsOf awake (initSite 0x005)).starve.toNat ≤ ringCycles old.time.ticks),
      (match blkOf (winOff 0x005 + 0x80) with | some b => acceptsReg awake hubCore b.1 b.2 (winOff 0x005 + 0x80 - b.2) 3 | none => false)]) = true := by decide +kernel

/-! ## Memory -/

/-- A session of plot 0 on the first DOE. -/
def aSession : Session := { id := 5, opening := false, plot := 0, inst := .doe 0, win := SeqWin.reset, script := [], secret := [] }
/-- The device with that session. -/
def ready : Device := { awake with mgmt := { awake.mgmt with sessions := modAt awake.mgmt.sessions 0 fun _ => some aSession } }
def doe0 : Inst := .doe 0
/-- A packet of that session. -/
def packet (pl : List Byte) : Packet :=
  { flags := 0, seq := 1, plot := 0, rsvd := 0, plen := BitVec.ofNat 16 pl.length, session := 5, payload := pl, mac := [] }

/-- CmdArrives and CmdGood, as tests. -/
def arrives (s : Device) (o : OpSpec) (inst : Inst) (pkt : Packet) : Bool :=
  let c := ctxOf o inst pkt
  quietMgmt s && s.mgmt.up && !cmdHalted s && !badHeader o pkt && (!o.session || isFabric inst || (!macTransport inst && (sessionFor c s).isSome))
    && ((windowOf o c s).all fun w => w.fresh pkt.seq) && !plotBarred c s
def good (s : Device) (o : OpSpec) (inst : Inst) (pkt : Packet) : Bool :=
  let c := ctxOf o inst pkt
  arrives s o inst pkt && o.accepts s.mgmt.dev && (o.refusal c (taken o inst pkt s)).isNone
    && almRoom (o.records c (taken o inst pkt s)) (taken o inst pkt s) && !pkt.flags.getLsbD 0

def oneWindow : Window := { base := 0, size := 2 ^ 30, chBase := 0, mask := 3, grain := 0, hash := false, valid := true }
def oneChan : Chan := { Chan.reset with present := 2, density := 1, rateCode := 3 }
/-- Two fitted channels under one window. -/
def memDev : Device :=
  { ready with mem := { ready.mem with trained := true, windows := [oneWindow], chans := tableOf Chan.reset [(0, oneChan), (1, oneChan)] } }

theorem wit_MemoryChannels : met (
    let lost := setShell (.phy 0) { Shell.reset with st := .active, en := true } (setCh 0 { oneChan with retrain := some 2 } memDev)
    [quietMgmt memDev, calmMem memDev, memDev.mem.chans.wf Chan.reset, oneChan.fitted, oneChan.sr = .off, (1 : Fin 2).val < oneChan.present.toNat,
      oneChan.retrain.isNone, wfAltered none, wfAltered (some (List.replicate 32 1)), memDev.policy.queue.isEmpty, oneChan.refresh.getLsbD 8,
      (chAt lost 0).retrain = some 2, (shellAt lost (.phy 0)).st = .active, (shellAt lost (.phy 0)).en, (shellAt lost (.phy 0)).deferral.isNone,
      lost.mem.txns.isEmpty, !lost.alm.sealed, lost.alm.unacked < 131072, lost.alm.next < 2 ^ 48 - 1,
      { oneChan with sr := .exiting }.sr = .exiting]) = true := by decide +kernel

theorem wit_SelfRefreshEntered : met (
    let p : Progress := { inst := doe0, opcode := 0x0403, pkt := packet [1, 0, 0, 0, 0, 0, 0x7F, 0xFF], holds := [.chan 0], mute := false }
    let c : Chan := { oneChan with sr := .entering, seg0 := 0x7F, wr := [⟨2 ^ 29 - 1, [], none, 0, 0, 0⟩] }
    let s := setCh 0 c { memDev with mgmt := { memDev.mgmt with progress := [p] } }
    [s.mem.chans.wf Chan.reset, s.mem.lines.wf Line.blank, s.mem.regions.wf Region.reset, s.rakes.isEmpty, s.mgmt.parked.isEmpty, leAt p.pkt.payload 0 4 = 1, c.rd.isEmpty, c.held.isEmpty, !c.exitDue,
      !c.autoExit, c.wr.length ≤ 64, (chAt s 0).sr = .entering]) = true := by decide +kernel

/-- A request for a line at the bottom of the window, whose read heads the queue of channel 0. -/
def lineTxn (region : Option Nat) (dline : Nat) (got : List (Nat × List Byte)) : Txn :=
  { id := 5, pkt := { sentPkt memDev .read .xload (atCore 8 [] 0) 0 with addr := BitVec.ofNat 48 (dline * 64) }, job := .access, region, keyId := 0
    spans := [{ dline, chan := 0, line := dline, lo := 8, n := 8 }], reads := { need := [dline], todo := [], got } }
def readDev (x : Txn) : Device :=
  let d := x.pkt.addr.toNat / 64
  let s := setCh 0 { oneChan with rd := [⟨5, d, d, 0⟩] } memDev
  { s with mem := { s.mem with txns := [x], lines := tableOf .blank [(d, .held (List.replicate 64 1) none)] } }

theorem wit_MemoryReads : met (
    let s := readDev (lineTxn none 0 [])
    let c := chAt s 0
    [quietMgmt s, s.mem.chans.wf Chan.reset, s.mem.lines.wf Line.blank, s.mem.regions.wf Region.reset, calmMem s, !c.failed, c.retrain.isNone, c.sr = .off,
      !c.draining, c.held.isEmpty, c.rd[0]? = some ⟨5, 0, 0, 0⟩, !rowOpen s 0 0, (List.range 24).all fun k => k = 0 || (chAt s k).rd.isEmpty,
      s.policy.queue.isEmpty, storedLine s 0 0 = .held (List.replicate 64 1) none, c.wr.isEmpty,
      !wardenRuns { s with dbg := { s.dbg with mgmtCtl := 2 } }]) = true := by decide +kernel

/-! Protected lines. The MACs of a witness are those of the line in question, for no proof can compute one. -/

theorem mac8_length (tag : List Byte) : (mac8 tag).length = 8 := by
  simp only [mac8, sliceBytes, List.drop_zero, List.length_append, List.length_replicate, List.length_take]
  omega

theorem slice_whole (l : List Byte) (h : l.length = 8) : sliceBytes l 0 8 = l := by
  simp [sliceBytes, List.take_of_length_le, h]

theorem mac_differs (x : Seal) (raw : List Byte) : lineMac x raw ≠ sliceBytes ((lineMac x raw).map (· + 1)) 0 8 := by
  rw [slice_whole _ (by simp [lineMac, mac8_length])]
  intro h
  have h8 : (lineMac x raw).length = 8 := mac8_length _
  match hl : lineMac x raw, h8 with
  | b :: l, _ =>
    rw [hl] at h
    have : b = b + 1 := (List.cons.inj h).1
    bv_omega

theorem slice_block (f : Nat → List Byte) (hf : ∀ i, (f i).length = 8) (i : Nat) (hi : i < 8) : sliceBytes ((List.range 8).flatMap f) (8 * i) 8 = f i := by
  have e : List.range 8 = [0, 1, 2, 3, 4, 5, 6, 7] := rfl
  have key (n : Nat) : ∀ l : List Nat, l.length = n → ∀ i, i < n → sliceBytes (l.flatMap f) (8 * i) 8 = f (l.getD i 0) := by
    induction n with
    | zero => intro l _ i h; omega
    | succ n ih =>
      intro l hl i h
      match l, hl with
      | a :: l, hl =>
        cases i with
        | zero => simp [sliceBytes, hf]
        | succ i =>
          have := ih l (by simpa using hl) i (by omega)
          simp only [List.flatMap_cons, List.getD_cons_succ, ← this, sliceBytes, show 8 * (i + 1) = (f a).length + 8 * i by rw [hf]; omega,
            List.drop_length_add_append]
  have := key 8 (List.range 8) (by simp) i hi
  rw [this, e]
  congr 1
  match i, hi with
  | 0, _ | 1, _ | 2, _ | 3, _ | 4, _ | 5, _ | 6, _ | 7, _ => rfl

/-- A P2 region at the bottom of memory, with the counter block of its page 0 in the cache. -/
def guardedRegion : Region := { Region.reset with st := .active, level := 2, keyId := 7, size := 0x200000, metaBase := 0x400000, metaSize := metaSizeOf 0x200000 }
def blockLine : CacheLine := { line := guardedRegion.nodeAddr 0 0 / 64, slot := 0, dirty := false }
def guardedDev (dline : Nat) (macs : List Byte) : Device :=
  let s := setRegion 3 guardedRegion (readDev (lineTxn (some 3) dline [(0x400000 / 64, macs)]))
  { s with mem := { s.mem with cache := [blockLine] }, dbg := { s.dbg with mgmtCtl := 2 } }
def guardedSeal : Seal := p2Seal (guardedDev 0 []) guardedRegion 0 0
def guardedRaw : List Byte := (asFilled (guardedDev 0 []) 0 (storedLine (guardedDev 0 []) 0 0)).raw

theorem wit_ProtectedReads (macs : List Byte) : met (
    let s := guardedDev 0 []
    let n := guardedDev (blockLine.line + 1) []
    [quietMgmt s, s.mem.chans.wf Chan.reset, s.mem.lines.wf Line.blank, s.mem.regions.wf Region.reset, calmMem s, (chAt s 0).rd = [⟨5, 0, 0, 0⟩],
      (List.range 24).all fun k => k = 0 || (chAt s k).rd.isEmpty, s.policy.queue.isEmpty, !wardenRuns s, regionAt s 3 = guardedRegion,
      isNode n (some 3) (blockLine.line + 1), !isNode s (some 3) 0, s.mem.unread.isEmpty, cached s (guardedRegion.nodeAddr 0 0) = some blockLine,
      (cacheBytes s blockLine).all fun b => b.cls = .clean, blkKgen (ofLe (dataOf (cacheBytes s blockLine))) = 0, guardedRegion.macAddr 0 = 0x400000,
      guardedRegion.macSlot 0 = 0]) = true
    ∧ (guardedDev 0 macs).mem.txns.map (fun t => t.reads.at 0x400000) = [some macs] := ⟨by decide +kernel, rfl⟩
theorem wit_ProtectedReads_macs :
    lineMac guardedSeal guardedRaw = sliceBytes (lineMac guardedSeal guardedRaw) 0 8
      ∧ lineMac guardedSeal guardedRaw ≠ sliceBytes ((lineMac guardedSeal guardedRaw).map (· + 1)) 0 8 :=
  ⟨(slice_whole _ (mac8_length _)).symm, mac_differs _ _⟩

theorem wit_MapAndSelfRefresh : met (
    let set : List Byte := leBytes 8 0x100000000 ++ leBytes 8 0x20000000 ++ leBytes 8 0x10000000 ++ leBytes 4 3 ++ [2, 3, 0, 0] ++ List.replicate 224 0
    let off := { memDev with mem := { memDev.mem with windows := List.replicate 8 Window.off } }
    let asleep := setCh 0 { oneChan with sr := .on } off
    let enter (m : Byte) : List Byte := [m, 0, 0, 0, 0, 1, 0x7F, 0xFF, 0, 0, 0, 0]
    let exit : List Byte := [1, 0, 0, 0, 1, 0, 0, 0, 0, 0, 0, 0]
    [good off opMapSet doe0 (packet set), good off opSelfRefresh doe0 (packet (enter 3)), (chAt off 0).sr ≠ .on,
      good asleep opSelfRefresh doe0 (packet (enter 1)), good asleep opSelfRefresh doe0 (packet exit),
      good (setCh 0 { oneChan with sr := .entering } off) opSelfRefresh doe0 (packet exit)]) = true := by decide +kernel

/-! ## Regions and keys -/

def aKey : KeySlot := { st := .installed, owner := 0, gen := 15, ka := [1], kb := [2] }
def aRegion : Region := { Region.reset with st := .active, level := 1, keyId := 7, keyGen := 15, base := 0x200000, size := 0x200000 }
/-- Two keys and a region under the first. -/
def keyDev : Device := setRegion 12 aRegion (setKey 9 aKey (setKey 7 aKey memDev))
def initPayload : List Byte :=
  leBytes 2 13 ++ [2, 0, 7, 0, 0, 0] ++ leBytes 8 0x400000 ++ leBytes 8 0x200000 ++ leBytes 8 0x1000000 ++ leBytes 2 1 ++ leBytes 2 1 ++ leBytes 4 1000 ++ List.replicate 8 0

theorem wit_RegionCommands : met (
    let rotate : List Byte := leBytes 4 12 ++ [9, 0, 0, 0] ++ leBytes 4 1000
    [freeTiller keyDev = some 0, good keyDev opRegionInit doe0 (packet initPayload), good keyDev opKeyRotate doe0 (packet rotate),
      good keyDev opKeyRetire doe0 (packet [7, 0, 0, 0]), keyDev.cxl.filterW.isEmpty, keyDev.cxl.filterE.isEmpty, keyDev.mem.txns.isEmpty,
      keyDev.mem.regions.wf Region.reset, regionAt keyDev 1024 = Region.reset]) = true := by decide +kernel

def rotating (op : TillOp) (st : RegionSt) (page : Option Nat) : Device :=
  let r := { aRegion with st, level := 2, newKeyId := 9, newGen := 15, till := 3, metaBase := 0x800000, metaSize := metaSizeOf 0x200000 }
  setTiller 1 { op, region := 12, rate := 1000, pages := 9, page, last := some 0 } (setRegion 12 r keyDev)

/-- The renewal of page 3 by engine 1. -/
def aRenewal (got : List (Nat × List Byte)) (bad : List Nat) : Renewal :=
  { id := 0, region := 12, page := 3, tiller := some 1, keyId := 7, under := (9, 15), reads := { need := [], todo := [], got }, bad, carry := [], answer := none, tags := [] }
def renewing (op : TillOp) (r : Region) (got : List (Nat × List Byte)) : Device :=
  let s := setRegion 12 r (rotating op r.st (some 3))
  { s with mem := { s.mem with nextTxn := 1, renews := [aRenewal got []] } }

theorem wit_RegionProgress : met (
    let s := rotating .rotation .rotating (some 3)
    let fill := rotating .fill .initialising none
    let r := regionAt s 12
    let late := { rotating .rotation .rotating none with time := { awake.time with ticks := 4000 } }
    let calm (s : Device) (r : Region) : Bool := quietMgmt s && s.mem.tillers.length = 4 && s.policy.queue.isEmpty && s.trl.waiting.isEmpty
      && decide (regionAt s 1024 = Region.reset ∧ regionAt s 12 = r) && !s.alm.sealed && decide (s.alm.unacked < 131072 ∧ s.alm.next < 2 ^ 48 - 1)
      && s.mem.regions.wf Region.reset && s.mem.lines.wf .blank && s.mem.chans.wf .reset && s.mem.txns.isEmpty && !s.mem.rtReady
      && [0, 2, 3].all fun k => (tillerAt s k).op = .idle
    let r1 := { r with level := 1 }
    [calm s r, calm fill (regionAt fill 12), (tillerAt fill 1).op = .fill, 3 < (tillerAt fill 1).pages, (tillerAt s 1).page = some 3, 3 + 1 < 9,
      !pageLocked late (r.base + 3 * 4096), !decide (devNs late * 1000 < 0 * 1000 + 4096 * 1000), (recordedIn (r.base + 3 * 4096) 4096 late).isEmpty,
      !(recordedIn (r.base + 3 * 4096) 4096 { late with cxl := { late.cxl with filterW := [((r.base + 3 * 4096) / 64, 0)] } }).isEmpty,
      (tillerIssue 1 .read (pageParts r 3) late).isSome,
      calm (renewing .rotation r1 []) r1, renewalReady (renewing .rotation r1 []) (aRenewal [] []),
      renewalReady (renewing .fill { r with st := .initialising } []) (aRenewal [] []),
      (let place (a : Nat) : Option (Nat × Nat) := (memWindow s a).map fun w => ((w.map a).1, (w.map a).2 / 64)
       ((r.lines 3 ++ r.macLines 3).map place).Nodup && (r.lines 3 ++ r.macLines 3).all fun a => (place a).isSome)]) = true := by decide +kernel

/-- A P2 page whose lines are 0 and whose MACs are those of such lines, with its counter block in the cache. -/
def pageRegion : Region := { aRegion with st := .rotating, level := 2, keyGen := 0, newKeyId := 9, newGen := 15, till := 3, metaBase := 0x800000, metaSize := metaSizeOf 0x200000 }
def pageLine : CacheLine := { line := pageRegion.nodeAddr 0 3 / 64, slot := 0, dirty := false }
def pageSeal (a : Nat) : Seal := p2Seal keyDev pageRegion a 0
def pageMacs (j : Nat) : List Byte := (List.range 8).flatMap fun i => lineMac (pageSeal (pageRegion.base + 3 * 4096 + (8 * j + i) * 64)) zeroLine
def pageGot : List (Nat × List Byte) := (List.range 8).map fun j => (0x800000 / 64 + 3 * 8 + j, pageMacs j)
def pageDev : Device :=
  let s := renewing .rotation pageRegion pageGot
  { s with mem := { s.mem with cache := [pageLine] } }

theorem wit_RegionProgress_block : met (
    [cached pageDev (pageRegion.nodeAddr 0 3) = some pageLine, (cacheBytes pageDev pageLine).all fun b => b.cls = .clean,
      blkKgen (ofLe (dataOf (cacheBytes pageDev pageLine))) = (pageRegion.keyFor 3).2 % 16, blkMajor (ofLe (dataOf (cacheBytes pageDev pageLine))) = 0,
      (arrayAt pageDev 4 0).dec.isEmpty]) = true := by decide +kernel

theorem page_seal (a : Nat) : p2Seal pageDev pageRegion a 0 = pageSeal a := rfl

theorem page_macs (j : Nat) (hj : j < 8) : ((aRenewal pageGot []).reads.at (0x800000 + 3 * 512 + j * 64)) = some (pageMacs j) := by
  match j, hj with
  | 0, _ | 1, _ | 2, _ | 3, _ | 4, _ | 5, _ | 6, _ | 7, _ => rfl

/-- Every MAC of the page is right, and its counter block stands in the cache. -/
theorem wit_RegionProgress_macs (k : Nat) (hk : k < 64) :
    let a := pageRegion.base + 3 * 4096 + k * 64
    let raw (b : Nat) : List Byte := ((aRenewal pageGot []).reads.at b).getD zeroLine
    raw a = zeroLine ∧ lineMac (p2Seal pageDev pageRegion a 0) zeroLine = sliceBytes (raw (pageRegion.macAddr a)) (pageRegion.macSlot a) 8 := by
  have hr (b : Nat) (hb : b < 0x800000) : (aRenewal pageGot []).reads.at b = none := by
    have h : ∀ e ∈ pageGot, 0x800000 / 64 ≤ e.1 := by
      intro e he
      simp only [pageGot, List.mem_map] at he
      obtain ⟨j, -, rfl⟩ := he
      simp only
      omega
    simp only [aRenewal, Reads.at, Option.map_eq_none_iff, List.find?_eq_none, decide_eq_true_eq]
    intro e he
    have := h e he
    omega
  have hbase : pageRegion.base = 0x200000 := rfl
  have hm : pageRegion.macAddr (pageRegion.base + 3 * 4096 + k * 64) = 0x800000 + 3 * 512 + k / 8 * 64 := by
    simp only [Region.macAddr, hbase, show pageRegion.metaBase = 0x800000 from rfl]
    omega
  have hs : pageRegion.macSlot (pageRegion.base + 3 * 4096 + k * 64) = 8 * (k % 8) := by
    simp only [Region.macSlot, hbase]
    omega
  intro a raw
  refine ⟨by simp only [raw]; rw [hr _ (by simp only [a, hbase]; omega)]; rfl, ?_⟩
  simp only [raw, a, hm, hs]
  rw [page_macs _ (by omega), Option.getD_some, pageMacs, slice_block (fun i => lineMac (pageSeal (pageRegion.base + 3 * 4096 + (8 * (k / 8) + i) * 64)) zeroLine) (fun i => mac8_length _) _ (by omega), page_seal]
  congr 3
  omega

theorem wit_KeyRetireEnds : met (
    let p : Progress := { inst := doe0, opcode := 0x0308, pkt := packet [7, 0, 0, 0], holds := [.key 7], mute := false }
    let s0 := setKey 7 { aKey with st := .retiring } (setRegion 12 { aRegion with st := .retiring } memDev)
    let s := { s0 with mem := { s0.mem with retires := [{ keyId := 7, index := 0, reply := true }] }, mgmt := { s0.mgmt with progress := [p] } }
    let busy := { s with mem := { s.mem with txns := [{ lineTxn (some 12) 0 [] with keyId := 7 }] } }
    [s.mem.regions.wf Region.reset, s.mem.lines.wf .blank, s.mem.chans.wf .reset, s.rakes.isEmpty, s.mgmt.parked.isEmpty,
      s.cxl.filterW.isEmpty, s.cxl.filterE.isEmpty, regionAt s 1024 = Region.reset, s.mem.renews.isEmpty, !s.mem.rtReady,
      (s.mem.txns.filter fun t => t.keyId = 7).isEmpty, !(busy.mem.txns.filter fun t => t.keyId = 7).isEmpty, (7 : Byte) ≠ 0]) = true := by decide +kernel

/-! ## Links -/
def aLoad (stream : Nat) : Load := { stream, fab := false, bits := 77 }
def aStrand : Strand :=
  { Strand.reset with
    next := 7, expect := 7, unacked := 2, since := 100, todo := [aLoad 6, aLoad 6]
    buf := [{ seq := 5, load := aLoad 6, sent := 1000, replays := 0 }, { seq := 6, load := aLoad 6, sent := 1001, replays := 1 }] }
/-- Link 5 is up, its strand 6 toward the hub as given, and some time has passed. -/
def linkDev (t : Strand) : Device :=
  setLink 5 ({ Link.reset with mode := .up, fab1 := 8 }.setStrand 1 6 t) { ready with time := { ready.time with ticks := 1000 } }
/-- FRAME_RECEIVED in each of its cases, ACK, NAK, REPLAY_TIMEOUT and CAP: LinkFrames. -/
theorem wit_LinkFrames : met (
    let s := linkDev aStrand
    let free := { aStrand with todo := [] }
    let y (fab : Nat) : Link := { Link.reset with mode := .up, fab1 := fab }
    let full : Strand := { aStrand with buf := List.replicate 32 { seq := 5, load := aLoad 6, sent := 0, replays := 0 } }
    [wfStrand 5 6, s.d2d.links.wf Link.reset, (linkAt s 5).strands.wf Strand.reset, (linkAt s 5).mode = .up, aStrand.st = .working, aStrand.resend.isEmpty,
      ({ aStrand with resend := [5] }.buf.find? fun (g : Frame) => g.seq = 5).isSome, !s.d2d.cap.getLsbD 32, decide (32 ≤ full.buf.length),
      decide (aStrand.buf.length < 32), !aStrand.todo.isEmpty, !isFabStrand 5 (y 0) 1 6, isFabStrand 5 ((y 16).setStrand 1 6 free) 1 6, free.txq.isEmpty,
      (aStrand.owed 6).length = 4, (aStrand.owed 6).all fun p => !p.fab && p.stream = 6, decide (0 < aStrand.unacked),
      decide (aStrand.since + 32 ≤ devNs s), decide (devNs s < 1000 + 256), decide (500 + 256 ≤ devNs s), sbGood s 5 0 2 (sbMsg 2 6 6),
      sbGood s 5 0 1 (sbMsg 1 1 0x050000), aStrand.buf[1]?.map (·.seq) = some 6, aStrand.buf[0]?.map (·.seq) = some 5, decide (1000 + 256 ≠ devNs s),
      [4, 5, 7].all fun i => ((linkAt s 5).strand 1 i).buf.isEmpty, sbGood s 5 1 3 (sbMsg 3 7 0x160000), s.d2d.dieCap.length = 8]) = true := by decide +kernel

/-- Strand 7 takes over from strand 6, whatever becomes of it. -/
theorem wit_takesOver (st : StrandSt) (h : st = .testing ∨ st = .retired ∨ st = .grafting) : takesOver 5 (linkAt (linkDev aStrand) 5) 1 6 7 st := by
  rcases h with rfl | rfl | rfl <;>
  · refine ⟨by decide +kernel, .inl ⟨by decide, ?_⟩⟩
    rintro j ⟨-, -⟩ h
    omega

theorem wit_LinkStrands : met (
    let s := linkDev aStrand
    let idle := (List.range 16).all fun j => !((linkAt s 5).strand 1 j).testDue && ((linkAt s 5).strand 1 j).faults.isEmpty
    [idle, !s.alm.sealed, decide (s.alm.unacked < 131072), decide (s.alm.next < 2 ^ 48 - 1), sbGood s 5 1 4 (sbMsg 4 6 0x10000), sbGood s 5 1 4 (sbMsg 4 6 0),
      sbGood s 5 0 6 (sbMsg 6 6 2), sbGood s 5 0 5 (sbMsg 5 6 19), aStrand.wire0 = 63, aStrand.wire1 = 63, !aStrand.bad0, !aStrand.bad1,
      decide (500 + 256 ≤ devNs s)]) = true := by decide +kernel

theorem wit_CanSpare : CanSpare (linkDev aStrand) 5 1 6 := by
  constructor <;> decide +kernel

theorem wit_LinkReports : met (
    let s := linkDev aStrand
    let halted := { s with dbg := { s.dbg with mgmtCtl := 2 } }
    let x := linkAt s 5
    [!wardenRuns halted, linkSound 5 { x with sbLost := [1] },
      [0, 1].all fun dir => (List.range 16).all fun n => (x.strand dir n).st = .working && (x.strand dir n).suspect.isEmpty,
      good s opLinkStatus doe0 (packet [255, 0, 0, 0])]) = true := by decide +kernel

/-! ## Lanes and port engines -/

/-- A PORT_MAP entry of 128 bytes that maps a lane to subport `k`, alone. -/
def laneEntry (l k : Nat) : List Byte :=
  leBytes 2 l ++ [0, 1] ++ leBytes 4 5 ++ [1, 0, 0, 0] ++ leBytes 4 106250000 ++ [2, 0, BitVec.ofNat 8 k, 4, 0, 0, 0, 0] ++ List.replicate 104 0
def aSub : Subport := { Subport.reset with ctl := 0x05F00001, aligned := true }
def runningShell : Shell := { Shell.reset with st := .active, en := true }
/-- Lane 3 carries subport 3 of engine 0; lane 70 is active and unmapped, with the pattern checker on. -/
def portDev (p : Subport) : Device :=
  let lane : Lane := { Lane.reset with cdrLock := true, entry := List.replicate 17 0 ++ [0x80, 0, 0, 0, 0, 0x10] ++ List.replicate 105 0 }
  setSub 0 3 p (setShell (.pma 3) runningShell (setLane 3 { Lane.reset with entry := laneEntry 3 3 }
    (setShell (.pma 70) runningShell (setLane 70 lane ready))))

theorem wit_LaneEvents : met (
    let s := portDev aSub
    [(pmaShell s 70).st = .active, (laneAt s 70).cdrLock, !(laneAt s 70).retired, (pmaShell s 71).st = .idle,
      bitsAt (leAt (laneAt s 70).entry 22 1) 4 3 ≠ 0, subMapped s 0 3, subLanesUp s 0 3]) = true := by decide +kernel

theorem wit_LaneCommands : met (
    let s := portDev aSub
    let refresh := packet (leBytes 8 0x1000 ++ leBytes 2 70 ++ leBytes 2 2 ++ leBytes 4 0)
    let retired := setLane 70 { laneAt s 70 with retired := true } s
    [good s opLaneRefresh doe0 refresh, good s opLaneCalibrate doe0 (packet [70, 0, 3, 0]), good s opLaneRetire doe0 (packet [70, 0, 0, 0]),
      good retired opLaneRetire doe0 (packet [70, 0, 0, 0]), (laneAt s 70).next.isNone, s.ports.jobs.isEmpty, !enMapped (laneAt s 70).entry,
      (List.range 8).all fun k => !(subAt s 8 k).deferral]) = true := by decide +kernel

/-- The entries of a LANE_REFRESH are read: an error of the read, and an entry whose bytes pass every check but the MAC, which none of
these bytes decide. -/
theorem wit_laneEntries : met (
    let job : LaneJob := { inst := doe0, first := 70, count := 1, table := 0xF00005020000 - 128 * 70, applied := none }
    let p : Progress := { inst := doe0, opcode := 0x0501, pkt := packet [], holds := [.lane 70], mute := false }
    let s0 := portDev aSub
    let s := { s0 with ports := { s0.ports with jobs := [job], xref := tableOf 0 [(4, 1)] }, mgmt := { s0.mgmt with progress := [p] } }
    let e := laneEntry 70 6
    let t := (busRead 0x802 p.ctx.plot calmNet (job.table + 128 * job.first) 128 s).1
    let asleep := setCh 0 { oneChan with sr := .on } s
    [!t.trl.stuck, t.mgmt = s.mgmt, t.ports = s.ports, t.shells = s.shells, t.rakes.isEmpty, (laneAt t 70).next.isNone, !(pmaShell t 70).start,
      s.mgmt.parked.isEmpty, s.rakes.isEmpty,
      (busRead 0x802 p.ctx.plot calmNet 0 128 asleep).1.trl.stuck, (List.range 24).all fun ch => (chAt (busRead 0x802 p.ctx.plot calmNet 0 128 asleep).1 ch).sr ≠ .exiting,
      (busRead 0x802 p.ctx.plot { calmNet with fail := some rcTimeout } (job.table + 128 * job.first) 128 s).2.1 = rcTimeout,
      (busRead 0x802 p.ctx.plot { calmNet with fail := some rcDenied } (job.table + 128 * job.first) 128 s).2.1 = rcDenied,
      !laneMacOk (busRead 0x802 p.ctx.plot calmNet (job.table + 128 * job.first) 128 s).1 (busRead 0x802 p.ctx.plot calmNet (job.table + 128 * job.first) 128 s).2.2.1,
      entryOk 70 e, refOk s 70, groupOk s (laneEngine 70) (fun k => if k = 70 then e else comingEntry s k), leAt e 2 1 % 16 = laneOwner s 70,
      decide ((laneAt s 70).version < leAt e 4 4)]) = true := by decide +kernel

theorem wit_SubportRegisters : met (
    let s := portDev aSub
    let stopping := setShell (.pma 3) { runningShell with st := .stopping } (portDev { aSub with ctl := 0 })
    let w (s : Device) (o v : Nat) := acceptsReg s hubCore (.engine 0) (engineOff 0) (0x1300 + o) v
    [s.ports.subs.wf Subport.reset, w s 0 0xFFFFFFFF, !aSub.deferral, subEn aSub, w stopping 0 1, subStopping stopping 0 3, w s 0 0, ringsRun s 0 3,
      !ringsRun stopping 0 3, aSub.txr.waiting = 0, aSub.rxr.waiting = 0, w s 0x14 9, w s 0x2C 9]) = true := by decide +kernel

/-- Core 5 holds a descriptor of `n` bytes and the frame that it names. -/
def frameDev (n ctl : Nat) (p : Subport) : Device :=
  let desc : List Byte := leBytes 8 (coreAddr 5 250) ++ leBytes 2 n ++ [BitVec.ofNat 8 ctl, 0xEE] ++ List.replicate 20 0xCC
  setArray 2 5 ((Coded.filled.writeBytes 64 desc).writeBytes 250 ((List.range 70).map fun i => BitVec.ofNat 8 (i * 7 + 3))) (portDev p)
def aRing : Ring := { Ring.reset with base := coreAddr 5 0, size := 4, tail := 5, head := 2 }

theorem wit_PortFrames : met (
    let s := frameDev 70 0 { aSub with txr := aRing, rxr := aRing }
    let f := coreBytes s 5 250 70 ++ fcsOf (coreBytes s 5 250 70)
    let d := coreBytes s 5 64 32
    [quietMgmt s, netReady s (engineInit 0) 5, !aRing.empty, aRing.base + 32 * aRing.idx aRing.head = coreAddr 5 64, coreOwner s 5 = engineOwner s 0,
      (arrayAt s 2 5).dec.isEmpty, (List.range 32).all fun k => synClass ((arrayAt s 2 5).read (64 + k)).syn = .clean, ringsRun s 0 3, !aSub.ctl.getLsbD 2, linkUp s 0 3, leAt d 8 2 = 70, leAt d 0 8 % 2 ^ 48 = coreAddr 5 250, (max (aSub.ctl.extractLsb' 16 14).toNat 64) ≥ 74,
      (List.range 70).all fun k => synClass ((arrayAt s 2 5).read (250 + k)).syn = .clean, bitsAt (leAt d 10 1) 0 2 = 0,
      !linkUp (frameDev 70 0 { aSub with txr := aRing, aligned := false }) 0 3, leAt (coreBytes (frameDev 59 0 aSub) 5 64 32) 8 2 < 60,
      bitsAt (leAt (coreBytes (frameDev 70 9 aSub) 5 64 32) 10 1) 0 2 = 1, aSub.rxr.empty, f.drop (f.length - 4) = fcsOf (f.take (f.length - 4)),
      leAt (coreBytes (frameDev 80 0 aSub) 5 64 32) 8 2 ≥ f.length]) = true := by decide +kernel
/-! ## The CXL port -/

def aDecoder : Hdm := { base := 0x1000, size := 0x10000, dpa := 0x400, ways := 2, gran := 256 }
/-- The link is up; plots 0 and 1 exist and are bound, the second with a decoder into its region. -/
def cxlDev : Device :=
  setRegion 5 { Region.reset with st := .active, base := 0, size := 0x100000, owner := 1 } { memDev with
    cxl := { memDev.cxl with linkUp := true, speed := 4, width := 16, bound := 3, hdm := tableOf none [(1, some aDecoder), (5, some aDecoder)] }
    trust := { memDev.trust with plots := modAt (modAt memDev.trust.plots 0 fun x => { x with present := true }) 1 fun x => { x with present := true } } }

theorem wit_CxlRequests : met (
    let s := cxlDev
    let a := 0x400 + (0x1234 - 0x1000) / 512 * 256 + 0x34
    let c := chAt s (oneWindow.map (a / 64 * 64)).1
    let poisoned := setRegion 5 { regionAt s 5 with st := .poisoned } s
    let bare := { s with mem := { s.mem with regions := .empty }, trust := { s.trust with lifecycle := .provisioned } }
    let ask (s : Device) (read : Bool) := verdict s 0x811 1 read (a / 64 * 64)
    let retiring := setRegion 5 { regionAt s 5 with st := .retiring } s
    let two := setRegion 5 { regionAt s 5 with level := 2, metaBase := 0x800000, metaSize := metaSizeOf 0x100000 } s
    let ls := metaLines two (areaAt two 5) (a / 64 * 64) [a / 64] ++ [a / 64]
    let asked := { s with cxl := { s.cxl with hostReqs := [sentPkt s .read .xload (atCore 8 [] 0) 0] } }
    [quietMgmt s, plotExists s 1, s.cxl.bound.getLsbD 1, !memDev.cxl.linkUp, !plotExists s 9, memWindow s (a / 64 * 64) = some oneWindow,
      decide (a / 64 * 64 < capacity s), s.mem.trained, !s.mem.rtReady, c.retrain.isNone, c.held.isEmpty,
      !(ideAt s 5).insecure, (ideAt { s with cxl := { s.cxl with ide := tableOf Ide.reset [(5, { Ide.reset with insecure := true })] } } 5).insecure,
      decide ((areaAt s 5).level ≠ 2), decide (ask two true = .go 5), decide (1 < ls.length), ls.all fun l => !onFailed two l,
      ls.all fun l => (memWindow two (l * 64)).all fun v => (chAt two (v.map (l * 64)).1).sr = .off,
      decide ((regionOf retiring (a / 64 * 64)).map (·.2.st) = some .retiring)]
    ++ [decide (lowestFree (win s 0x811) 1024 = some 0), !(win s 0x811).stalled, !pageLocked s (a / 64 * 64), !c.failed, c.sr = .off, c.rd.isEmpty, c.wr.isEmpty,
      s.mem.txns.isEmpty, s.cxl.filterW.isEmpty, s.cxl.filterE.isEmpty, ask s true = .go 5, verdict bare 0x810 0 false (a / 64 * 64) = .plain, ask poisoned true = .poisoned,
      s.trl.waiting.isEmpty, (asked.cxl.hostReqs.map (·.opc)) = [.read], a < 2 ^ 48]) = true := by decide +kernel

theorem wit_CxlResets : met (
    let s := cxlDev
    let down := { s with cxl := { s.cxl with linkUp := false }, start := { s.start with trained := true } }
    let secured := setIde 3 { Ide.reset with running := true, key := [1], next := some [2] } { s with dbg := { s.dbg with mgmtCtl := 2 } }
    [s.msix.entries.wf MsixEntry.reset, s.cxl.hdm.wf none, s.mgmt.sessions.length = 32, (entries s).isEmpty, s.cxl.hostReqs.isEmpty, !s.alm.sealed,
      Device.reset.mgmt.sessions.all (·.isNone), down.flt.fsafe ≠ .c4, !s.start.trained, (ideAt secured 3).running, !wardenRuns secured,
      s.mgmt.sessions[0]? = some (some aSession), !aSession.opening, aSession.inst = .doe 0, (ideAt secured 3).key ≠ [], 
      (ideAt secured 3).next = some [2], (ideAt s 3).next.isNone, (sentPkt s .read .xload (atCore 8 [] 0) 0).opc ≠ .pwrite, s.cxl.width = 16,
      !s.cxl.bound.getLsbD 3]) = true := by decide +kernel

theorem wit_CxlMailbox : met (
    let s := { cxlDev with mgmt := { cxlDev.mgmt with sessions := modAt cxlDev.mgmt.sessions 1 fun _ => some { aSession with id := 9, inst := .mailbox 1 } } }
    let staging := { s with cfg := { s.cfg with ses := s.cfg.ses.set 2 (some
      { st := .receiving, plot := 1, path := 0, inst := .mailbox 1, base := 0, units := 1, reserve := 100000, bytes := [], status := 0, start := 0
        touched := 0, beds := [], cores := [] }) } }
    [quietMgmt s, s.cxl.linkUp, !(ideAt s 0).insecure, (ideAt (setIde 0 { Ide.reset with insecure := true } s) 0).insecure, findSession s 9 = some (1, { aSession with id := 9, inst := .mailbox 1 }), s.mgmt.up,
      acceptsReg s 0x811 .cxl 0x500000 0x1004 3, s.msix.entries.wf MsixEntry.reset, (entries s).isEmpty,
      (entries staging).map (fun x => (x.1, x.2.path, x.2.inst)) = [(2, 0, .mailbox 1)]]) = true := by decide +kernel

/-! ## Loading the fabric -/

def aSes : CfgSes :=
  { st := .receiving, plot := 0, path := 1, inst := doe0, base := 0, units := 1, reserve := 100000, bytes := [], status := 0, start := 0, touched := 0
    beds := [], cores := [] }
/-- A staging region is there, and plot 0. -/
def loadDev : Device :=
  { ready with
    trust := { ready.trust with plots := modAt ready.trust.plots 0 fun x => { x with present := true } }
    mem := { ready.mem with regions := tableOf Region.reset [(1016, { Region.reset with st := .active })] } }
def withLoad (k : Nat) (x : CfgSes) : Device := { loadDev with cfg := { loadDev.cfg with ses := loadDev.cfg.ses.set k (some x) } }
def imageHead (total : Nat) : List Byte := List.replicate 48 0 ++ leBytes 8 total ++ List.replicate 244 0

theorem wit_ConfigSessions : met (
    let part (n total : Nat) := good (withLoad 2 { aSes with bytes := imageHead total }) opCfgData doe0 (packet (leBytes 4 2 ++ List.replicate n 7))
    let fallows := modBed 9 (fun b => { b with st := .committed }) (withLoad 2 { aSes with st := .waitingStart, beds := [9] })
    let armed := { loadDev with time := { loadDev.time with startAt := some { tb := 0, target := 2 ^ 90, fired := false } } }
    let late := { withLoad 2 { aSes with st := .verified } with time := { loadDev.time with ticks := 2 ^ 36 } }
    [loadDev.cfg.ses.length = 4, loadDev.cfg.gens.length = 4, good (withLoad 0 { aSes with path := 2 }) opCfgBegin doe0 (packet (leBytes 4 1 ++ leBytes 4 3000000)),
      part 10 6000, part 8 308, part 10 308, decide (300 ≤ (imageHead 308).length), decide (0 + 10 * 1000000000 ≤ devNs late),
      (max 1 (late.cfg.ctl.extractLsb' 16 16).toNat) ≤ 10, good (withLoad 2 { aSes with st := .verifying }) opCfgAbort doe0 (packet (leBytes 4 2)),
      good fallows opCfgAbort doe0 (packet (leBytes 4 2)), (bedAt fallows 9).st = .committed, good loadDev opCfgAbort doe0 (packet (leBytes 4 0xFFFF)),
      good armed opCfgAbort doe0 (packet (leBytes 4 0xFFFF)), loadDev.time.startAt.isNone]) = true := by decide +kernel

/-- An image of one section. -/
def image (type target flags : Nat) (body : List Byte) : List Byte :=
  [0x4B, 0x56, 0x49, 0x4D, 1, 0, BitVec.ofNat 8 (if type = 0 then 0 else 1), 0] ++ List.replicate 40 0 ++ leBytes 8 (320 + body.length + 4736) ++ leBytes 2 1 ++ leBytes 2 0
    ++ List.replicate 196 0 ++ [BitVec.ofNat 8 type, BitVec.ofNat 8 flags] ++ leBytes 2 target ++ leBytes 4 0 ++ leBytes 8 320 ++ leBytes 8 body.length
    ++ leBytes 8 0 ++ List.replicate 32 0 ++ body ++ List.replicate 4736 0
/-- A bed's BED_CTL frame. -/
def bedImage : List Byte := image 1 5 0 ([1, 0, 0, 0, 64, 0, 0, 0] ++ leBytes 4 1 ++ leBytes 4 100000 ++ List.replicate 56 3)
def coreImage : List Byte :=
  image 2 3 2 (leBytes 4 0x12340010 ++ [3] ++ List.replicate 11 0 ++ (List.replicate 16 0 ++ List.replicate (196608 - 16) 0))

theorem wit_ConfigCommits : met (
    let at' (st : SesState) := withLoad 1 { aSes with st, status := 0x203, bytes := bedImage }
    let asks (s : Device) (start : Byte) := good s opCfgCommit doe0 (packet [1, 0, start, 0])
    let s := modBed 5 (fun b => { b with st := .fallow }) (at' .verified)
    let t := bedTargets s bedImage
    let done := { loadDev with mgmt := { loadDev.mgmt with dev := .ready }, cfg := { loadDev.cfg with since := some 0, doneHeld := false },
                               time := { loadDev.time with ticks := 2 ^ 36 } }
    [asks (at' .verified) 1, asks (at' .receiving) 0, asks (at' .rejected) 0, asks (at' .applying) 0, asks (at' .verifying) 0, asks s 0,
      imgKind bedImage = 1, t.map (fun x => (x.bed, x.merge, x.frames.length)) = [(5, false, 1)], (coreTargets s bedImage).isEmpty, s.mgmt.held.isEmpty,
      bedOwner s 5 = imgPlot bedImage, borderCheck (asCommitted [(5, newFrames s 5 false (t.flatMap (·.frames)))] s) [5] = none,
      (imgBodies s bedImage).all fun x => x.1.type = 1, quietMgmt s, !s.cfg.loadDue, s.trust.plots.length = 16,
      (List.range 48).all fun i => (arrayAt s 0 (240 + i)).dec.isEmpty, done.mgmt.dev = .ready, decide (0 + 1000 ≤ devNs done)]) = true := by decide +kernel

theorem wit_ConfigCommits_core : met (
    [(coreTargets loadDev coreImage).map (fun x => (x.1, x.2.1)) = [(3, true)], (bedTargets loadDev coreImage).isEmpty,
      (imgBodies loadDev coreImage).all fun x => x.1.type = 2]) = true := by decide +kernel

/-- READY since long ago, with a session open. -/
def goldenDev : Device :=
  let base := { withLoad 2 aSes with mgmt := { loadDev.mgmt with dev := .ready }, time := { loadDev.time with ticks := 2 ^ 36 } }
  { base with cfg := { base.cfg with ready := some 5 } }
/-- A full image whose device mask is zero. -/
def goldenHead : List Byte := [0x4B, 0x56, 0x49, 0x4D, 1, 0, 0, 0] ++ List.replicate 40 0 ++ leBytes 8 5120 ++ leBytes 2 1 ++ leBytes 2 0 ++ List.replicate 5060 0

theorem wit_GoldenImage : met (
    let due := goldenDev
    let bare := { due with mem := { due.mem with regions := .empty } }
    [due.cfg.mode.toNat ≤ 2, !due.cfg.initDone, due.cfg.load.isNone, (due.cfg.ctl.extractLsb' 0 16).toNat ≠ 0,
      decide (5 + (due.cfg.ctl.extractLsb' 0 16).toNat * 1000000000 ≤ devNs due), (regionAt due 1016).st = .active, (regionAt bare 1016).st ≠ .active,
      loadDev.mgmt.dev ≠ .ready, good due opGoldenLoad doe0 (packet [2, 0, 0, 0]),
      headRest (goldenHead.take 256) = none, imgKind goldenHead = 0, goldenHead.length = imgTotal goldenHead, zeroAt (List.replicate 64 0) 24 40]) = true := by decide +kernel

/-- That image passes on every device. -/
theorem wit_GoldenImage_head : headCheck goldenDev 0 369098752 goldenHead = none := by
  have h : leAt goldenHead 24 16 = 0 := by decide +kernel
  unfold headCheck
  rw [h, Nat.and_zero]
  decide +kernel

theorem wit_BedCommands : met (
    let one := packet (leBytes 2 5 ++ leBytes 2 1)
    let bed (st : BedState) (sh : Shell) := setShell (genId 5) sh (modBed 5 (fun b => { b with st }) loadDev)
    let stopped := bed .stopped Shell.reset
    let kept := modBed 5 (fun b => { b with st := .fallow, kept := true }) loadDev
    [good loadDev opBedFallow doe0 (packet (leBytes 2 5 ++ leBytes 2 3)), (bedAt loadDev 6).st = .unconfigured,
      good (bed .cut { Shell.reset with st := .fault, en := true }) opBedFallow doe0 one, good (bed .running runningShell) opBedFallow doe0 one,
      (genShell kept 5).st = .idle, (List.range 48).all fun i => (arrayAt kept 0 (240 + i)).dec.isEmpty,
      busOpen loadDev loaderInit, (bedAt stopped 5).st = .stopped, !(bedAt stopped 5).cutFlag, !bedFrozen stopped 5, isErr rcTimeout, isErr rcDecode]) = true := by decide +kernel

/-! ## Management commands -/

/-- Plot 3 exists beside plot 0. -/
def plotDev : Device :=
  { loadDev with trust := { loadDev.trust with plots := modAt (modAt loadDev.trust.plots 0 fun x => { x with ownerKey := some [1, 2, 3] }) 3 fun x => { x with present := true } } }

theorem wit_DeviceCommands : met (
    let active := setCore 3 { coreAt plotDev 3 with st := .active, en := true } plotDev
    [good plotDev opIdentify doe0 { packet [] with session := 0 }, !badHeader opIdentify { packet [] with session := 0 }, good plotDev opGetStatus doe0 (packet []),
      good plotDev opPlotReset doe0 (packet [3, 0, 0, 0]), good active opPlotReset doe0 (packet [0, 0, 0, 0]), coreOwner active 3 = 0,
      good plotDev opShutdown doe0 (packet [0, 0, 0, 0]), (List.range 384).all fun n => outOfService plotDev n, plotDev.bist.run.isNone, plotDev.rakes.isEmpty,
      (List.range 512).all fun l => (pmaShell plotDev l).st = .idle]) = true := by decide +kernel

theorem wit_SessionCommands : met (
    let tells (code : Byte) := { packet [1, code, 0, 0, 7, 0] with session := 0 }
    let opening := { aSession with opening := true, id := 9 }
    let s := { plotDev with mgmt := { plotDev.mgmt with sessions := plotDev.mgmt.sessions.set 4 (some opening) } }
    [plotDev.mgmt.sessions.length = 32, good plotDev opSessionOpen doe0 (tells 0x10), good plotDev opSessionOpen doe0 (tells 0xE4), plotDev.mgmt.sessions.getD 1 none = none,
      plotDev.mgmt.sessions.getD 0 none ≠ none, arrives s opSessionOpen doe0 (tells 0xE5), (List.range 4).all fun j => (s.mgmt.sessions.getD j none).all fun z => !z.opening,
      good plotDev opSessionClose doe0 (packet [0, 0, 0, 0]), findSession plotDev 5 = some (0, aSession)]) = true := by decide +kernel

/-- The responder's answer to an exchange accepts it or does not: one of the two clauses applies. -/
theorem wit_SessionCommands_answers (pl : List Byte) (k : Nat) :
    ∃ resp, Config.spdmExchange pl k = (resp, true) ∨ Config.spdmExchange pl k = (resp, false) := by
  rcases h : Config.spdmExchange pl k with ⟨resp, b⟩
  cases b <;> exact ⟨resp, by simp⟩

theorem wit_CommandTransports : met (
    let s := { plotDev with cfg := { plotDev.cfg with mode := 1 } }
    let words (op : Word32) : List Word32 := [op, 1, 0, 0, 0, 0, 0, 0]
    let bytes (op : Word32) : List Byte := (words op).flatMap fun (w : Word32) => leBytes 4 w.toNat
    let held := { s with mgmt := { s.mgmt with replies := [(.serial, { seq := 1, opcode := 2, status := 0, plot := 0, rflags := 0, session := 0, payload := [], mac := [] })] } }
    let part := { s with mgmt := { s.mgmt with partials := [{ inst := .serial, bytes := bytes 0x102, start := 0 }] } }
    let X := 0xF00000000000 + 5 * 2 ^ 24 + 0x20000
    let fp (post : Nat) := setArray 2 5 ((arrayAt s 2 5).writeBytes 0 (leBytes 4 post ++ leBytes 4 1)) (setPlot 3 (fun x => { x with portAddr := X })
      { s with own := { s.own with cores := s.own.cores.set 0 5 3 } })
    let head (s : Device) := (busRead 0x802 3 calmNet X 64 s).2.2.1
    let asleep := setCh 0 { oneChan with sr := .on } (setPlot 0 (fun x => { x with portAddr := 0x1000 }) { s with mem := memDev.mem })
    let stuckRead := (busRead 0x802 0 calmNet 0x1000 64 asleep).1
    [!s.trl.stuck, busOpen s loaderInit, (busRead 0x802 3 { calmNet with fail := some rcDenied } X 64 s).2.2.1 = [], stuckRead.trl.stuck, quietMgmt stuckRead,
      (List.range 24).all fun ch => (chAt stuckRead ch).sr ≠ .exiting, !(busRead 0x802 3 calmNet X 64 (fp 1)).1.trl.stuck, quietMgmt s, portEnabled s .serial, s.mgmt.up, !cmdHalted s, specOf calmNet 0x9999 |>.isNone, leAt (bytes 0x101) 0 2 = 0x101, !badHeader opIdentify (packetOf (bytes 0x101)),
      held.mgmt.replies.any fun x => x.1 = .serial, s.mgmt.partials.isEmpty, (part.mgmt.partials.find? (·.inst = .serial)).isSome,
      decide (devNs part < 0 + max 1 s.mgmt.tmo.toNat * 1000000), (busRead 0x802 3 calmNet X 64 (fp 1)).2.1 = rcOkay, leAt (head (fp 1)) 0 4 = leAt (head (fp 1)) 4 4,
      leAt (head (fp 2)) 0 4 ≠ leAt (head (fp 2)) 4 4, quietMgmt (fp 2)]) = true := by decide +kernel

theorem wit_TimeCommands : met (
    let moment : List Byte := leBytes 4 2 ++ leBytes 2 0x1234 ++ leBytes 4 500 ++ leBytes 6 77
    let adjust (f : Byte) (fadj off : Nat) := good plotDev opTbAdjust doe0 (packet ([2, f, 0, 0] ++ leBytes 4 fadj ++ leBytes 8 off))
    let route (n k i : Nat) := good plotDev opTbRoute doe0 (packet (leBytes 1 n ++ leBytes 1 k ++ leBytes 2 i))
    [good plotDev opTbSet doe0 (packet moment), adjust 0 0 0, adjust 2 0xFFFFFFF0 0, adjust 5 0 (2 ^ 64 - 3), adjust 1 0 100000, (tb plotDev 2).slew = 0,
      (tb plotDev 2).pend.isEmpty, route 0 3 300, route 1 3 0x0A01, route 2 3 0x0502, good plotDev opStartAt doe0 (packet moment)]) = true := by decide +kernel

theorem wit_FaultCommands : met (
    let read (w : Nat) := good plotDev opFaultRead doe0 (packet (leBytes 2 w ++ leBytes 2 1 ++ leBytes 4 3))
    [read 0, read 1, read 2, plotDev.flt.first.length = 5, good plotDev opFaultClear doe0 (packet [6, 2, 0, 0]), good plotDev opErrpinRelease doe0 (packet []),
      good { plotDev with flt := { plotDev.flt with pulse := some 5 } } opErrpinRelease doe0 (packet []), plotDev.flt.pulse.isNone,
      good plotDev opHistoryMode doe0 (packet [1, 5, 3, 0, 9, 0, 0, 0])]) = true := by decide +kernel

theorem wit_TestCommands : met (
    let s := { plotDev with bist := { plotDev.bist with condOk := true }, mem := { plotDev.mem with regions := tableOf Region.reset [(1017, { Region.reset with st := .active })] } }
    let soft := addSoft (mkRepair 7 0 5 1) s
    let keptBed := modBed 6 (fun b => { b with kept := true, st := .fallow }) s
    let bm (check : Bool) := modBed 5 (fun b => { b with kept := true, st := .running, cfg := { b.cfg with bms := tableOf BmCfg.reset [(0, { BmCfg.reset with used := true, check })] } }) s
    let rakeBm (check : Bool) (m : Byte) := good (bm check) opRake doe0 (packet ([0, m, 0, 0] ++ leBytes 4 240 ++ leBytes 4 64 ++ leBytes 4 128))
    let rake (m : Byte) := good plotDev opRake doe0 (packet ([2, m, 0, 0] ++ leBytes 4 9 ++ leBytes 4 64 ++ leBytes 4 128))
    [good s opBistRun doe0 (packet (leBytes 2 5 ++ leBytes 2 3 ++ [1, 0, 0, 0])), good plotDev opBistResult doe0 (packet [0, 0, 0, 0]), (toBurn s).isEmpty,
      good s (opRepairCommit []) doe0 (packet [0, 0, 0, 0]), toBurn soft = [mkRepair 7 0 5 1], good soft (opRepairCommit []) doe0 (packet [0, 0, 0, 0]),
      good soft (opRepairCommit [true]) doe0 (packet [0, 0, 0, 0]), soft.bist.fuses.length ≤ 62, rake 0, rake 1, rakeBm false 0, rakeBm false 1, noCheck (bm false) 0 240, !noCheck (bm true) 0 240, !noCheck plotDev 2 9,
      (bedAt keptBed 6).kept, good keptBed opBistRun doe0 (packet (leBytes 2 5 ++ leBytes 2 3 ++ [1, 0, 0, 0]))]) = true := by decide +kernel

/-- Three closed records. -/
def almDev : Device :=
  let r (q pr : Nat) : AlmRec := { mkRec plotDev { origin := 1, principal := pr, objClass := 1, objId := 2, action := 3, status := 4, before := 5, after := 6 } none false with
    seq := q, chain := q + 1000 }
  { plotDev with alm := { plotDev.alm with recs := [r 0 0, r 1 3, r 2 0], next := 3, exported := some 0 } }

theorem wit_AlmanacCommands : met (
    let exporting (n : Nat) := packet (leBytes 8 (0xF00000000000 + 5 * 2 ^ 24 + 0x20000) ++ leBytes 4 n ++ leBytes 8 0 ++ leBytes 4 0)
    [busOpen almDev loaderInit, arrayAt almDev 5 0 = Coded.filled, almDev.alm.recs.all fun r => (almDev.alm.recs.find? fun x => x.seq % 131072 = r.seq % 131072) = some r,
      good almDev opAlmRead doe0 (packet (leBytes 8 1 ++ leBytes 8 5)), good almDev opAlmSeal doe0 (packet [7, 0, 0, 0]),
      good almDev (opAlmExport none) doe0 (exporting 0), good almDev (opAlmExport (some rcTimeout)) doe0 (exporting 9), good almDev (opAlmExport none) doe0 (exporting 9),
      almDev.alm.recs.any fun r => r.seq = 1]) = true := by decide +kernel

/-- Tables of no rules, whole and short, and a read of one that must wait; the signatures of a witness no proof can compute. -/
def tableBytes (magic : Byte) : List Byte :=
  [magic, 0x56, 0x50, 0x54, 1, 0, 0, 0] ++ leBytes 4 3 ++ List.replicate 36 0 ++ [2, 2, 3, 4, 2] ++ List.replicate 4747 0
def tableAddr : Nat := 0xF00000000000 + 5 * 2 ^ 24 + 0x20000
def askTable (a : Nat) : Packet := packet (leBytes 8 a ++ leBytes 4 4800 ++ [0, 0, 0, 0])
theorem wit_TrustCommands_table : tblOk (tableBytes 0x4B) = true ∧ tblOk (tableBytes 0x4C) = false := by decide +kernel
theorem wit_TrustCommands_policy : met (
    let o := opPolicyLoad calmNet
    let asleep := setCh 0 { oneChan with sr := .on } { plotDev with mem := memDev.mem }
    let stuckRead := (busRead loaderInit 0 calmNet 0 4800 (taken o doe0 (askTable 0) asleep)).1
    [tblPayloadOk (ctxOf o doe0 (askTable tableAddr)), arrives plotDev o doe0 (askTable tableAddr), o.accepts plotDev.mgmt.dev, good asleep o doe0 (askTable 0),
      stuckRead.trl.stuck, (List.range 24).all fun ch => (chAt stuckRead ch).sr ≠ .exiting]) = true := by decide +kernel
theorem wit_TrustCommands_read :
    (let r := busRead loaderInit 0 calmNet tableAddr 4800 (taken (opPolicyLoad calmNet) doe0 (askTable tableAddr) plotDev)
     r.2.1 = rcOkay ∧ r.1.trl.stuck = false) := by decide +kernel

theorem wit_TrustCommands : met (
    let ask (n : Byte) := { packet (List.replicate 32 5 ++ [0, n, 0, 0]) with session := 0 }
    let reported := { plotDev with trust := { plotDev.trust with reports := [(doe0, [1, 2])] } }
    let create : List Byte := [5, 1, 7, 0, 0x22] ++ List.replicate 47 0 ++ [4] ++ List.replicate 15 0 ++ [8] ++ List.replicate 63 0 ++ [1] ++ List.replicate 11 0
      ++ List.replicate 48 9 ++ List.replicate 97 8 ++ List.replicate 2592 7
    let at' (l : Lifecycle) := { plotDev with trust := { plotDev.trust with lifecycle := l } }
    let bare := { at' .provisioned with trust := { (at' .provisioned).trust with plots := modAt plotDev.trust.plots 3 fun _ => PlotSt.none }
                                        mem := { plotDev.mem with regions := .empty } }
    [plotDev.trust.plots.length = 16, good plotDev opAttestGet doe0 (ask 0), good reported opAttestGet doe0 (ask 1), good reported opAttestGet doe0 (ask 2),
      plotDev.cfg.ses = [none, none, none, none], good plotDev opPlotCreate doe0 (packet create), good plotDev opPlotDestroy doe0 (packet [3, 0, 0, 0]),
      (plotKeys plotDev 3).isEmpty, (validRegions plotDev).all fun e => e.2.owner ≠ 3, !ldOwes plotDev 3, !retiring plotDev 3, plotDev.dbg.session.isNone,
      (List.range 16).all fun q => !(plotSt plotDev q).dying, plotDev.mem.regions.wf Region.reset,
      (sessionFor (ctxOf opKeyInstall doe0 (packet ([7, 0, 3, 0] ++ List.replicate 72 1))) plotDev).isSome, plotDev.mem.keys.wf KeySlot.reset,
      (plotKeys bare 0).isEmpty, (validRegions bare).isEmpty, (List.range 15).all fun p => !plotExists bare (p + 1)]) = true := by decide +kernel

/-! ## Power, start-up and debug -/

def chain (fsafe : SafeLevel) (ticks : Nat) : Device :=
  { awake with
    dbg := { awake.dbg with vccaux := true }, time := { awake.time with ticks }
    flt := { awake.flt with fatalAt := some 0, fsafe, autoReset := 1, dieSafe := List.replicate 8 .c3 }
    mgmt := { awake.mgmt with dev := .fatal, sessions := List.replicate 32 none } }

theorem wit_PowerAndResets : met (
    let complete (x : Device) := (x.flt.dieSafe.all fun l => decide (levelNo x.flt.fsafe ≤ levelNo l))
      && ((List.range 384).all fun n => (bedAt x n).st = .fallow || (bedAt x n).st = .unconfigured)
      && (List.range 128).all fun c => (coreAt x c).st = .idle || (coreAt x c).st = .fault
    let x := chain .c3 (10 ^ 9)
    let slow := { x with flt := { x.flt with dieSafe := List.replicate 8 .none } }
    [x.dbg.session.isNone, x.flt.fsafe = .c3, (chain .c4 0).flt.fsafe = .c4, complete x, !complete slow, x.shells.wf Shell.reset, x.cores.wf Core.reset,
      x.mgmt.sessions.all (·.isNone), x.alm.opened.isNone, (arrayAt x 6 0).dec.isEmpty, (List.range 64).all fun k => synClass ((arrayAt x 6 0).read k).syn = .clean,
      decide (0 + 1 * 10 ^ 9 ≤ devNs x), (chain .none 0).flt.fsafe = .none, decide (devNs (chain .c3 0) < 0 + 1 * 10 ^ 9)]) = true := by decide +kernel

/-- Power is there and start-up has begun. -/
def startDev (acks : Byte) (filled up : Bool) : Device :=
  { Device.reset with
    dbg := { Device.reset.dbg with vccaux := true }, mgmt := { Device.reset.mgmt with up }
    start := { Device.reset.start with checker := filled, fill := filled, links := up, acks } }

theorem wit_StartUp : met (
    let runs (x : Device) := x.dbg.vccaux && !x.start.sysLow && !x.start.stopped
    let x := startDev 0 false false
    let ready' := { startDev 0 false false with start := { (startDev 0 false false).start with checker := true } }
    let later := { startDev 0xFF true true with time := { awake.time with ticks := 10 ^ 8 } }
    [(List.range 5).all fun c => (List.range 8).all fun i => (arrayAt ready' c i).dec.isEmpty, ready'.arrays = .empty, ready'.trl.waiting.isEmpty, runs x, !runs { x with dbg := { x.dbg with vccaux := false } }, !x.start.checker, !x.mgmt.up, !x.start.fill, wfChecker ⟨3, 0⟩, runs ready', (arrayAt ready' 6 0).dec.isEmpty,
      (List.range 64).all fun k => ((arrayAt ready' 6 0).read k).data = 0 && synClass ((arrayAt ready' 6 0).read k).syn = .clean, (fusesOn ready').isEmpty,
      ready'.start.found.isNone, !ready'.start.links, ready'.start.por, ready'.alm = .reset, runs (startDev 0xF7 true false), !(startDev 0xF7 true false).start.puf,
      (startDev 0xF7 true false).flt.fsafe ≠ .c4, !(startDev 0xF7 true false).mem.trained, (startDev 0xF7 true false).start.acks ||| 8 = 0xFF,
      (startDev 0xF7 true false).start.rails.length = 8, (startDev 0xF7 true false).start.moved.length = 8, later.mgmt.up, later.bist.run.isNone,
      decide (later.start.moved.getD 3 0 + 10000000 ≤ devNs later), later.cfg.mode ≠ 4, wfLinkTrains (List.replicate 14 emptyTrain)]) = true := by decide +kernel

/-- A debug session of plot `p` with rights `r`; core 4 and bed 9 belong to plot 3. -/
def debugDev (r : BitVec 5) (p : Fin 16) (k : Core) : Device :=
  setCore 4 k { ready with
    own := { ready.own with cores := ready.own.cores.set 0 4 3, beds := ready.own.beds.set 0 9 3 }
    dbg := { ready.dbg with vccaux := true, session := some { plot := p, rights := r } } }

theorem wit_DebugPort : met (
    let open' := { ready with dbg := { ready.dbg with vccaux := true } }
    let staged (g : AuthStage) (n : Nat) := { open' with dbg := { open'.dbg with stage := g, words := List.replicate n 0, ir := 0x20 } }
    let io (g : IoStage) := { open' with dbg := { open'.dbg with ir := 0x10, ioStage := g } }
    let cert : List Byte := [0x4B, 0x56, 0x44, 0x43, 1, 0, 0, 31] ++ List.replicate 7576 0
    [!open'.trl.stuck, quietMgmt open', open'.dbg.vccaux, !{ open' with dbg := { open'.dbg with vccaux := false } }.dbg.vccaux, open'.mgmt.up, (io (.skip 3)).dbg.ioStage = .skip 3,
      (io (.command 9)).dbg.ioStage = .command 9, !cmdHalted open', (staged .certificate 1895).dbg.words.length = 1895, (staged .response 1919).dbg.offers.isEmpty,
      open'.dbg.lockout.isNone, open'.trust.lifecycle ≠ .decommissioned, cert.take 4 = [0x4B, 0x56, 0x44, 0x43], leAt cert 4 2 = 1, zeroAt cert 2834 14,
      plotExists open' (leAt cert 6 1), !plotExists open' 9, (arrayAt open' 6 0).dec.isEmpty,
      (debugDev 8 0 Core.reset).dbg.session.any fun e => e.rights.getLsbD 3, (debugDev 8 0 Core.reset).cores.wf Core.reset,
      !open'.alm.sealed, open'.alm.unacked < 131072]) = true := by decide +kernel

theorem wit_DebugControls : met (
    let k : Core := { Core.reset with st := .active, pc := 0x40 }
    let halted := { k with dbg := { k.dbg with halted := true, haltReq := true } }
    let asked := debugDev 1 3 { k with dbg := { k.dbg with haltReq := true } }
    let locked := { k with inLock := true, lock := 7, dbg := { k.dbg with waited := some 1030 } }
    let a := coreAddr 4 64
    let s := debugDev 1 3 k
    [quietMgmt s, s.dbg.vccaux, (List.range 384).all fun n => !(bedAt s n).clock.pauseDue && !bedFrozen s n, coreOwner s 4 = 3, (coreAt (debugDev 3 3 halted) 4).dbg.halted,
      haltDue asked 4, (coreAt asked 4).flights.isEmpty, !haltDue s 4, (coreAt (debugDev 1 3 locked) 4).inLock, s.dbg.request.isNone, s.flt.fsafe = .none,
      !(win s islandInit).stalled, lowestFree (win s islandInit) (initOutst islandInit) = some 0, (route s (initSite islandInit) (targetSite a)).isSome,
      (arrayAt s 2 4).dec.isEmpty, (List.range 8).all fun j => synClass ((arrayAt s 2 4).read (64 + j)).syn = .clean]) = true := by decide +kernel

/-! ## The whole block -/

theorem wit_IdleStep : met (
    let s := { Device.reset with dbg := { Device.reset.dbg with vccaux := true } }
    [s.cores = .empty, s.beds = .empty, s.mem.chans = .empty, s.time.replicas = .empty, s.policy.queue.isEmpty, quietMgmt s, !s.start.due, s.trl.waiting.isEmpty, s.mem.due.isEmpty, s.mem.renews.isEmpty,
      s.time.bases.length = 8, s.trl.net.isEmpty, s.trl.rsps.isEmpty, s.trl.legs.isEmpty, s.trl.slots.isEmpty,
      (s.trl.spine :: s.trl.rings).all fun r => r.refused.isEmpty, !s.mgmt.up, (arrayAt ready 3 0).syn.cells.isEmpty && (arrayAt ready 3 0).dec.isEmpty,
      !{ s with dbg := { s.dbg with vccaux := false } }.dbg.vccaux]) = true := by decide +kernel

theorem wit_SafeQueues : State.reset.safe = true ∧ ({ State.reset with pending := [.perstN] } : State).safe = true := by decide +kernel

theorem wit_CommandsComplete : Instr.wf .perstN = true ∧ Instr.wf (.memwr 0 0 [1]) = false := by decide

theorem wit_FormsRoundTrip : met (
    let r : AlmRec := mkRec plotDev { origin := 1, principal := 3, objClass := 1, objId := 2, action := 3, status := 4, before := 5, after := 6 } none false
    let p := { packet [1, 2, 3, 4, 5] with mac := List.replicate 16 7 }
    [r.seq < 2 ^ 48, r.time < 2 ^ 64, r.flags < 2 ^ 16, r.tb0sec < 2 ^ 32, r.chain < 2 ^ 64, p.mac.length = 16, p.plen.toNat = p.payload.length,
      (4 - p.payload.length % 4) % 4 = 3]) = true := by decide +kernel

theorem wit_CommandJudging : met (
        let p := packet [0, 0, 0, 0]
    let far := { p with session := 9 }
    let old := { plotDev with mgmt := { plotDev.mgmt with sessions := plotDev.mgmt.sessions.set 0 (some { aSession with win := { high := 1, accepted := 1, statuses := [(1, 7)] } }) } }
    let wire := { plotDev with mgmt := { plotDev.mgmt with sessions := plotDev.mgmt.sessions.set 0 (some { aSession with inst := .jtag }) } }
    let dying := { plotDev with trust := { plotDev.trust with plots := modAt plotDev.trust.plots 0 fun x => { x with dying := true } } }
    let halted := { plotDev with dbg := { plotDev.dbg with mgmtCtl := 1 } }
    let starting := { plotDev with mgmt := { plotDev.mgmt with dev := .start } }
    [badHeader opAlmSeal { p with seq := 0 }, !badHeader opAlmSeal p, !cmdHalted plotDev, (sessionFor (ctxOf opAlmSeal doe0 far) plotDev).isNone,
      (windowOf opAlmSeal (ctxOf opAlmSeal doe0 p) old).any fun w => !w.fresh p.seq, macTransport .jtag, (sessionFor (ctxOf opAlmSeal .jtag p) wire).isSome,
      plotBarred (ctxOf opAlmSeal doe0 p) dying, cmdHalted halted, !opAlmSeal.accepts starting.mgmt.dev, good plotDev opAlmSeal doe0 p,
      (opAlmSeal.refusal (ctxOf opAlmSeal doe0 p) plotDev).isNone, !(opAlmSeal.run (ctxOf opAlmSeal doe0 p) plotDev).st.trl.stuck,
      !almRoom 1 { plotDev with alm := { plotDev.alm with sealed := true } }, (SeqWin.reset.fresh 1), !SeqWin.reset.fresh 0]) = true := by decide +kernel

theorem wit_AlmanacRecords : met (
    let s := { plotDev with dbg := { plotDev.dbg with vccaux := true }, time := { plotDev.time with ticks := 8 * 10 ^ 8 } }
    let b := csrBody hubCore (shellOff (.phy 3)) 0 0 1 s
    let q : AlmRec := { parseRec [] with time := devNs s - 999999, count := 2, objClass := 0x13, origin := b.origin, principal := b.principal, objId := b.objId, action := 0x1000 }
    [wardenRuns s, s.policy.table.isNone, quietMgmt s, !s.alm.sealed, s.alm.unacked < 131072, (s.policy.counts.get RuleCount.zero (4 * 65536 + 2)).h ≤ devNs s,
      s.alm.opened.isNone, (shellAt s (.phy 3)).ctl = 0, (shellAt s (.phy 3)).st = .idle, decide (devNs s < q.time + 1000000), q.count < 0xFFFE]) = true := by decide +kernel

theorem wit_PolicyCounting : met (
    let r : Rule := (rulesInForce Device.reset).getD 0 (parseRule [])
    let c : RuleCount := { n := 0, s := 0, h := 5 }
    [(rulesInForce Device.reset).length ≠ 0, decide (4 < c.h), decide (c.h ≤ 5), r.count ≠ 0]) = true := by decide +kernel
/-! ## Single steps, with values worked out from the spec -/

def micro (sa sb : BitVec 4) (dst : BitVec 3) (k : Byte) : Micro := { sa, sb, dst, ci := 0, cnd := 0, osel := 0, k }

/-- ADD of 0xFFFF (source 12) and K = 1 (source 8) to Q0 wraps to 0 and carries (R54, R56, R58). -/
theorem test_cellAdd_carries :
    (cellSt (bedAt (ran (.cellAdd cell00 (micro 12 8 1 1)) cellDev) 0) 0 0).q0 = 0
      ∧ (cellSt (bedAt (ran (.cellAdd cell00 (micro 12 8 1 1)) cellDev) 0) 0 0).cl = true := by decide +kernel

/-- SUB of K = 1 from 0 borrows: 0xFFFF with CL 0 (R56). -/
theorem test_cellSub_borrows :
    (cellSt (bedAt (ran (.cellSub cell00 (micro 11 8 1 1)) cellDev) 0) 0 0).q0 = 0xFFFF
      ∧ (cellSt (bedAt (ran (.cellSub cell00 (micro 11 8 1 1)) cellDev) 0) 0 0).cl = false := by decide +kernel

/-- S1 + S1 modulo 2^32 with S1 = 0x80000005; it is its own destination; PC moves 16 bytes (R172, R217). -/
theorem test_add_wraps :
    let d := ran (.add 0 16 1 1 1) coreDev
    regNow d 0 ⟨.s, 1⟩ = 0x0000000A ∧ (coreAt d 0).pc = 0x110 := by decide +kernel

/-- The signed high half of 0x80000005 × 0x123 is -146 (0xFFFFFF6E), a cycle later (R172, R217). -/
theorem test_mulh_lands_later :
    let d := ran (.mulh 0 16 3 1 2) coreDev
    (coreAt d 0).flights.map (·.what) = [.write ⟨.s, 3⟩ 0xFFFFFFFF 0xFFFFFF6E] ∧ regNow d 0 ⟨.s, 3⟩ = 0 := by decide +kernel

/-- A false guard writes nothing (R207). -/
theorem test_guard_off : regNow (ran (.add 0 17 1 1 1) coreDev) 0 ⟨.s, 1⟩ = 0x80000005 := by decide +kernel

/-- A conventional reset takes the link down (R417). -/
theorem test_perstN_link : (ran .perstN cxlDev).cxl.linkUp = false ∧ (ran .perstN cxlDev).cxl.cacheEn = 0 := by decide +kernel

/-- A host read of an address that no decoder holds returns poison (R410). -/
theorem test_memrd_poison : (ran (.memrd 0 0x555555) cxlDev).cxl.sent = [.memData 0 [] true] := by decide +kernel

/-- IDCODE selects register 0x01 and captures the code (R579). -/
theorem test_idcode :
    let d := ran .idcode { ready with dbg := { ready.dbg with vccaux := true } }
    d.dbg.ir = 0x01 ∧ d.dbg.dr = 0x208A11C3 := by decide +kernel

/-- Clearing EN of a running subport leaves HEAD at TAIL (R378). -/
theorem test_spCtl_clears :
    let d := ran (.spCtl hubCore 0 3 0) (portDev { aSub with txr := { aRing with head := 5 } })
    (subAt d 0 3).ctl = 0 ∧ (subAt d 0 3).txr.head = 5 := by decide +kernel

/-- The eighth unacknowledged frame draws an ACK of its group (R340). -/
theorem test_ack_of_eighth : ((linkAt (ran (.frameReceived 5 1 6 0 0) (linkDev { aStrand with unacked := 7 })) 5).strand 1 6).unacked = 0 := by
  decide +kernel

/-- A frame with a bit wrong is counted and draws a NAK, and the receiver still expects it (R340, R341). -/
theorem test_frame_error :
    let d := ran (.frameReceived 5 1 6 1 0) (linkDev aStrand)
    (linkAt d 5).crcErr = 1 ∧ ((linkAt d 5).strand 1 6).nak = true ∧ ((linkAt d 5).strand 1 6).expect = 7
      ∧ ((linkAt d 5).strand 1 6).next = 8 := by decide +kernel

/-- The read of the example of R248: 64 bytes at 0x42340 by bed 251 under PLOT 3, PRI 1 and tag 0x025. -/
def exampleRead : Pkt :=
  { sentPkt awake .read .xload { atCore 64 [] 0 with init := 0x50B, addr := 0x42340 } 0x25 with plot := 3, pri := 1, stamp := 0 }
theorem test_header : (Parcel.req exampleRead).head = 0x3F00000004234000940D42D ∧ (Parcel.req exampleRead).dataFlits = 0 := by decide +kernel

/-- It takes the counter-clockwise ring of die pair 1 for 8 hops, and on the spine, from HL5 at 19 to ME at 11, that of pair 1 (R233). -/
theorem test_ring_path :
    (initStop 0x50B, diePos .hubBridge, ringFor 5 0x42340 8 0, hopCount 5 8 0) = (8, 0, 3, 8)
      ∧ (ringFor 8 0x42340 19 11, hopCount 8 19 11) = (3, 8) := by decide +kernel

theorem wit_PacketForms : met (
    let w := sentPkt awake .write .xload { atCore 8 [1, 2, 3, 4, 5, 6, 7, 8] 0 with addr := 0x4237C, len := 1 } 3
    let r : Rsp := { req := exampleRead, rcode := 0, data := List.replicate 64 5 }
    [w.data.length = w.bcnt.toNat + 1, w.addr.toNat % 64 + 8 ≤ 64 * (w.len.toNat + 1), r.req.opc = .read, r.req.data.isEmpty,
      r.data.length = r.req.bcnt.toNat + 1, r.req.atype = .xload]) = true := by decide +kernel

/-- Six slots of a fabric frame: a token, a credit slot and four empty ones (R126). -/
theorem test_slots :
    (slotBits [(0x05, 0xCAFE0001), (0xFE, 0x02030405)]).toNat = 0x05CAFE0001 + 0xFE02030405 * 2 ^ 40 + 0xFF * 2 ^ 112 + 0xFF * 2 ^ 152 + 0xFF * 2 ^ 192 + 0xFF * 2 ^ 232 := by
  decide +kernel

/-- START_AT fires: the session that waits for it is gone, and its core starts (R402, R466). -/
theorem test_startAtFire :
    let s := setCore 3 Core.reset { awake with time := { awake.time with startAt := some { tb := 0, target := 0, fired := false } }
                                               cfg := { awake.cfg with ses := awake.cfg.ses.set 1 (some { waitingSes with beds := [] }) } }
    let d := ran .startAtFire s
    (coreAt d 3).st = .starting ∧ d.cfg.ses = [none, none, none, none] ∧ d.time.startAt = none := by decide +kernel

/-- The worked example of R509: the bytes of its two rules. -/
def throttleRules : List (List Byte) :=
  [[3, 1, 0x57, 0, 0x7C, 1, 0, 0, 4, 0, 0, 0, 0xE8, 3, 0, 0, 1, 4, 0xFF, 0xFF, 0x64, 0], [3, 2, 0x57, 0, 0x54, 1, 0, 0, 0x32, 0, 0, 0, 0x10, 0x27, 0, 0, 1, 0, 0xFF, 0xFF, 0x64, 0]].map
    (· ++ List.replicate 10 0)

/-- The state before one sample of sensor 87: the count of a rule, and THROTTLE.STEP of bed 250 in the die's beds. -/
def hotDev (rule n s : Nat) (step : BitVec 4) : Device :=
  { Device.reset with
    beds := tableOf Bed.reset [(250, { Bed.reset with clock := { Bed.reset.clock with throttle := step } })]
    policy := { Policy.reset with table := some (throttleRules.map parseRule), counts := tableOf RuleCount.zero [(rule * 65536 + 87, { n, s, h := 0 })] } }

def madeRecord (s : Device) : Option (Nat × Nat × Nat × Nat) := s.alm.recs.getLast?.map fun r => (r.origin, r.objClass, r.objId, r.action)

theorem test_throttle_fires :
    let d := policyAct 3 87 386 300000 (hotDev 0 3 0 0)
    throttleRules.all ruleOk = true ∧ d.policy.counts.get RuleCount.zero 87 = { n := 0, s := 0, h := 100300000 } ∧ d.policy.fired.get 0 0 = 1
      ∧ ((List.range 384).all fun b => (bedAt d b).clock.throttle = if 240 ≤ b ∧ b < 288 then 4 else 0) = true
      ∧ d.flt.arriving.map (fun r => (r.src, r.cls)) = [(.die 5, 1)] := by decide +kernel
theorem test_throttle_releases :
    let d := policyAct 3 87 340 44900000 (hotDev 1 49 40000000 4)
    (bedAt d 250).clock.throttle = 0 ∧ d.flt.arriving.map (fun r => (r.src, r.cls)) = [(.die 5, 0)] := by decide +kernel
theorem test_throttle_record :
    let s := hotDev 0 3 0 0
    let f : Fired := { idx := 0, rule := (throttleRules.map parseRule).getD 0 (mkRule 0 0 0 0 0 0 0 0 0 0), inst := 87, val := 386 }
    (match (carryOut 3 f ⟨[], []⟩ s).2.2 with | some d => decide (madeRecord (actionDone f d s) = some (8, 2, 5, 0x8101)) | none => false) = true := by decide +kernel

/-- FAULT_CLEAR with class bits 1 and 2 empties those records alone (R551). -/
theorem test_faultClear :
    let r : FltRec := { rep := { src := .bed 5, cls := 2, cause := 7, detail := 9, time := 3 }, plotValid := false, plot := 0, merged := 0, safe := false,
                        overflowed := false, almSeq := 4 }
    let s := { plotDev with flt := { plotDev.flt with first := [some r, some r, some r, none, none] } }
    (ran (.faultClear doe0 (packet [6, 0, 0, 0])) s).flt.first = [some r, none, none, none, none] := by decide +kernel

/-- A command takes the place of the queue's front, and an empty queue is a tick (log 1, log 2). -/
theorem test_step_front :
    (match step { State.reset with pending := [.perstN, .hotReset] } with | .next t => decide (t.pending = [.hotReset]) | _ => false) = true := by decide +kernel
theorem test_step_tick :
    (match step { State.reset with dev := { Device.reset with dbg := { Device.reset.dbg with vccaux := true } } } with
     | .next t => decide (t.dev.time.ticks = 1) | _ => false) = true := by decide +kernel

end Sys2Proof.Machine.Tests
end

section
namespace Sys2Proof.Machine
open Sys2Proof

/-! ## Commands that leave the fuses alone -/

/-- Both devices have the same lifecycle state, owner fuses and burnt repair slots (R485, R573). -/
structure SameFuses (old new : Device) : Prop where
  lifecycle : new.trust.lifecycle = old.trust.lifecycle
  owner : new.trust.ownerBlk = old.trust.ownerBlk
  invalid : new.trust.ownerInv = old.trust.ownerInv
  slots : new.bist.fuses = old.bist.fuses

theorem fuseHold_of_sameFuses {old new : Device} (h : SameFuses old new) : fuseHold old new = new := by
  obtain ⟨hl, ho, hi, hs⟩ := h
  simp [fuseHold, ← hl, ← ho, ← hi, ← hs, List.isPrefixOf_iff_prefix]

/-- A command that acts on the device by `f` and keeps the fuses completes with what `f` leaves. -/
theorem Completes.of_onDevice {i : Instr} {s : State} {f : Device → Device} {P : Device → Prop}
    (he : exec i s = .next (onDevice f s)) (hf : SameFuses s.dev (f s.dev)) (hP : P (f s.dev)) : Completes i s P :=
  ⟨f s.dev, by rw [he, onDevice, fuseHold_of_sameFuses hf], hP⟩

theorem settle_of_quiet {s : Device} (h : MgmtQuiet s) : settle s = s := settle_idle s h.rakes h.progress h.parked

/-! ## The state after reset -/

/-- Only plot 0 exists after reset (R31). -/
theorem plotExists_reset {p : Nat} (hp : 1 ≤ p) : plotExists Device.reset p = false := by
  obtain ⟨p, rfl⟩ := Nat.exists_eq_add_of_le' hp
  have hl : plotSt Device.reset (p + 1) = (List.replicate 15 PlotSt.none).getD p PlotSt.none := rfl
  rw [plotExists, hl, List.getD_eq_getElem?_getD, List.getElem?_replicate]
  split <;> rfl

/-- Settles O56: the tables are empty after reset, so that every entry reads as its default, and the lists are replicates of one entry. -/
theorem resetValues : Obligations.ResetValues := by
  unfold Obligations.ResetValues
  have hbases : ∀ t ∈ State.reset.dev.time.bases, t.val = 0 ∧ t.fadj = 0 := fun t ht => by
    rw [List.eq_of_mem_replicate ht]; exact ⟨rfl, rfl⟩
  have hsessions : ∀ x ∈ State.reset.dev.mgmt.sessions, x = none := fun x hx => List.eq_of_mem_replicate hx
  have hwindows : ∀ w ∈ State.reset.dev.mem.windows, w.valid = false := fun w hw => by
    rw [List.eq_of_mem_replicate hw]; rfl
  have hfirst : ∀ r ∈ State.reset.dev.flt.first, r = none := fun r hr => List.eq_of_mem_replicate (n := 5) hr
  exact ⟨rfl, rfl, ⟨rfl, rfl⟩, fun _ => ⟨rfl, rfl, rfl⟩, fun _ => ⟨rfl, rfl, rfl⟩, fun _ => ⟨rfl, rfl⟩,
    fun _ => plotExists_reset, rfl, hsessions, rfl, rfl, fun _ => rfl, fun _ => rfl, hwindows, rfl, rfl, rfl, hbases,
    rfl, rfl, rfl, hfirst, rfl, rfl, rfl, fun _ => rfl, rfl, rfl⟩

/-! ## Register accesses -/

/-- `csrWrite` as a function of the offset from the CSR base. -/
def csrWriteAt (i : InitId) (plot o size v : Nat) (s : Device) : Device × Byte :=
  match blkOf o with
  | none => (s, rcDecode)
  | some (b, blk) =>
    if !csrOpen s i plot b (o - blk) then (s, rcDenied)
    else match regWrite (blkWidth b) (o - blk) size v with
      | none => (s, rcBad)
      | some none => (s, rcOkay)
      | some (some (r, w, m)) =>
        if almRefuses (fun d => (blkWrite i b blk r w m d).getD d) s then (s, rcDenied)
        else match blkWrite i b blk r w m s with
        | none => (s, rcDenied)
        | some d => (d, rcOkay)

/-- The definition is unfolded as a constant: unfolded at its arguments, the kernel would compute with `csrBase` in unary. -/
theorem csrWrite_eq (i : InitId) (plot a size v : Nat) (s : Device) :
    csrWrite i plot a size v s = csrWriteAt i plot (a - csrBase) size v s := by
  have h : csrWrite = csrWrite := rfl
  conv at h => rhs; delta csrWrite
  refine (congrFun (congrFun (congrFun (congrFun (congrFun (congrFun h i) plot) a) size) v) s).trans ?_
  cases hb : blkOf (a - csrBase) with
  | none => rw [csrWriteAt, hb]
  | some p => rw [csrWriteAt, hb] <;> rfl

/-- `csrRead` as a function of the offset from the CSR base. -/
def csrReadAt (i : InitId) (plot o size : Nat) (s : Device) : Device × Byte × Nat :=
  match blkOf o with
  | none => (s, rcDecode, 0)
  | some (b, blk) =>
    if !csrOpen s i plot b (o - blk) then (s, rcDenied, 0)
    else match (match b with
        | .core c => coreCsrRead i c (o - blk) size s
        | _ => regRead (blkWidth b) (blkRead s b) blk i (o - blk) size s) with
      | none => (s, rcBad, 0)
      | some (v, d) => (readEffect i b (o - blk) d, rcOkay, v)

theorem csrRead_eq (i : InitId) (plot a size : Nat) (s : Device) :
    csrRead i plot a size s = csrReadAt i plot (a - csrBase) size s := by
  have h : csrRead = csrRead := rfl
  conv at h => rhs; delta csrRead
  refine (congrFun (congrFun (congrFun (congrFun (congrFun h i) plot) a) size) s).trans ?_
  cases hb : blkOf (a - csrBase) with
  | none => rw [csrReadAt, hb]
  | some p => rw [csrReadAt, hb] <;> rfl

section csr
variable {i : InitId} {plot o size v : Nat} {s : Device} {b : Blk} {blk : Nat}

theorem csrWriteAt_unmapped (hb : blkOf o = none) : csrWriteAt i plot o size v s = (s, rcDecode) := by
  simp only [csrWriteAt, hb]

theorem csrWriteAt_denied (hb : blkOf o = some (b, blk)) (ho : csrOpen s i plot b (o - blk) = false) :
    csrWriteAt i plot o size v s = (s, rcDenied) := by
  simp only [csrWriteAt, hb, ho, Bool.not_false, if_true]

section opened
variable (hb : blkOf o = some (b, blk)) (ho : csrOpen s i plot b (o - blk) = true)
include hb ho

theorem csrWriteAt_badAccess (hw : regWrite (blkWidth b) (o - blk) size v = none) :
    csrWriteAt i plot o size v s = (s, rcBad) := by
  simp only [csrWriteAt, hb, ho, hw, Bool.not_true, Bool.false_eq_true, if_false]

theorem csrWriteAt_noRegister (hw : regWrite (blkWidth b) (o - blk) size v = some none) :
    csrWriteAt i plot o size v s = (s, rcOkay) := by
  simp only [csrWriteAt, hb, ho, hw, Bool.not_true, Bool.false_eq_true, if_false]

theorem csrWriteAt_register {r w m : Nat} {e : Device} (hw : regWrite (blkWidth b) (o - blk) size v = some (some (r, w, m)))
    (hr : almRefuses (fun d => (blkWrite i b blk r w m d).getD d) s = false) (he : blkWrite i b blk r w m s = some e) :
    csrWriteAt i plot o size v s = (e, rcOkay) := by
  simp only [csrWriteAt, hb, ho, hw, hr, he, Bool.not_true, Bool.false_eq_true, if_false]

theorem csrReadAt_register (hc : ∀ c, b ≠ .core c) {d : Device}
    (hr : regRead (blkWidth b) (blkRead s b) blk i (o - blk) size s = some (v, d)) :
    csrReadAt i plot o size s = (readEffect i b (o - blk) d, rcOkay, v) := by
  cases b with
  | core c => exact absurd rfl (hc c)
  | _ => simp only [csrReadAt, hb, ho, hr, Bool.not_true, Bool.false_eq_true, if_false]

end opened
end csr

theorem csrAccWrite_of {x : CsrAcc} {s d : Device} {rc : Byte}
    (h : csrWriteAt x.init (stampPlot s x.init) (x.addr.toNat - csrBase) x.size x.data.toNat s = (d, rc)) :
    csrAccWrite x s = { denyNote x.init x.addr.toNat rc d with answer := some (rc, 0) } := by
  have he : csrAccWrite = csrAccWrite := rfl
  conv at he => rhs; delta csrAccWrite
  refine (congrFun (congrFun he x) s).trans ?_
  rw [csrWrite_eq, h]

theorem csrAccRead_of {x : CsrAcc} {s d : Device} {rc : Byte} {v : Nat}
    (h : csrReadAt x.init (stampPlot s x.init) (x.addr.toNat - csrBase) x.size s = (d, rc, v)) :
    csrAccRead x s = { denyNote x.init x.addr.toNat rc d with answer := some (rc, BitVec.ofNat 64 v) } := by
  have he : csrAccRead = csrAccRead := rfl
  conv at he => rhs; delta csrAccRead
  refine (congrFun (congrFun he x) s).trans ?_
  rw [csrRead_eq, h]

@[simp] theorem denyNote_trust (i : InitId) (a : Nat) (rc : Byte) (s : Device) : (denyNote i a rc s).trust = s.trust := by
  unfold denyNote; split <;> rfl
@[simp] theorem denyNote_bist (i : InitId) (a : Nat) (rc : Byte) (s : Device) : (denyNote i a rc s).bist = s.bist := by
  unfold denyNote; split <;> rfl

/-- Noting and answering an access leaves the command pair idle. -/
theorem MgmtQuiet.answered {s : Device} (h : MgmtQuiet s) {i : InitId} {a : Nat} {rc : Byte} {w : Option (Byte × Word64)} :
    MgmtQuiet { denyNote i a rc s with answer := w } := by
  unfold denyNote
  split <;> exact ⟨h.rakes, h.progress, h.parked⟩

/-- A register write that leaves `d` with the fuses as they were, and is answered `rc`, completes so. -/
theorem completes_csrWrite {s : State} {acc : CsrAcc} {d : Device} {rc : Byte}
    (h : csrWriteAt acc.init (stampPlot s.dev acc.init) (acc.addr.toNat - csrBase) acc.size acc.data.toNat s.dev = (d, rc))
    (hq : MgmtQuiet d) (ht : d.trust = s.dev.trust) (hb : d.bist = s.dev.bist) :
    Completes (.csrWrite acc) s fun e => e = { denyNote acc.init acc.addr.toNat rc d with answer := some (rc, 0) } := by
  have hs : settle (csrAccWrite acc s.dev) = { denyNote acc.init acc.addr.toNat rc d with answer := some (rc, 0) } := by
    rw [csrAccWrite_of h]; exact settle_of_quiet hq.answered
  refine .of_onDevice (f := fun s => settle (csrAccWrite acc s)) rfl ?_ hs
  simp only [hs]
  exact ⟨by simp [ht], by simp [ht], by simp [ht], by simp [hb]⟩

/-! ## Halves of a 64-bit register (R10) -/

theorem readEffect_of_ne_tim {i : InitId} {b : Blk} {off : Nat} {s : Device} (h : b ≠ .tim) : readEffect i b off s = s := by
  unfold readEffect
  split
  · exact absurd rfl h
  · rfl

theorem latched_setLatch (i : InitId) (addr h : Nat) (s : Device) : latched i addr (setLatch i addr h s) = some h := by
  unfold latched setLatch
  split <;> simp [*]

section halves
variable {wid : Nat → Option (Nat × Nat)} {val : Nat → Nat} {blk : Nat} {i : InitId} {off : Nat} {s : Device}

theorem regRead_lower (h : wid off = some (off, 64)) :
    regRead wid val blk i off 4 s = some (val off % 2 ^ 32, setLatch i (blk + off) (val off / 2 ^ 32 % 2 ^ 32) s) := by
  simp [regRead, h]

theorem regRead_upper (h : wid (off + 4) = some (off, 64)) :
    regRead wid val blk i (off + 4) 4 s = some ((latched i (blk + off) s).getD (val off / 2 ^ 32 % 2 ^ 32), s) := by
  simp [regRead, h]

theorem regRead_whole (h : wid off = some (off, 64)) : regRead wid val blk i off 8 s = some (val off % 2 ^ 64, s) := by
  simp [regRead, h]

end halves

/-- The offset of an address in the CSR window, whose 2 ^ 28 bytes lie below 2 ^ 48 (R9). -/
theorem csrOffset {o : Nat} (h : o < 2 ^ 28) : (BitVec.ofNat 48 (csrBase + o)).toNat - csrBase = o := by
  rw [BitVec.toNat_ofNat, Nat.mod_eq_of_lt (by unfold csrBase; omega), Nat.add_sub_cancel_left]

/-- A command that reads a register completes with what the read leaves. -/
theorem Completes.of_read {c : Instr} {x : CsrAcc} {s : State} {o v : Nat} {d : Device}
    (hx : exec c s = .next (onDevice (fun s => csrAccRead x s) s)) (ha : x.addr.toNat - csrBase = o)
    (h : csrReadAt x.init (stampPlot s.dev x.init) o x.size s.dev = (d, rcOkay, v)) (hf : SameFuses s.dev d) :
    Completes c s fun e => e = { d with answer := some (rcOkay, BitVec.ofNat 64 v) } := by
  have hr : csrAccRead x s.dev = { d with answer := some (rcOkay, BitVec.ofNat 64 v) } := csrAccRead_of (ha ▸ h)
  refine .of_onDevice hx ?_ hr
  simp only [hr]
  exact ⟨hf.lifecycle, hf.owner, hf.invalid, hf.slots⟩

/-- A latch of a half touches neither the fuses nor the self-test. -/
theorem sameFuses_setLatch (i : InitId) (addr h : Nat) (s : Device) : SameFuses s (setLatch i addr h s) := by
  unfold setLatch
  split <;> exact ⟨rfl, rfl, rfl, rfl⟩

/-- The halves of a 64-bit register of a block without read effects (R10). -/
theorem halfRead_halves {s : State} {i : InitId} {b : Blk} {blk off : Nat} (hb : blkOf (blk + off) = some (b, blk))
    (hb4 : blkOf (blk + off + 4) = some (b, blk)) (hw : blkWidth b off = some (off, 64)) (hw4 : blkWidth b (off + 4) = some (off, 64))
    (ht : b ≠ .tim) (hc : ∀ c, b ≠ .core c) (ho : csrOpen s.dev i (stampPlot s.dev i) b off = true)
    (ho4 : csrOpen s.dev i (stampPlot s.dev i) b (off + 4) = true) (hlt : blk + off + 4 < 2 ^ 28) :
    (Completes (.halfRead i (BitVec.ofNat 48 (csrBase + (blk + off)))) s fun d =>
      d = { setLatch i (blk + off) (blkRead s.dev b off / 2 ^ 32 % 2 ^ 32) s.dev with
        answer := some (rcOkay, BitVec.ofNat 64 (blkRead s.dev b off % 2 ^ 32)) })
    ∧ Completes (.halfRead i (BitVec.ofNat 48 (csrBase + (blk + off + 4)))) s fun d => d = { s.dev with
        answer := some (rcOkay, BitVec.ofNat 64 ((latched i (blk + off) s.dev).getD (blkRead s.dev b off / 2 ^ 32 % 2 ^ 32))) } := by
  have e : blk + off - blk = off := Nat.add_sub_cancel_left ..
  have e4 : blk + off + 4 - blk = off + 4 := by omega
  constructor
  · refine .of_read rfl (csrOffset (by omega)) ?_ (sameFuses_setLatch ..)
    rw [csrReadAt_register hb (by rwa [e]) hc (by rw [e]; exact regRead_lower hw), readEffect_of_ne_tim ht]
  · refine .of_read rfl (csrOffset hlt) ?_ ⟨rfl, rfl, rfl, rfl⟩
    rw [csrReadAt_register hb4 (by rwa [e4]) hc (by rw [e4]; exact regRead_upper hw4), readEffect_of_ne_tim ht]

/-! ## TB_NOW (R403) -/

section tbNow
variable (n : TbId)

theorem timWidth_tbNow : timWidth (0x108 + 0x40 * n.val) = some (0x108 + 0x40 * n.val, 64) := by
  revert n; decide

theorem timRead_tbNow (s : Device) : timRead s (0x108 + 0x40 * n.val) = (tb s n.val).frac + (tb s n.val).ns * 2 ^ 16 := by
  have hn := n.isLt
  have hk : (0x108 + 0x40 * n.val - 0x100) / 0x40 = n.val := by omega
  have hr : (0x108 + 0x40 * n.val) % 0x40 = 8 := by omega
  simp only [timRead, hk, hr]
  simp only [show ¬ 0x108 + 0x40 * n.val = 0 by omega, show ¬ 0x108 + 0x40 * n.val = 0x10 by omega,
    show ¬ 0x108 + 0x40 * n.val = 0x14 by omega, show ¬ 0x108 + 0x40 * n.val = 0x18 by omega,
    show 0x108 + 0x40 * n.val < 0x300 by omega]
  rfl

theorem readEffect_tbNow {i : InitId} (hi : i ≠ islandInit) (s : Device) :
    readEffect i .tim (0x108 + 0x40 * n.val) s = setTb n.val (fun x => { x with secLatch := x.sec }) s := by
  have hn := n.isLt
  have hk : (0x108 + 0x40 * n.val - 0x100) / 0x40 = n.val := by omega
  have hc : 0x100 ≤ 0x108 + 0x40 * n.val ∧ 0x108 + 0x40 * n.val < 0x300 ∧ (0x108 + 0x40 * n.val) % 0x40 = 8 ∧ i ≠ islandInit :=
    ⟨by omega, by omega, by omega, hi⟩
  simp only [readEffect, if_pos hc, hk, tbNowLatch]

theorem ofNat64_mod (v : Nat) : BitVec.ofNat 64 (v % 2 ^ 64) = BitVec.ofNat 64 v := by
  apply BitVec.eq_of_toNat_eq; simp

theorem blkOf_tbNow : blkOf (timOff + 0x108 + 0x40 * n.val) = some (.tim, timOff) := by
  revert n; decide

theorem completes_tbNowRead {s : State} {i : InitId} (ho : csrOpen s.dev i (stampPlot s.dev i) .tim (0x108 + 0x40 * n.val) = true)
    (hi : i ≠ islandInit) : Completes (.tbNowRead i n true) s fun d =>
      d = { setTb n.val (fun x => { x with secLatch := x.sec }) s.dev with
        answer := some (rcOkay, BitVec.ofNat 64 ((tb s.dev n.val).frac + (tb s.dev n.val).ns * 2 ^ 16)) } := by
  have hn := n.isLt
  have e : timOff + 0x108 + 0x40 * n.val - timOff = 0x108 + 0x40 * n.val := by omega
  have ha : (tbNowAcc i n true).addr.toNat - csrBase = timOff + 0x108 + 0x40 * n.val := by
    have := csrOffset (o := timOff + 0x108 + 0x40 * n.val) (by unfold timOff; omega)
    rw [← this]
    simp only [tbNowAcc, Nat.add_assoc]
  have hr : csrReadAt i (stampPlot s.dev i) (timOff + 0x108 + 0x40 * n.val) 8 s.dev
      = (setTb n.val (fun x => { x with secLatch := x.sec }) s.dev, rcOkay, timRead s.dev (0x108 + 0x40 * n.val) % 2 ^ 64) := by
    have ho' : csrOpen s.dev i (stampPlot s.dev i) .tim (timOff + 0x108 + 0x40 * n.val - timOff) = true := e ▸ ho
    have hg : regRead (blkWidth .tim) (blkRead s.dev .tim) timOff i (timOff + 0x108 + 0x40 * n.val - timOff) 8 s.dev
        = some (timRead s.dev (0x108 + 0x40 * n.val) % 2 ^ 64, s.dev) := by
      rw [e]
      exact regRead_whole (wid := blkWidth .tim) (val := blkRead s.dev .tim) (timWidth_tbNow n)
    rw [csrReadAt_register (blkOf_tbNow n) ho' (by simp) hg, e, readEffect_tbNow n hi]
  have hx : exec (.tbNowRead i n true) s = .next (onDevice (fun s => csrAccRead (tbNowAcc i n true) s) s) := rfl
  rw [timRead_tbNow] at hr
  have h := Completes.of_read hx ha hr ⟨rfl, rfl, rfl, rfl⟩
  rwa [ofNat64_mod] at h

end tbNow

/-- Settles O16: a write by the cases of `csrWriteAt`, the halves by `regRead_lower` and `regRead_upper`, TB_NOW by its read effect. -/
theorem registerWrite : Obligations.RegisterWrite := by
  unfold Obligations.RegisterWrite
  refine ⟨fun s acc hq => ⟨fun hb => ?_, fun b blk hb => ⟨fun ho => ?_, fun ho => ⟨fun hw => ?_, fun hw => ?_,
    fun r v m e hw ha he ht hbi hqe => ?_⟩⟩⟩, fun s i => ⟨?_, ?_, ?_⟩⟩
  · exact completes_csrWrite (csrWriteAt_unmapped hb) hq rfl rfl
  · exact completes_csrWrite (csrWriteAt_denied hb ho) hq rfl rfl
  · exact completes_csrWrite (csrWriteAt_badAccess hb ho hw) hq rfl rfl
  · exact completes_csrWrite (csrWriteAt_noRegister hb ho hw) hq rfl rfl
  · exact completes_csrWrite (csrWriteAt_register hb ho hw ha.room he) hqe ht hbi
  · intro b blk off hb hb4 hw hw4 ht hc ho ho4 hlt
    have h := halfRead_halves hb hb4 hw hw4 ht hc ho ho4 hlt
    simpa only [Nat.add_assoc, Nat.add_zero] using h
  · rintro off h t rfl
    exact latched_setLatch ..
  · exact fun n ho hi => completes_tbNowRead n ho hi

end Sys2Proof.Machine
end

section
namespace Sys2Proof

/-! ## Byte lists and tables -/

@[simp] theorem length_leBytes (n v : Nat) : (leBytes n v).length = n := by
  induction n generalizing v with
  | zero => rfl
  | succ n ih => simp [leBytes, ih]

theorem ofLe_leBytes (n v : Nat) : ofLe (leBytes n v) = v % 256 ^ n := by
  induction n generalizing v with
  | zero => simp [leBytes, ofLe, Nat.mod_one]
  | succ n ih => 
    have h : v % (256 * 256 ^ n) = v % 256 + 256 * (v / 256 % 256 ^ n) := Nat.mod_mul
    rw [Nat.pow_succ' (m := 256), h, leBytes, ofLe, ih, BitVec.toNat_ofNat]

theorem ofLe_lt (bs : List Byte) : ofLe bs < 256 ^ bs.length := by
  induction bs with
  | nil => simp [ofLe]
  | cons b bs ih =>
    have := b.isLt
    rw [ofLe, List.length_cons, Nat.pow_succ']
    omega

theorem leAt_lt (bs : List Byte) (off n : Nat) : leAt bs off n < 256 ^ n :=
  Nat.lt_of_lt_of_le (ofLe_lt _) (Nat.pow_le_pow_right (by decide) (List.length_take_le ..))

theorem Sparse.lookup_eq_none {α : Type} {m : List (Nat × α)} {k : Nat} (h : ∀ c ∈ m, c.1 ≠ k) : Sparse.lookup m k = none := by
  induction m with
  | nil => rfl
  | cons c m ih =>
    rw [Sparse.lookup, if_neg (h c List.mem_cons_self), ih fun x hx => h x (List.mem_cons_of_mem _ hx)]

/-- Every entry of a canonical table, the unlisted ones too, is mapped by an `f` that keeps the default. -/
theorem Sparse.get_mapCells {α : Type} [DecidableEq α] {m : Sparse α} {d : α} {f : Nat → α → α} (hm : m.wf d = true) {k : Nat}
    (hf : f k d = d) : (m.mapCells d f).get d k = f k (m.get d k) := by
  obtain ⟨cells⟩ := m
  replace hm := ((Sparse.wf_iff _ _).1 hm).1
  simp only [Sparse.mapCells, Sparse.get]
  simp only at hm
  induction cells with
  | nil => exact hf.symm
  | cons c cs ih =>
    obtain ⟨hlt, hcs⟩ := (Sparse.keysRise_cons _ _).1 hm
    by_cases hk : c.1 = k
    · subst hk
      have hnone : Sparse.lookup ((cs.map fun c => (c.1, f c.1 c.2)).filter fun c => decide (c.2 ≠ d)) c.1 = none := by
        refine Sparse.lookup_eq_none fun x hx => ?_
        obtain ⟨y, hy, rfl⟩ := List.mem_map.1 (List.mem_filter.1 hx).1
        exact Nat.ne_of_gt (hlt y hy)
      by_cases hd : f c.1 c.2 = d
      · rw [List.map_cons, List.filter_cons_of_neg (by simp [hd]), hnone]
        simp [Sparse.lookup, hd]
      · rw [List.map_cons, List.filter_cons_of_pos (by simp [hd])]
        simp [Sparse.lookup]
    · have hstep : Sparse.lookup (((c :: cs).map fun c => (c.1, f c.1 c.2)).filter fun c => decide (c.2 ≠ d)) k
          = Sparse.lookup ((cs.map fun c => (c.1, f c.1 c.2)).filter fun c => decide (c.2 ≠ d)) k := by
        rw [List.map_cons, List.filter_cons]
        split
        · rw [Sparse.lookup, if_neg hk]
        · rfl
      rw [hstep, ih hcs, Sparse.lookup, if_neg hk]

end Sys2Proof

namespace Sys2Proof.Machine
open Sys2Proof

/-! ## Coded arrays with sound decoders (R143 to R151) -/

section coded
variable {c : Coded} (hc : c.dec = [])

@[simp] theorem Coded.dec_write (c : Coded) (a : Nat) (b : Byte) : (c.write a b).dec = c.dec := rfl

@[simp] theorem Coded.dec_writeBytes (c : Coded) (a : Nat) (bs : List Byte) : (c.writeBytes a bs).dec = c.dec := by
  induction bs generalizing c a with
  | nil => rfl
  | cons b bs ih => rw [Coded.writeBytes, ih, Coded.dec_write]

theorem dataCols_zero : dataCols 0 = 0 := by decide
theorem synClass_zero : synClass 0 = .clean := rfl

include hc

theorem Coded.land_of_sound (a : Nat) : c.land a = a := by rw [Coded.land, hc]; rfl

/-- A read of an array with sound decoders, from the stored byte and syndrome and what the fill left. -/
theorem Coded.read_of_sound (a : Nat) : c.read a =
    ⟨(synClass (c.syn.get 0 a ^^^ c.fillCols a)).fix (c.data.get 0 a), c.syn.get 0 a ^^^ c.fillCols a,
      synClass (c.syn.get 0 a ^^^ c.fillCols a)⟩ := by
  have h : c.syn.get 0 a ^^^ c.fillCols a ^^^ sigCols (sigOf a) ^^^ sigCols (sigOf a) = c.syn.get 0 a ^^^ c.fillCols a := by
    rw [BitVec.xor_assoc, BitVec.xor_self, BitVec.xor_zero]
  simp only [Coded.read, Coded.land_of_sound hc, h]

theorem Coded.write_of_sound (a : Nat) (b : Byte) :
    c.write a b = { c with data := c.data.set 0 a b, syn := c.syn.set 0 a (c.fillCols a) } := by
  have h : dataCols 0 ^^^ 0 ^^^ c.fillCols a ^^^ sigCols (sigOf a) ^^^ sigCols (sigOf a) = c.fillCols a := by
    rw [dataCols_zero, BitVec.xor_assoc, BitVec.xor_self]; simp
  have hb : b ^^^ 0 = b := BitVec.xor_zero
  simp only [Coded.write, Coded.writeWith, Coded.land_of_sound hc, h, hb]

theorem Coded.read_write_same (a : Nat) (b : Byte) : (c.write a b).read a = ⟨b, 0, .clean⟩ := by
  have hf : (c.write a b).fillCols a = c.fillCols a := rfl
  rw [Coded.read_of_sound (c := c.write a b) hc, hf, Coded.write_of_sound hc]
  simp only [Sparse.get_set_same, BitVec.xor_self]
  rfl

theorem Coded.read_write_ne {a j : Nat} (b : Byte) (h : j ≠ a) : (c.write a b).read j = c.read j := by
  have hf : (c.write a b).fillCols j = c.fillCols j := rfl
  rw [Coded.read_of_sound (c := c.write a b) hc, hf, Coded.write_of_sound hc, Coded.read_of_sound hc]
  simp only [Sparse.get_set_ne _ _ _ h]

/-- A read after a run of bytes is written: the byte of the run, and beside it what was there. -/
theorem Coded.read_writeBytes (off : Nat) (bs : List Byte) (j : Nat) :
    (c.writeBytes off bs).read j = (runAt off bs j).elim (c.read j) fun b => ⟨b, 0, .clean⟩ := by
  induction bs generalizing c off with
  | nil => simp [Coded.writeBytes, runAt]
  | cons b bs ih =>
    rw [Coded.writeBytes, ih (c := c.write off b) hc]
    rcases Nat.lt_trichotomy j off with h | rfl | h
    · have h1 : ¬ off + 1 ≤ j := by omega
      have h2 : ¬ off ≤ j := by omega
      simp [runAt, h1, h2, Coded.read_write_ne hc b (Nat.ne_of_lt h)]
    · have hn : runAt (j + 1) bs j = none := if_neg (Nat.not_succ_le_self j)
      have hs : runAt j (b :: bs) j = some b := by rw [runAt, if_pos (Nat.le_refl j), Nat.sub_self]; rfl
      rw [hn, hs, Option.elim_none, Option.elim_some, Coded.read_write_same hc]
    · have h1 : off + 1 ≤ j := h
      have h2 : off ≤ j := by omega
      have h3 : j - off = j - (off + 1) + 1 := by omega
      simp [runAt, h1, h2, h3, Coded.read_write_ne hc b (Nat.ne_of_gt h)]

/-- Every byte that a fill leaves in an array with sound decoders is a clean 0 (R151). -/
theorem Coded.read_fill (j : Nat) : c.fill.read j = ⟨0, 0, .clean⟩ := by
  have ht : c.fill.top = 0 := by rw [Coded.fill, hc]; rfl
  have hf : c.fill.fillCols j = 0 := by rw [Coded.fillCols, if_pos ht]
  have hd : c.fill.data.get 0 j = 0 := rfl
  have hs : c.fill.syn.get 0 j ^^^ 0 = 0 := BitVec.xor_zero
  rw [Coded.read_of_sound (c := c.fill) hc, hf, hs, hd, synClass_zero]
  rfl

end coded

theorem Coded.readBytes_eq (c : Coded) (a n : Nat) : c.readBytes a n = (List.range n).map fun k => c.read (a + k) := by
  induction n generalizing a with
  | zero => rfl
  | succ n ih =>
    rw [Coded.readBytes, ih, List.range_succ_eq_map, List.map_cons, List.map_map]
    simp only [Nat.add_zero, Function.comp_def, Nat.add_assoc, Nat.add_comm 1, Nat.succ_eq_add_one]

/-! ## Runs of bytes -/

theorem runAt_eq_none {off : Nat} {bs : List Byte} {j : Nat} : runAt off bs j = none ↔ j < off ∨ off + bs.length ≤ j := by
  unfold runAt
  split
  · rw [List.getElem?_eq_none_iff]; omega
  · simp only [true_iff]; omega

/-- Of two runs that do not overlap, either may be asked first. -/
theorem runAt_or_comm {off off' : Nat} {bs bs' : List Byte} (h : off + bs.length ≤ off') (j : Nat) :
    (runAt off bs j).or (runAt off' bs' j) = (runAt off' bs' j).or (runAt off bs j) := by
  by_cases hj : j < off'
  · rw [runAt_eq_none.2 (.inl hj), Option.or_none, Option.none_or]
  · rw [runAt_eq_none (off := off).2 (.inr (by omega)), Option.or_none, Option.none_or]

/-- A run hides one of the same length at the same place. -/
theorem runAt_or_hidden {off : Nat} {bs bs' : List Byte} (h : bs.length = bs'.length) (j : Nat) (x : Option Byte) :
    (runAt off bs j).or ((runAt off bs' j).or x) = (runAt off bs j).or x := by
  cases hb : runAt off bs j with
  | some b => rfl
  | none => rw [runAt_eq_none.2 (h ▸ runAt_eq_none.1 hb)]; rfl

end Sys2Proof.Machine
end

section
namespace Sys2Proof.Machine
open Sys2Proof

/-! ## The retention SRAM (R577, R578) -/

/-- The arrays `b` are the arrays `a` with the bytes of the retention SRAM written that `f` gives. -/
structure SramWritten (a b : Sparse Coded) (f : Nat → Option Byte) : Prop where
  dec : (b.get Coded.filled (arrayKey 6 0)).dec = (a.get Coded.filled (arrayKey 6 0)).dec
  read : (a.get Coded.filled (arrayKey 6 0)).dec = [] → ∀ j, (b.get Coded.filled (arrayKey 6 0)).read j =
    (f j).elim ((a.get Coded.filled (arrayKey 6 0)).read j) fun b => ⟨b, 0, .clean⟩
  others : ∀ k, k ≠ arrayKey 6 0 → b.get Coded.filled k = a.get Coded.filled k

theorem SramWritten.trans {a b c : Sparse Coded} {f g : Nat → Option Byte} (h : SramWritten a b f) (h' : SramWritten b c g) :
    SramWritten a c fun j => (g j).or (f j) where
  dec := h'.dec.trans h.dec
  read hd j := by
    rw [h'.read (h.dec.trans hd) j, h.read hd j]
    cases g j <;> rfl
  others k hk := (h'.others k hk).trans (h.others k hk)

/-- `d` is `s` with the bytes of the retention SRAM written that `f` gives. -/
structure RetWrites (s d : Device) (f : Nat → Option Byte) : Prop where
  rest : d = { s with arrays := d.arrays }
  sram : SramWritten s.arrays d.arrays f

theorem RetWrites.read {s d : Device} {f : Nat → Option Byte} (h : RetWrites s d f) (hd : (arrayAt s 6 0).dec = []) (j : Nat) :
    (arrayAt d 6 0).read j = (f j).elim ((arrayAt s 6 0).read j) fun b => ⟨b, 0, .clean⟩ := h.sram.read hd j

theorem RetWrites.dec {s d : Device} {f : Nat → Option Byte} (h : RetWrites s d f) : (arrayAt d 6 0).dec = (arrayAt s 6 0).dec := h.sram.dec

theorem RetWrites.trans {s d e : Device} {f g : Nat → Option Byte} (h : RetWrites s d f) (h' : RetWrites d e g) :
    RetWrites s e fun j => (g j).or (f j) where
  rest := by
    have h1 := h'.rest
    rw [h.rest] at h1
    exact h1
  sram := h.sram.trans h'.sram

theorem RetWrites.trust {s d : Device} {f : Nat → Option Byte} (h : RetWrites s d f) : d.trust = s.trust := by
  rw [h.rest]

theorem RetWrites.congr {s d : Device} {f g : Nat → Option Byte} (h : RetWrites s d f) (hfg : ∀ j, f j = g j) : RetWrites s d g :=
  funext hfg ▸ h

theorem sramWritten_set (off : Nat) (bs : List Byte) (a : Sparse Coded) : SramWritten a
    (a.set Coded.filled (arrayKey 6 0) ((a.get Coded.filled (arrayKey 6 0)).writeBytes off bs)) (runAt off bs) where
  dec := by rw [Sparse.get_set_same, Coded.dec_writeBytes]
  read hd j := by rw [Sparse.get_set_same, Coded.read_writeBytes hd]
  others k hk := Sparse.get_set_ne _ _ _ hk

theorem retWrites_retWrite (off : Nat) (bs : List Byte) (s : Device) : RetWrites s (retWrite off bs s) (runAt off bs) where
  rest := rfl
  sram := sramWritten_set off bs s.arrays

/-- POLICY_FLOOR and the anchors 1 to 15 are cleared (R576). -/
theorem retWrites_clearAtPor (s : Device) : RetWrites s (clearAtPor s)
    fun j => (runAt 0x98 [0, 0, 0, 0] j).or (runAt 0x130 (List.replicate 720 0) j) :=
  ((retWrites_retWrite 0x98 [0, 0, 0, 0] s).trans (retWrites_retWrite 0x130 (List.replicate 720 0) _)).congr fun j =>
    (runAt_or_comm (by decide) j).symm

/-- The bytes of a run of the retention SRAM as they read. -/
def retBytes (s : Device) (off n : Nat) : List Byte := (List.range n).map fun k => ((arrayAt s 6 0).read (off + k)).data

theorem retRead_of_clean {s : Device} {off n : Nat} (h : cleanRun s 6 0 off n) : retRead off n s = (s, some (retBytes s off n)) := by
  have hcls : ∀ r ∈ (arrayAt s 6 0).readBytes off n, r.cls = .clean := by
    rw [Coded.readBytes_eq]
    intro r hr
    obtain ⟨k, hk, rfl⟩ := List.mem_map.1 hr
    exact h k (List.mem_range.1 hk)
  have hbad : anyBad ((arrayAt s 6 0).readBytes off n) = false := List.any_eq_false.2 fun r hr => by simp [hcls r hr, SynClass.bad]
  have hcorr : (((arrayAt s 6 0).readBytes off n).any fun r => r.cls.corrected) = false :=
    List.any_eq_false.2 fun r hr => by simp [hcls r hr, SynClass.corrected]
  unfold anyBad at hbad
  simp only [retRead, reportRead, anyBad, hbad, hcorr, dataOf, Bool.false_eq_true, if_false]
  rw [Coded.readBytes_eq, List.map_map]
  rfl

/-- The VALID bits that the 64 bytes of a header hold. -/
def validOf (h : List Byte) : Nat := if h.take 4 = [0x4B, 0x56, 0x52, 0x54] then leAt h 4 2 else 0

theorem validOf_lt (h : List Byte) : validOf h < 2 ^ 16 := by
  unfold validOf
  split
  · exact leAt_lt h 4 2
  · decide

theorem retValid_of_clean {s : Device} (h : cleanRun s 6 0 0 64) : retValid s = (s, validOf (retBytes s 0 64)) := by
  rw [retValid, retRead_of_clean h]
  rfl

/-- The 64 bytes of a header with VALID bits `v`, by a device in lifecycle state `l`. -/
def retHeadBytes (l : Lifecycle) (v : Nat) : List Byte :=
  [0x4B, 0x56, 0x52, 0x54] ++ leBytes 2 v ++ leBytes 1 (lifecycleNo l) ++ List.replicate 9 0 ++ leBytes 16 Config.deviceId ++ List.replicate 32 0

@[simp] theorem length_retHeadBytes (l : Lifecycle) (v : Nat) : (retHeadBytes l v).length = 64 := by simp [retHeadBytes]

theorem validOf_retHeadBytes (l : Lifecycle) {v : Nat} (hv : v < 2 ^ 16) : validOf (retHeadBytes l v) = v := by
  have h : validOf (retHeadBytes l v) = ofLe (leBytes 2 v) := rfl
  rw [h, ofLe_leBytes]
  exact Nat.mod_eq_of_lt hv

theorem retWrites_retHeader (v : Nat) (s : Device) : RetWrites s (retHeader v s) (runAt 0 (retHeadBytes s.trust.lifecycle v)) :=
  retWrites_retWrite ..

/-- An area is marked valid in a header that reads clean. -/
theorem retWrites_retMark {s : Device} (k : Nat) (h : cleanRun s 6 0 0 64) :
    RetWrites s (retMark k true s) (runAt 0 (retHeadBytes s.trust.lifecycle (validOf (retBytes s 0 64) ||| 2 ^ k))) := by
  have he : retMark k true s = retHeader (validOf (retBytes s 0 64) ||| 2 ^ k) s := by
    rw [retMark, retValid_of_clean h]
    rfl
  rw [he]
  exact retWrites_retHeader ..

/-- Where every byte of the header was written as `bs`, it reads clean and as written. -/
theorem RetWrites.header {s d : Device} {f : Nat → Option Byte} (h : RetWrites s d f) (hd : (arrayAt s 6 0).dec = []) {bs : List Byte}
    (hl : bs.length = 64) (hf : ∀ k < 64, f k = bs[k]?) : cleanRun d 6 0 0 64 ∧ retBytes d 0 64 = bs := by
  have hr : ∀ k (hk : k < bs.length), (arrayAt d 6 0).read (0 + k) = ⟨bs[k], 0, .clean⟩ := fun k hk => by
    rw [h.read hd, Nat.zero_add, hf k (by omega), List.getElem?_eq_getElem hk]
    rfl
  refine ⟨fun k hk => ?_, ?_⟩
  · rw [hr k (by omega)]; rfl
  · refine List.ext_getElem (by simp [retBytes, hl]) fun k hk hk' => ?_
    simp only [retBytes, List.getElem_map, List.getElem_range]
    exact congrArg ByteRead.data (hr k hk')

/-- Where the header is not written, it reads as before. -/
theorem RetWrites.header_kept {s d : Device} {f : Nat → Option Byte} (h : RetWrites s d f) (hd : (arrayAt s 6 0).dec = [])
    (hf : ∀ k < 64, f k = none) (hc : cleanRun s 6 0 0 64) : cleanRun d 6 0 0 64 ∧ retBytes d 0 64 = retBytes s 0 64 := by
  have hr : ∀ k < 64, (arrayAt d 6 0).read (0 + k) = (arrayAt s 6 0).read (0 + k) := fun k hk => by
    rw [h.read hd, Nat.zero_add, hf k hk]
    rfl
  refine ⟨fun k hk => by rw [hr k hk]; exact hc k hk, ?_⟩
  exact List.map_congr_left fun k hk => by rw [hr k (List.mem_range.1 hk)]

/-- The 64 bytes of the almanac state that a reset saves, its tail being `t` (R519). -/
def almStateBytes (s : Device) (t : List AlmRec) : List Byte :=
  leBytes 8 s.alm.next ++ leBytes 8 s.alm.chain ++ leBytes 8 s.alm.epoch ++ leBytes 4 s.policy.floor.toNat
    ++ leBytes 8 ((t.head?.map (·.seq)).getD s.alm.next) ++ leBytes 2 t.length ++ List.replicate 26 0

/-- The copy of R519, where no record is open and the header reads clean. -/
theorem retWrites_retAlmanac {s : Device} (ho : s.alm.opened = none) (hd : (arrayAt s 6 0).dec = []) (hc : cleanRun s 6 0 0 64) :
    RetWrites s (retAlmanac s) fun j =>
      (runAt 0 (retHeadBytes s.trust.lifecycle (validOf (retBytes s 0 64) ||| 6)) j).or
      ((runAt 0x80 (almStateBytes s (almTail s)) j).or (runAt 0x4000 ((almTail s).flatMap AlmRec.bytes) j)) := by
  have he : retAlmanac s = retMark 2 true (retMark 1 true (retWrite 0x4000 ((almTail s).flatMap AlmRec.bytes)
      (retWrite 0x80 (almStateBytes s (almTail s)) s))) := by
    rw [retAlmanac, closeOpen, ho]
    rfl
  have hw := (retWrites_retWrite 0x80 (almStateBytes s (almTail s)) s).trans (retWrites_retWrite 0x4000 ((almTail s).flatMap AlmRec.bytes) _)
  obtain ⟨hc1, hb1⟩ := hw.header_kept hd (fun k hk => by
    rw [runAt_eq_none.2 (.inl (by omega)), runAt_eq_none.2 (.inl (by omega))]; rfl) hc
  have h1 := retWrites_retMark 1 hc1
  rw [hb1] at h1
  obtain ⟨hc2, hb2⟩ := h1.header (hw.dec.trans hd) (length_retHeadBytes ..) fun k _ => by rw [runAt, if_pos (Nat.zero_le k), Nat.sub_zero]
  have h2 := retWrites_retMark 2 hc2
  rw [hb2, validOf_retHeadBytes _ (Nat.or_lt_two_pow (validOf_lt _) (by decide)), Nat.or_assoc, h1.trust, hw.trust] at h2
  rw [he]
  refine ((hw.trans h1).trans h2).congr fun j => ?_
  rw [runAt_or_hidden (by simp), ← runAt_or_comm (off := 0x80) (by simp [almStateBytes])]
  rfl

end Sys2Proof.Machine
end

section
namespace Sys2Proof.Machine
open Sys2Proof

/-! ## Power-on reset and device reset (R544 to R547, R576, R603, R604) -/

/-- What a power-on reset leaves of `x`, with these arrays (R603). -/
def afterPor (x : Device) (arrays : Sparse Coded) : Device := { x with
  trl := .reset, own := .reset, gpio := .empty, msix := .reset, beds := .empty, rakes := [], coreIo := .empty, shells := .empty, cores := .empty
  mem := { Mem.reset with lines := x.mem.lines, lostSegs := x.mem.lostSegs, remnants := x.mem.remnants ++
    (((validRegions x).filter fun e => e.2.level ≠ 0 && e.2.size ≠ 0).flatMap fun e =>
      (e.2.base, e.2.size) :: if e.2.level = 2 then [(e.2.metaBase, e.2.metaSize)] else []) ++ if x.mem.rtReady then [(x.mem.rtBase, 2 * 2 ^ 20)] else [] }
  cxl := .reset, d2d := .reset, time := .reset, policy := .reset, alm := .reset, mgmt := .reset, ports := .reset, start := .reset, answer := none
  bist := { x.bist with soft := [], run := none }, flt := { Faults.reset with lastFault := x.flt.lastFault }
  trust := { Trust.reset with lifecycle := x.trust.lifecycle, ownerBlk := x.trust.ownerBlk, ownerInv := x.trust.ownerInv
                              slot1 := x.trust.slot1, draws := x.trust.draws }
  cfg := { Cfg.reset with others := x.cfg.others, mode := x.cfg.mode }
  board := { x.board with smbus := none }
  dbg := { x.dbg with request := none, freezeCfg := .empty, mgmtCtl := if x.trust.lifecycle = .deployed then 0 else 4 }
  arrays }

theorem memReset_eq (x : Device) (a : Sparse Coded) : memReset x = (afterPor x a).mem := by
  exact congrArg (fun r => { Mem.reset with lines := x.mem.lines, remnants := r, lostSegs := x.mem.lostSegs })
    (List.append_assoc x.mem.remnants _ _).symm

theorem endDebug_of_none {x : Device} (h : x.dbg.session = none) (r : Bool) : endDebug r x = x := by
  rw [endDebug, h]

/-- Without a debug session a power-on reset leaves exactly that. -/
theorem porCommon_eq {x : Device} (h : x.dbg.session = none) : porCommon x = afterPor x x.arrays := by
  have hm := memReset_eq x x.arrays
  simp only [porCommon, endDebug_of_none h, resetCommon, hm]
  simp only [afterPor, h]
  rfl

theorem get_foldl_set_zipIdx (xs : List (Fin 5)) (k : Nat) (m : Sparse Nat) (n : Nat) :
    ((xs.zipIdx k).foldl (fun m x => m.set 0 x.2 x.1.val) m).get 0 n =
      if k ≤ n ∧ n < k + xs.length then (xs.getD (n - k) 0).val else m.get 0 n := by
  induction xs generalizing k m with
  | nil =>
    rw [if_neg (by rw [List.length_nil]; omega)]
    rfl
  | cons x xs ih =>
    rw [List.zipIdx_cons, List.foldl_cons, ih, Sparse.get_set]
    rcases Nat.lt_trichotomy n k with h | rfl | h
    · rw [if_neg (by omega), if_neg (by omega), if_neg (by omega)]
    · rw [if_neg (by omega), if_pos rfl, if_pos (by rw [List.length_cons]; omega), Nat.sub_self, List.getD_cons_zero]
    · have e : n - k = n - (k + 1) + 1 := by omega
      have hc : k + 1 ≤ n ∧ n < k + 1 + xs.length ↔ k ≤ n ∧ n < k + (x :: xs).length := by rw [List.length_cons]; omega
      simp only [hc, e, List.getD_cons_succ, if_neg (Nat.ne_of_gt h)]

/-- The reference inputs as the reset samples them (R360). -/
theorem xrefOf_get {xs : List (Fin 5)} {n : Nat} (h : n < xs.length) : (xrefOf xs).get 0 n = (xs.getD n 0).val := by
  rw [xrefOf, get_foldl_set_zipIdx, if_pos (by omega), Nat.sub_zero]

/-! ### Commands -/

theorem completes_unchanged {i : Instr} {s : State} {f : Device → Device} (he : exec i s = .next (onDevice f s)) (h : f s.dev = s.dev) :
    Completes i s fun d => d = s.dev :=
  .of_onDevice he (by rw [h]; exact ⟨rfl, rfl, rfl, rfl⟩) h

theorem exec_porN {mode : BitVec 3} {xs : List (Fin 5)} (h : xs.length = 32) (s : State) :
    exec (.porN mode xs) s = .next (onDevice (porRow mode xs) s) := by
  have he : exec (.porN mode xs) s = execPorN mode xs s := rfl
  rw [he, execPorN, if_pos (by simpa using h)]

theorem exec_sysResetN {xs : List (Fin 5)} (h : xs.length = 32) (s : State) :
    exec (.sysResetN xs) s = .next (onDevice (sysReset xs) s) := by
  have he : exec (.sysResetN xs) s = execSysResetN xs s := rfl
  rw [he, execSysResetN, if_pos (by simpa using h)]

theorem porRow_eq {mode : BitVec 3} {xs : List (Fin 5)} {x : Device} (hs : x.dbg.session = none) (h4 : x.flt.fsafe ≠ .c4) :
    porRow mode xs x = { afterPor x (clearAtPor (afterPor x x.arrays)).arrays with
      cfg := { (afterPor x x.arrays).cfg with mode }, ports := { Ports.reset with xref := xrefOf xs }
      dbg := { (afterPor x x.arrays).dbg with vccaux := true } } := by
  have hr := (retWrites_clearAtPor (afterPor x x.arrays)).rest
  rw [porRow, if_neg h4, porCommon_eq hs]
  generalize (clearAtPor (afterPor x x.arrays)).arrays = a at hr ⊢
  rw [hr]
  rfl

/-! ### Device reset -/

/-- Every item of the safe state is complete (R541, R544). -/
theorem safeEntered_iff (x : Device) : safeEntered x = true ↔
    (∀ l ∈ x.flt.dieSafe, levelNo x.flt.fsafe ≤ levelNo l)
    ∧ (∀ n < 384, (bedAt x n).st = .fallow ∨ (bedAt x n).st = .unconfigured) ∧ (∀ c < 128, (coreAt x c).st = .idle ∨ (coreAt x c).st = .fault) := by
  simp only [safeEntered, coresQuiet, outOfService, Bool.and_eq_true, List.all_eq_true, List.mem_range, decide_eq_true_eq,
    Bool.or_eq_true, and_assoc]

theorem foldl_eq_self {α β : Type} {f : β → α → β} {b : β} (h : ∀ a, f b a = b) (l : List α) : l.foldl f b = b := by
  induction l with
  | nil => rfl
  | cons a l ih => rw [List.foldl_cons, h, ih]

theorem endSessions_of_none {x : Device} (h : ∀ y ∈ x.mgmt.sessions, y = none) (action : Nat) (self : Bool) (p : Session → Bool) :
    endSessions action self p x = x := by
  have hk : ∀ k, x.mgmt.sessions.getD k none = none := fun k => by
    rw [List.getD_eq_getElem?_getD]
    cases hg : x.mgmt.sessions[k]? with
    | none => rfl
    | some y => exact h y (List.mem_of_getElem? hg)
  exact foldl_eq_self (fun k => by rw [hk, Option.any_none, if_neg Bool.false_ne_true]) _

/-- The unacknowledged records that no longer fit into the tail: the first, and how many (R519). -/
def lostOf (x : Device) : Option (Nat × Nat) :=
  let u := x.alm.recs.filter fun r => decide (x.alm.acked ≤ r.seq)
  if u.length ≤ 256 then none else some ((u.head?.map (·.seq)).getD 0, u.length - 256)

/-- Where nothing is open, all that precedes a device reset is the copy to the retention SRAM. -/
theorem beforeReset_eq {x : Device} (hs : x.dbg.session = none) (hy : ∀ y ∈ x.mgmt.sessions, y = none) (ho : x.alm.opened = none) :
    beforeReset x = retAlmanac (modStart (fun y => { y with lost := lostOf x }) x) := by
  have hn : (x.alm.recs.filter fun r => decide (x.alm.acked ≤ r.seq)).length - (almTail x).length
      = (x.alm.recs.filter fun r => decide (x.alm.acked ≤ r.seq)).length - 256 := by
    rw [almTail, List.length_drop]; omega
  have hc : closeOpen x = x := by rw [closeOpen, ho]
  simp only [beforeReset, endSessions_of_none hy, endDebug_of_none hs, hc, hn, Nat.sub_eq_zero_iff_le]
  rfl

/-- What a device reset leaves of `x`, given what it keeps: arrays, shells and cores, the references and SYS_RESET_N's level (R545, R546). -/
def afterReset (x : Device) (arrays : Sparse Coded) (shells : Sparse Shell) (cores : Sparse Core) (xref : Sparse Nat) (low : Bool) : Device :=
  { afterPor x arrays with
    time := { Time.reset with ticks := x.time.ticks, began := devNs x, freqClass := x.time.freqClass, failed := x.time.failed, ppsIn := x.time.ppsIn }
    flt := { Faults.reset with pulse := x.flt.pulse, lastFault := x.flt.lastFault }
    policy := { Policy.reset with floor := x.policy.floor }
    alm := { Almanac.reset with lost := x.alm.lost, sealed := x.alm.exhausted, exhausted := x.alm.exhausted }
    mgmt := { Mgmt.reset with tmo := x.mgmt.tmo, fpPoll := x.mgmt.fpPoll, authFail := x.mgmt.authFail, replay := x.mgmt.replay, near := x.mgmt.near }
    shells, cores, ports := { Ports.reset with xref }
    trust := { (afterPor x arrays).trust with trimLockAll := x.trust.trimLockAll }
    cfg := { (afterPor x arrays).cfg with ctl := x.cfg.ctl }
    board := x.board, dbg := { x.dbg with request := none }
    start := { Startup.reset with por := false, acks := x.start.acks, rails := x.start.rails, moved := x.start.moved, sysLow := low, lost := lostOf x } }

/-- What a device reset keeps of a shell: its trim (R546). -/
def shellKept (x : Shell) : Shell := { Shell.reset with trim := x.trim, trimLock := x.trimLock }

/-- The device with the copy of R519 made, as a device reset finds it. -/
def saved (x : Device) : Device := retAlmanac (modStart (fun y => { y with lost := lostOf x }) x)

theorem retWrites_saved {x : Device} (ho : x.alm.opened = none) (hd : (arrayAt x 6 0).dec = []) (hc : cleanRun x 6 0 0 64) :
    RetWrites (modStart (fun y => { y with lost := lostOf x }) x) (saved x) fun j =>
      (runAt 0 (retHeadBytes x.trust.lifecycle (validOf (retBytes x 0 64) ||| 6)) j).or
      ((runAt 0x80 (almStateBytes x (almTail x)) j).or (runAt 0x4000 ((almTail x).flatMap AlmRec.bytes) j)) :=
  retWrites_retAlmanac ho hd hc

/-- Where nothing is open, what a device reset leaves. -/
theorem deviceReset_eq {x : Device} (hs : x.dbg.session = none) (hy : ∀ y ∈ x.mgmt.sessions, y = none) (ho : x.alm.opened = none)
    (hd : (arrayAt x 6 0).dec = []) (hc : cleanRun x 6 0 0 64) :
    deviceReset x = afterReset x (saved x).arrays (x.shells.mapCells Shell.reset fun _ => shellKept)
      (x.cores.mapCells Core.reset fun _ => coreAfter) x.ports.xref x.start.sysLow := by
  have hr := (retWrites_saved ho hd hc).rest
  have hm := memReset_eq (modStart (fun y => { y with lost := lostOf x }) x)
  have hb : beforeReset x = saved x := beforeReset_eq hs hy ho
  rw [deviceReset, hb]
  generalize (saved x).arrays = a at hr ⊢
  rw [hr]
  have hm : memReset { modStart (fun y => { y with lost := lostOf x }) x with arrays := a } = (afterPor x a).mem := memReset_eq _ a
  simp only [resetCommon, hm]
  simp only [afterReset, hs]
  rfl

end Sys2Proof.Machine
end

section
namespace Sys2Proof.Machine
open Sys2Proof

/-- The supplies of the island as given, after everything that a power-on reset clears is cleared. -/
theorem vccauxOff_eq {x : Device} (hs : x.dbg.session = none) (stby probe : Bool) :
    vccauxOff stby probe x = { afterPor x x.arrays with
      dbg := { (afterPor x x.arrays).dbg with vccaux := false, vstby := stby, vprobe := probe } } := by
  rw [vccauxOff, porCommon_eq hs]
  cases h : stby || probe with
  | true => rw [if_pos rfl]
  | false =>
    obtain ⟨rfl, rfl⟩ := Bool.or_eq_false_iff.1 h
    simp only [islandOff, afterPor, hs, Bool.false_eq_true, if_false]

theorem islandReset_of_dark {x : Device} {aux stby probe : Bool} (h1 : x.dbg.vccaux = false) (h2 : x.dbg.vstby = false)
    (h3 : x.dbg.vprobe = false) (h : (aux || stby || probe) = true) :
    islandReset aux stby probe x =
      { x with
        dbg := { Dbg.reset with vccaux := false, vstby := stby, vprobe := probe, freezeCfg := x.dbg.freezeCfg, mgmtCtl := x.dbg.mgmtCtl }
        flt := { x.flt with lastFault := none }, arrays := (setArray 6 0 (arrayAt x 6 0).fill x).arrays } := by
  rw [islandReset, if_neg (by simp [islandOn, h1, h2, h3, h])]
  rfl

theorem islandReset_of_supplied {x : Device} {aux stby probe : Bool}
    (h : (x.dbg.vccaux || x.dbg.vstby || x.dbg.vprobe || !(aux || stby || probe)) = true) : islandReset aux stby probe x = x := by
  rw [islandReset, if_pos (by simpa [islandOn] using h)]

theorem islandLoss_of_on {x : Device} (hs : x.dbg.session = none) (h : x.dbg.vccaux = true) :
    islandLoss x = { afterPor x x.arrays with
      dbg := { (afterPor x x.arrays).dbg with vccaux := false, vstby := false, vprobe := false } } := by
  rw [islandLoss, if_pos h, porCommon_eq hs]
  simp only [islandOff, afterPor, hs]

theorem islandLoss_of_off {x : Device} (hs : x.dbg.session = none) (h : x.dbg.vccaux = false) :
    islandLoss x = { x with dbg := { x.dbg with request := none, vccaux := false, vstby := false, vprobe := false } } := by
  rw [islandLoss, if_neg (by simp [h])]
  simp only [islandOff, hs]

/-! ### Device reset: when it waits and when it takes effect -/

theorem sysReset_ignored {xs : List (Fin 5)} {x : Device} (h : x.flt.fsafe = .c4 ∨ x.dbg.vccaux = false) : sysReset xs x = x := by
  rw [sysReset, if_pos (by simpa using h)]

/-- SYS_RESET_N as it goes low, before the reset begins. -/
def sysLowered (xs : List (Fin 5)) (x : Device) : Device :=
  { x with start := { x.start with sysLow := true }, ports := { x.ports with xref := xrefOf xs } }

theorem sysReset_acts {xs : List (Fin 5)} {x : Device} (h4 : x.flt.fsafe ≠ .c4) (hv : x.dbg.vccaux = true) :
    sysReset xs x = requestReset (sysLowered xs x) := by
  rw [sysReset, if_neg (by simp [h4, hv])]
  rfl

theorem requestReset_waits {x : Device} (hf : x.flt.fsafe ≠ .none) (he : safeEntered x = false) :
    requestReset x = { x with start := { x.start with due := true } } := by
  rw [requestReset, if_pos (by simp [hf, he])]
  rfl

theorem requestReset_acts {x : Device} (h : x.flt.fsafe = .none ∨ safeEntered x = true) : requestReset x = deviceReset x := by
  rw [requestReset, if_neg]
  rcases h with h | h <;> simp [h]

theorem autoReset_due {x : Device} {t : Nat} (ht : x.flt.fatalAt = some t) (hm : x.mgmt.dev = .fatal) (hf : x.flt.fsafe = .c3)
    (ha : x.flt.autoReset ≠ 0) (hd : t + x.flt.autoReset.toNat * 10 ^ 9 ≤ devNs x) : autoReset x = requestReset x := by
  rw [autoReset, if_pos]
  simp only [autoResetDue, ht, hm, hf, ha, hd, decide_true, ne_eq, not_false_eq_true, Bool.and_self]

theorem autoReset_early {x : Device} (h : ∀ t, x.flt.fatalAt = some t → x.flt.autoReset = 0 ∨ devNs x < t + x.flt.autoReset.toNat * 10 ^ 9) :
    autoReset x = x := by
  rw [autoReset, if_neg]
  cases ht : x.flt.fatalAt with
  | none => simp [autoResetDue, ht]
  | some t =>
    rcases h t ht with h | h
    · simp [autoResetDue, ht, h]
    · simp only [autoResetDue, ht, decide_eq_false (Nat.not_le.2 h), Bool.and_false, Bool.false_eq_true, not_false_eq_true]

/-- Where a device reset takes effect at once, what it leaves, entry by entry (R545, R546). -/
structure Restarted (x d : Device) (xref : Sparse Nat) (low : Bool) : Prop where
  rest : d = afterReset x d.arrays d.shells d.cores xref low
  shells : ∀ id, shellAt d id = shellKept (shellAt x id)
  cores : ∀ c, coreAt d c = coreAfter (coreAt x c)
  sram : SramWritten x.arrays d.arrays fun j =>
    (runAt 0 (retHeadBytes x.trust.lifecycle (validOf (retBytes x 0 64) ||| 6)) j).or
    ((runAt 0x80 (almStateBytes x (almTail x)) j).or (runAt 0x4000 ((almTail x).flatMap AlmRec.bytes) j))

theorem restarted_deviceReset {x : Device} (hs : x.dbg.session = none) (hy : ∀ y ∈ x.mgmt.sessions, y = none) (ho : x.alm.opened = none)
    (hd : (arrayAt x 6 0).dec = []) (hc : cleanRun x 6 0 0 64) (hsh : x.shells.wf Shell.reset = true) (hco : x.cores.wf Core.reset = true) :
    Restarted x (deviceReset x) x.ports.xref x.start.sysLow := by
  have hw : SramWritten x.arrays (saved x).arrays _ := (retWrites_saved ho hd hc).sram
  rw [deviceReset_eq hs hy ho hd hc]
  generalize (saved x).arrays = a at hw ⊢
  exact {
    rest := rfl
    shells := fun id => Sparse.get_mapCells hsh rfl
    cores := fun c => Sparse.get_mapCells hco rfl
    sram := hw }

theorem sameFuses_restarted {x d : Device} {xref : Sparse Nat} {low : Bool} (h : Restarted x d xref low) : SameFuses x d := by
  rw [h.rest]
  exact ⟨rfl, rfl, rfl, rfl⟩

end Sys2Proof.Machine
end

section
namespace Sys2Proof.Machine
open Sys2Proof

/-! ### The commands -/

section commands
variable {s : State} {xs : List (Fin 5)}

/-- POR_N, while C4 does not hold. -/
theorem completes_porN {mode : BitVec 3} (hs : s.dev.dbg.session = none) (hl : xs.length = 32) (h4 : s.dev.flt.fsafe ≠ .c4) :
    Completes (.porN mode xs) s fun d =>
      (d = { afterPor s.dev d.arrays with
        cfg := { (afterPor s.dev d.arrays).cfg with mode }, ports := { Ports.reset with xref := d.ports.xref }
        dbg := { (afterPor s.dev d.arrays).dbg with vccaux := true } }
      ∧ ∀ n < 32, d.ports.xref.get 0 n = (xs.getD n 0).val)
      ∧ SramWritten s.dev.arrays d.arrays fun j => (runAt 0x98 [0, 0, 0, 0] j).or (runAt 0x130 (List.replicate 720 0) j) := by
  have hw : SramWritten s.dev.arrays _ _ := (retWrites_clearAtPor (afterPor s.dev s.dev.arrays)).sram
  refine .of_onDevice (exec_porN hl s) ?_ ?_ <;> rw [porRow_eq hs h4] <;>
    generalize (clearAtPor (afterPor s.dev s.dev.arrays)).arrays = a at hw ⊢
  · exact ⟨rfl, rfl, rfl, rfl⟩
  · exact ⟨⟨rfl, fun n hn => xrefOf_get (hl ▸ hn)⟩, hw⟩

/-- The reset of the island, where it had no supply. -/
theorem completes_islandReset {aux stby probe : Bool} (h1 : s.dev.dbg.vccaux = false) (h2 : s.dev.dbg.vstby = false)
    (h3 : s.dev.dbg.vprobe = false) (h : (aux || stby || probe) = true) : Completes (.islandReset aux stby probe) s fun d =>
      d = { s.dev with
        dbg := { Dbg.reset with vccaux := false, vstby := stby, vprobe := probe, freezeCfg := s.dev.dbg.freezeCfg, mgmtCtl := s.dev.dbg.mgmtCtl }
        flt := { s.dev.flt with lastFault := none }, arrays := d.arrays }
      ∧ ((arrayAt s.dev 6 0).dec = [] → ∀ j, (arrayAt d 6 0).read j = ⟨0, 0, .clean⟩)
      ∧ ∀ k, k ≠ arrayKey 6 0 → d.arrays.get Coded.filled k = s.dev.arrays.get Coded.filled k := by
  refine .of_onDevice rfl ?_ ?_ <;> rw [islandReset_of_dark h1 h2 h3 h]
  · exact ⟨rfl, rfl, rfl, rfl⟩
  · refine ⟨rfl, fun hd j => ?_, fun k hk => Sparse.get_set_ne _ _ _ hk⟩
    have hf : (arrayAt (setArray 6 0 (arrayAt s.dev 6 0).fill s.dev) 6 0).read j = ⟨0, 0, .clean⟩ := by
      rw [arrayAt_setArray, Coded.read_fill hd]
    exact hf

/-- Nothing is open at the device reset, and the header of the retention SRAM reads clean: no session of the command interface, no open
record of the almanac. -/
structure ResetCalm (x : Device) : Prop where
  debug : x.dbg.session = none
  sessions : ∀ y ∈ x.mgmt.sessions, y = none
  closed : x.alm.opened = none
  sound : (arrayAt x 6 0).dec = []
  clean : cleanRun x 6 0 0 64
  shells : x.shells.wf Shell.reset = true
  cores : x.cores.wf Core.reset = true

theorem ResetCalm.lowered {x : Device} (h : ResetCalm x) (xs : List (Fin 5)) : ResetCalm (sysLowered xs x) :=
  ⟨h.debug, h.sessions, h.closed, h.sound, h.clean, h.shells, h.cores⟩

theorem ResetCalm.restarted {x : Device} (h : ResetCalm x) : Restarted x (deviceReset x) x.ports.xref x.start.sysLow :=
  restarted_deviceReset h.debug h.sessions h.closed h.sound h.clean h.shells h.cores

/-- A device reset that SYS_RESET_N begins is one of the device with that input low. -/
theorem ResetCalm.restarted_lowered {x : Device} (h : ResetCalm x) (xs : List (Fin 5)) :
    Restarted x (deviceReset (sysLowered xs x)) (xrefOf xs) true := by
  have hr := (h.lowered xs).restarted
  generalize deviceReset (sysLowered xs x) = d at hr ⊢
  exact ⟨hr.rest, hr.shells, hr.cores, hr.sram⟩

theorem completes_sysResetN_waits (hl : xs.length = 32) (hv : s.dev.dbg.vccaux = true) (h3 : s.dev.flt.fsafe = .c3)
    (he : safeEntered s.dev = false) : Completes (.sysResetN xs) s fun d =>
      d = { s.dev with start := { s.dev.start with sysLow := true, due := true }, ports := { s.dev.ports with xref := d.ports.xref } }
      ∧ ∀ n < 32, d.ports.xref.get 0 n = (xs.getD n 0).val := by
  have hf : (sysLowered xs s.dev).flt.fsafe ≠ .none := by rw [sysLowered]; simp [h3]
  refine .of_onDevice (exec_sysResetN hl s) ?_ ?_ <;>
    rw [sysReset_acts (by simp [h3]) hv, requestReset_waits hf he]
  · exact ⟨rfl, rfl, rfl, rfl⟩
  · exact ⟨rfl, fun n hn => xrefOf_get (hl ▸ hn)⟩

theorem completes_sysResetN_acts (hl : xs.length = 32) (hv : s.dev.dbg.vccaux = true)
    (hf : s.dev.flt.fsafe = .none ∨ s.dev.flt.fsafe = .c3 ∧ safeEntered s.dev = true) (hc : ResetCalm s.dev) :
    Completes (.sysResetN xs) s fun d =>
      Restarted s.dev d d.ports.xref true ∧ ∀ n < 32, d.ports.xref.get 0 n = (xs.getD n 0).val := by
  have h4 : s.dev.flt.fsafe ≠ .c4 := by rcases hf with h | ⟨h, -⟩ <;> simp [h]
  have he : (sysLowered xs s.dev).flt.fsafe = .none ∨ safeEntered (sysLowered xs s.dev) = true := hf.imp_right And.right
  have hr := hc.restarted_lowered xs
  have hx : (deviceReset (sysLowered xs s.dev)).ports.xref = xrefOf xs := congrArg (fun d : Device => d.ports.xref) hr.rest
  refine .of_onDevice (exec_sysResetN hl s) ?_ ?_ <;> rw [sysReset_acts h4 hv, requestReset_acts he]
  · exact sameFuses_restarted hr
  · rw [hx]
    exact ⟨hr, fun n hn => xrefOf_get (hl ▸ hn)⟩

end commands

/-- Settles O50: each command by what it leaves (`completes_porN`, `vccauxOff_eq`, `completes_islandReset`, `islandLoss_of_on`,
`completes_sysResetN_acts`, `autoReset_due`), the retention SRAM by `SramWritten`. -/
theorem powerAndResets : Obligations.PowerAndResets := by
  unfold Obligations.PowerAndResets
  intro s hs
  refine ⟨fun mode xs hl => ⟨fun h4 => completes_unchanged (exec_porN hl s) (if_pos h4), fun h4 => ?_⟩,
    fun stby probe => ⟨?_, fun aux => ⟨completes_islandReset, fun h => completes_unchanged rfl (islandReset_of_supplied h)⟩⟩,
    fun hv => ?_, fun hv => ?_, .of_onDevice rfl ⟨rfl, rfl, rfl, rfl⟩ rfl, ?_⟩
  · obtain ⟨d, hd, ⟨hrest, hxref⟩, hw⟩ := completes_porN (mode := mode) hs hl h4
    refine ⟨d, hd, hrest, hxref, fun hdec j => (hw.read hdec j).trans ?_, hw.others⟩
    split <;> next h => exact congrArg (fun o : Option Byte => o.elim _ _) h
  · refine .of_onDevice rfl ?_ ?_ <;> rw [vccauxOff_eq hs]
    · exact ⟨rfl, rfl, rfl, rfl⟩
    · exact ⟨rfl, rfl⟩
  · refine .of_onDevice rfl ?_ ?_ <;> rw [islandLoss_of_on hs hv]
    · exact ⟨rfl, rfl, rfl, rfl⟩
    · exact ⟨rfl, rfl⟩
  · refine .of_onDevice rfl ?_ ?_ <;> rw [islandLoss_of_off hs hv]
    exact ⟨rfl, rfl, rfl, rfl⟩
  · intro complete calm next hsh hco
    have hcomplete : complete ↔ safeEntered s.dev = true := (safeEntered_iff s.dev).symm
    have hcalm (h : calm) : ResetCalm s.dev := by
      obtain ⟨hy, ho, hd, hc⟩ := h
      exact ⟨hs, hy, ho, hd, hc, hsh, hco⟩
    have hnext {d : Device} {xref : Sparse Nat} {low : Bool} (h : Restarted s.dev d xref low) : next d xref low := by
      refine ⟨h.rest, h.shells, fun c => ?_, fun hd j => (h.sram.read hd j).trans ?_, h.sram.others⟩
      · rw [h.cores]
        exact ⟨rfl, rfl, rfl, rfl⟩
      · have hb : retBytes s.dev 0 64 = (List.range 64).map fun k => ((arrayAt s.dev 6 0).read k).data := by simp only [retBytes, Nat.zero_add]
        rw [hb]
        split <;> next h => exact congrArg (fun o : Option Byte => o.elim _ _) h
    refine ⟨fun xs hl => ⟨fun h => ?_, fun hv h3 hn => ?_, fun hv hf hc => ?_⟩, fun t ht hm h3 ha hd => ⟨fun hn hc => ?_, fun hn => ?_⟩,
      fun h => completes_unchanged rfl (autoReset_early h)⟩
    · exact completes_unchanged (exec_sysResetN hl s) (sysReset_ignored h)
    · exact completes_sysResetN_waits hl hv h3 (by simpa using mt hcomplete.2 hn)
    · obtain ⟨d, hd, hr, hx⟩ := completes_sysResetN_acts hl hv (hf.imp_right (And.imp_right hcomplete.1)) (hcalm hc)
      exact ⟨d, hd, hnext hr, hx⟩
    · have hr := (hcalm hc).restarted
      have he := autoReset_due ht hm h3 ha hd
      refine .of_onDevice rfl ?_ ?_ <;> rw [he, requestReset_acts (.inr (hcomplete.1 hn))]
      · exact sameFuses_restarted hr
      · exact hnext hr
    · refine .of_onDevice rfl ?_ ?_ <;> rw [autoReset_due ht hm h3 ha hd, requestReset_waits (by simp [h3]) (by simpa using mt hcomplete.2 hn)]
      exact ⟨rfl, rfl, rfl, rfl⟩

end Sys2Proof.Machine
end

section
namespace Sys2Proof.Machine
open Sys2Proof

/-! ## Start-up training with a channel that is marked failed -/

/-- Power is there, links are trained, the fill is complete, so that the PHY of channel 0 starts (R293), and the management cores run. -/
def phyStarting : Device :=
  setShell (.phy 0) { Shell.reset with st := .starting, en := true } { Device.reset with
    mgmt := { Mgmt.reset with up := true }, start := { Startup.reset with checker := true, fill := true, links := true } }

/-- The same device after a SHELL_MACRO_FAULT of that PHY, which marks its channel failed (R269). -/
def failedChannelStart : Device := macroFaultRow (.phy 0) phyStarting

theorem waiting_failedChannelStart : failedChannelStart.trl.waiting = [] := by decide +kernel

/-- Training finds one rank at channel 0, and nothing at the others. -/
def oneChannelFound : List ChanTrain := .fitted false 0 0 0 :: List.replicate 23 .absent

/-- No channel of it counts as fitted, so that no window is set (R269, R273). -/
theorem windows_failedChannelStart :
    (fuseHold failedChannelStart (trainingDone oneChannelFound failedChannelStart)).mem.windows = List.replicate 8 Window.off := by
  decide +kernel

/-- Refutes O51: its clause on training asks of each channel only that it is absent and writes nothing. A channel whose PHY's shell has had a
fault while it started is absent and failed; what training finds there is then not fitted (R269), and window 0 stays off where the clause
has it set. -/
theorem not_startUp : ¬ Obligations.StartUp := by
  unfold Obligations.StartUp
  intro h
  obtain ⟨-, -, -, -, -, -, -, htrain⟩ := h { State.reset with dev := failedChannelStart }
  obtain ⟨d, hd, -, -, -, -, -, -, hfitted, -⟩ := htrain oneChannelFound rfl (by decide +kernel) (by decide +kernel) (by decide +kernel)
    (by decide +kernel) (by decide +kernel) (by decide +kernel) (by decide +kernel) (by decide +kernel) (by decide +kernel)
    (fun w hw => absurd (waiting_failedChannelStart ▸ hw) List.not_mem_nil) (by decide)
  have hdev : d = fuseHold failedChannelStart (trainingDone oneChannelFound failedChannelStart) :=
    (congrArg State.dev (Host.Outcome.next.inj hd)).symm
  obtain ⟨hw, -⟩ := hfitted (by decide)
  rw [hdev, windows_failedChannelStart] at hw
  exact absurd (congrArg (fun l => (l.map Window.valid).headD false) hw) (by simp [Window.off])

end Sys2Proof.Machine
end

section
namespace Sys2Proof.Machine
open Sys2Proof

/-! ## Registers of a bed clock's shell (R94) -/

theorem csrWriteAt_refused {i : InitId} {plot o size v : Nat} {s : Device} {b : Blk} {blk r w m : Nat} (hb : blkOf o = some (b, blk))
    (hw : regWrite (blkWidth b) (o - blk) size v = some (some (r, w, m))) (he : blkWrite i b blk r w m s = none) :
    csrWriteAt i plot o size v s = (s, rcDenied) := by
  simp only [csrWriteAt, hb, hw, he]
  split
  · rfl
  · split <;> rfl

/-- Only a hub management core writes the shell of a bed clock (R94). -/
theorem bedWrite_shell_of_not_mgmt {i : InitId} (hi : isMgmtCore i = false) (n v : Nat) {off : Nat} (h1 : 0x100 ≤ off) (h2 : off < 0x114)
    (s : Device) : bedWrite i n off v s = none := by
  simp only [bedWrite, hi]
  simp only [show off ≠ 8 by omega, show off ≠ 0xC by omega, show off ≠ 0x18 by omega, h1, h2, and_self, if_true, if_false]
  rfl

theorem blkWrite_bed (i : InitId) (n blk off v m : Nat) (s : Device) : blkWrite i (.bed n) blk off v m s = bedWrite i n off v s := rfl

theorem blkOf_bed (b : BedId) {off : Nat} (h : off < 0x1000) : blkOf (bedOff b.val + off) = some (.bed b.val, bedOff b.val) := by
  have hb := b.isLt
  have hd : b.val / 48 < 8 := by omega
  have hm : b.val % 48 < 48 := Nat.mod_lt _ (by decide)
  have hdm : b.val / 48 * 48 + b.val % 48 = b.val := by omega
  unfold bedOff dieOff blkOf
  generalize b.val / 48 = d at *
  generalize b.val % 48 = m at *
  rw [if_neg (by omega), if_neg (by omega), if_neg (by omega), if_neg (by omega), if_neg (by omega), if_neg (by omega), if_pos (by omega)]
  dsimp only
  rw [if_pos (by omega)]
  simp only [Option.some.injEq, Prod.mk.injEq, Blk.bed.injEq]
  constructor <;> omega

theorem regWrite_genCal (n v : Nat) : regWrite (blkWidth (.bed n)) 0x104 4 v = some (some (0x104, v % 2 ^ 32, 2 ^ 32 - 1)) := rfl

theorem shellRow_of_shown {id : ShellId} (h : shellHidden id = false) (i : InitId) (r v : Nat) (s : Device) :
    shellRow i id r v s = regRow i (shellOff id + r) 4 v s := by
  simp only [shellRow, h, Bool.not_false, if_true]

theorem csrAccWrite_denied {x : CsrAcc} {s : Device}
    (h : csrWriteAt x.init (stampPlot s x.init) (x.addr.toNat - csrBase) x.size x.data.toNat s = (s, rcDenied)) :
    csrAccWrite x s = { noteAccess x.init x.addr.toNat s with answer := some (rcDenied, 0) } := by
  rw [csrAccWrite_of h]
  rfl

theorem regRow_denied {i : InitId} {o size : Nat} {s : Device} (ho : o < 2 ^ 28)
    (h : ∀ v, csrWriteAt i (stampPlot s i) o size v s = (s, rcDenied)) (v : Nat) :
    regRow i o size v s = { noteAccess i (BitVec.ofNat 48 (csrBase + o)).toNat s with answer := some (rcDenied, 0) } := by
  have hw (w : Nat) : csrWriteAt i (stampPlot s i) ((BitVec.ofNat 48 (csrBase + o)).toNat - csrBase) size w s = (s, rcDenied) := by
    rw [csrOffset ho, h]
  exact csrAccWrite_denied (hw _)

/-- CAL of a bed clock refuses every initiator but a hub management core, whichever plot owns the bed (R32, R94). -/
theorem shellRow_genCal_denied {i : InitId} (hi : isMgmtCore i = false) (b : BedId) (v : Nat) (s : Device) :
    shellRow i (.gen b) 4 v s = { noteAccess i (BitVec.ofNat 48 (csrBase + (bedOff b.val + 0x104))).toNat s with answer := some (rcDenied, 0) } := by
  have hlt : bedOff b.val + 0x104 < 2 ^ 28 := by
    have := b.isLt
    unfold bedOff dieOff
    omega
  have hrow : shellRow i (.gen b) 4 v s = regRow i (bedOff b.val + 0x104) 4 v s :=
    (shellRow_of_shown rfl i 4 v s).trans (congrArg (regRow i · 4 v s) (Nat.add_assoc ..))
  have hrefused (w : Nat) : csrWriteAt i (stampPlot s i) (bedOff b.val + 0x104) 4 w s = (s, rcDenied) :=
    csrWriteAt_refused (blkOf_bed b (by decide)) (by rw [Nat.add_sub_cancel_left]; exact regWrite_genCal ..)
      ((blkWrite_bed ..).trans (bedWrite_shell_of_not_mgmt hi _ _ (by decide) (by decide) s))
  rw [hrow, regRow_denied hlt hrefused]

theorem mgmtQuiet_reset : MgmtQuiet State.reset.dev := ⟨rfl, rfl, rfl⟩

/-- After reset plot 0 owns every bed, so that the ownership check lets the user logic of bed 0 reach the registers of its bed (R31). -/
theorem shellAccepts_reset (v : Nat) : ShellAccepts State.reset.dev (bedInit 0) (.gen 0) 4 v := by
  refine ⟨⟨rfl, ?_⟩, nofun⟩
  have hw (d : Device) : (blkWrite (bedInit 0) (.bed 0) (bedOff 0) 0x104 v (2 ^ 32 - 1) d).getD d = d := by
    have hn : blkWrite (bedInit 0) (.bed 0) (bedOff 0) 0x104 v (2 ^ 32 - 1) d = none :=
      (blkWrite_bed ..).trans (bedWrite_shell_of_not_mgmt (by decide) 0 v (by decide) (by decide) d)
    rw [hn]
    rfl
  exact (congrArg (almRefuses · State.reset.dev) (funext hw)).trans rfl

/-- Refutes O15: of a bed clock's shell it asks no more than that R31 lets the initiator reach the bed, and claims the answer OKAY. R94 has the
write refused to every initiator but a hub management core: after reset, the user logic of bed 0 starts a calibration of its own bed's
clock and is answered ACCESS_DENIED. -/
theorem not_shells : ¬ Obligations.Shells := by
  unfold Obligations.Shells
  intro h
  obtain ⟨hwrites, -⟩ := h
  obtain ⟨-, hcal⟩ := hwrites State.reset (bedInit 0) (.gen 0) mgmtQuiet_reset nofun
  obtain ⟨d, hd, hokay⟩ := hcal 1 false (shellAccepts_reset _) rfl nofun
  have hdev : d = fuseHold State.reset.dev (settle (shellRow (bedInit 0) (.gen 0) 4 (calStartWord 1 false) State.reset.dev)) :=
    (congrArg State.dev (Host.Outcome.next.inj hd)).symm
  have hdenied : d.answer = some (rcDenied, 0) := by
    rw [hdev, shellRow_genCal_denied (by decide), settle_of_quiet ⟨rfl, rfl, rfl⟩]
    rfl
  rw [hokay] at hdenied
  exact absurd hdenied (by decide)

end Sys2Proof.Machine
end

section
namespace Sys2Proof.Machine
open Sys2Proof

/-! ## Bytes of a run that reads clean (R7, R147) -/

theorem leBytes_ofLe (bs : List Byte) : leBytes bs.length (ofLe bs) = bs := by
  induction bs with
  | nil => rfl
  | cons b bs ih =>
    have hb := b.isLt
    have hd : (b.toNat + 256 * ofLe bs) / 256 = ofLe bs := by omega
    have hm : BitVec.ofNat 8 (b.toNat + 256 * ofLe bs) = b := by
      apply BitVec.eq_of_toNat_eq
      rw [BitVec.toNat_ofNat]
      omega
    rw [List.length_cons, ofLe, leBytes, hd, ih, hm]

section run
variable {s : Device} {cls idx off n : Nat}

theorem dataOf_readBytes : dataOf ((arrayAt s cls idx).readBytes off n) = leBytes n (numAt s cls idx off n) := by
  have h := leBytes_ofLe ((List.range n).map fun k => ((arrayAt s cls idx).read (off + k)).data)
  rw [List.length_map, List.length_range] at h
  rw [dataOf, Coded.readBytes_eq, List.map_map]
  exact h.symm

theorem ofLe_dataOf : ofLe (dataOf ((arrayAt s cls idx).readBytes off n)) = numAt s cls idx off n := by
  rw [dataOf, Coded.readBytes_eq, List.map_map]
  rfl

variable (h : cleanRun s cls idx off n)
include h

theorem cls_of_cleanRun : ∀ b ∈ (arrayAt s cls idx).readBytes off n, b.cls = .clean := by
  rw [Coded.readBytes_eq]
  intro b hb
  obtain ⟨k, hk, rfl⟩ := List.mem_map.1 hb
  exact h k (List.mem_range.1 hk)

theorem anyBad_of_cleanRun : anyBad ((arrayAt s cls idx).readBytes off n) = false :=
  List.any_eq_false.2 fun b hb => by simp [cls_of_cleanRun h b hb, SynClass.bad]

theorem reportRead_of_cleanRun (u : Device) : reportRead cls idx off ((arrayAt s cls idx).readBytes off n) u = u := by
  have hbad : ((arrayAt s cls idx).readBytes off n).any (·.cls.bad) = false := anyBad_of_cleanRun h
  have hcorr : ((arrayAt s cls idx).readBytes off n).any (·.cls.corrected) = false :=
    List.any_eq_false.2 fun b hb => by simp [cls_of_cleanRun h b hb, SynClass.corrected]
  simp only [reportRead, hbad, hcorr, Bool.false_eq_true, if_false]

end run

/-! ## Reservations (R245) -/

/-- The device with these reservations. -/
def withResvs (l : List Resv) (s : Device) : Device := { s with trl := { s.trl with resvs := l } }

theorem breakResvs_foldl (stop : Nat) (i : InitId) (lines : List Nat) (s : Device) :
    lines.foldl (fun s l => breakResvs stop i l s) s =
      withResvs (s.trl.resvs.filter fun r => !(r.stop = stop && lines.contains r.line && r.init ≠ i)) s := by
  induction lines generalizing s with
  | nil =>
    have hall : s.trl.resvs.filter (fun r => !(r.stop = stop && ([] : List Nat).contains r.line && r.init ≠ i)) = s.trl.resvs :=
      List.filter_eq_self.2 fun r _ => by simp only [List.contains_nil, Bool.and_false, Bool.false_and, Bool.not_false]
    rw [hall]
    rfl
  | cons l ls ih =>
    rw [List.foldl_cons, ih]
    simp only [breakResvs, withResvs, List.filter_filter]
    congr 3
    funext r
    grind

/-- A write ends the reservations of others on the lines that it covers. -/
theorem pktLines_break (c : Nat) (p : Pkt) (s : Device) :
    (pktLines p).foldl (fun s l => breakResvs (2 + c) p.init l s) s
      = withResvs (brokenBy s p.init c (p.addr.toNat / 64) p.len.toNat) s := by
  have hl (r : Resv) : (pktLines p).contains r.line
      = decide (p.addr.toNat / 64 ≤ r.line ∧ r.line ≤ p.addr.toNat / 64 + p.len.toNat) := by
    rw [Bool.eq_iff_iff, List.contains_iff_mem, pktLines, List.mem_map, decide_eq_true_iff]
    constructor
    · rintro ⟨k, hk, he⟩
      have := List.mem_range.1 hk
      omega
    · exact fun h => ⟨r.line - p.addr.toNat / 64, List.mem_range.2 (by omega), by omega⟩
  rw [breakResvs_foldl]
  simp only [hl, brokenBy]

theorem breakResvs_eq (c : Nat) (i : InitId) (l : Nat) (s : Device) :
    breakResvs (2 + c) i l s = withResvs (brokenBy s i c l 0) s := by
  have hl (r : Resv) : decide (l ≤ r.line ∧ r.line ≤ l + 0) = decide (r.line = l) := decide_eq_decide.2 (by omega)
  simp only [brokenBy, hl, breakResvs, withResvs]

/-- The reservations but for one. -/
def otherResvs (s : Device) (c : Nat) (i : InitId) (l : Nat) : List Resv :=
  s.trl.resvs.filter fun r => !(r.stop = 2 + c && r.init = i && r.line = l)

theorem dropResv_eq (c : Nat) (i : InitId) (l : Nat) (s : Device) : dropResv (2 + c) i l s = withResvs (otherResvs s c i l) s := rfl

theorem dropOwn_of_not_ls {i : InitId} (h : ∀ k, initKind i ≠ .ls k) (s : Device) : dropOwn i s = s := by
  unfold dropOwn
  split
  · next k hk => exact absurd hk (h k)
  · rfl

theorem addResv_of_room {c : Nat} {i : InitId} {l : Nat} {s : Device}
    (h : ((otherResvs s c i l).filter fun r => r.stop = 2 + c).length < 16) :
    addResv (2 + c) 16 i l s = withResvs (otherResvs s c i l ++ [{ stop := 2 + c, init := i, line := l }]) s := by
  have hfull : decide (16 ≤ ((dropResv (2 + c) i l s).trl.resvs.filter fun r => r.stop = 2 + c).length) = false :=
    decide_eq_false (Nat.not_le.2 h)
  simp only [addResv, hfull]
  split <;> rfl

theorem otherResvs_of_none {c : Nat} {i : InitId} {l : Nat} {s : Device} (h : hasResv (2 + c) i l s = false) :
    otherResvs s c i l = s.trl.resvs :=
  List.filter_eq_self.2 fun r hr => by
    rw [Bool.not_eq_true', Bool.eq_false_iff]
    exact List.any_eq_false.1 h r hr

/-- Whether a reservation is used up before others' end or after makes no difference. -/
theorem brokenBy_otherResvs (s : Device) (i : InitId) (c l : Nat) : brokenBy (withResvs (otherResvs s c i l) s) i c l 0
    = (brokenBy s i c l 0).filter fun r => !(r.stop = 2 + c && r.init = i && r.line = l) := by
  simp only [brokenBy, withResvs, otherResvs, List.filter_filter]
  exact List.filter_congr fun r _ => Bool.and_comm ..

/-! ## Requests at a core's data memory (R29, R31, R243, R245) -/

/-- The device with these bytes of core `c`'s data memory written, if any. -/
def stored (c off : Nat) (bytes : Option (List Byte)) (s : Device) : Device :=
  match bytes with
  | some bs => setArray 2 c ((arrayAt s 2 c).writeBytes off bs) s
  | none => s

section target
variable {c off : Nat} {p : Pkt} {s : Device}

theorem coreRequest_denied (cls : Nat) (hcls : cls ≠ 0) (ho : coreOwner s c ≠ actPlot s p) : coreRequest c cls off p s = deny p s := by
  rw [coreRequest, if_neg hcls, if_pos ho]

section owned
variable (ho : coreOwner s c = actPlot s p)
include ho

theorem coreRequest_atomic (hp : p.opc = .atomic) : coreRequest c 2 off p s = coreAtomic c off p s := by
  simp [coreRequest, ho, hp]

theorem coreRequest_read (hp : p.opc = .read) (hc : cleanRun s 2 c off (pktSize p)) :
    coreRequest c 2 off p s = respond p rcOkay (leBytes (pktSize p) (numAt s 2 c off (pktSize p))) s := by
  simp [coreRequest, ho, hp, reportRead_of_cleanRun hc, anyBad_of_cleanRun hc, dataOf_readBytes]

theorem coreRequest_write (hp : p.opc = .write ∨ p.opc = .pwrite) : coreRequest c 2 off p s =
    respond p rcOkay [] (stored c off (some p.data) (withResvs (brokenBy s p.init c (p.addr.toNat / 64) p.len.toNat) s)) := by
  rcases hp with hp | hp <;> simp [coreRequest, ho, hp, pktLines_break, stored]

end owned

section atomics
variable {v : Nat} {rc : Byte} {d : List Byte}

section plain
variable (hl : p.atype ≠ .xload) (hx : p.atype ≠ .xstore) (hc : cleanRun s 2 c off (pktSize p))
include hl hx hc

/-- FETCH_ADD, SWAP and CAS: the old value is read, and the outcome is that of the operation on it. -/
theorem coreAtomic_keeps (hs : atomicStep p (numAt s 2 c off (pktSize p)) = (none, rc, d)) :
    coreAtomic c off p s = respond p rc d s := by
  have hv : ofLe (dataOf ((arrayAt s 2 c).readBytes off (pktSize p))) = numAt s 2 c off (pktSize p) := ofLe_dataOf
  unfold coreAtomic
  simp [hl, hx, reportRead_of_cleanRun hc, anyBad_of_cleanRun hc, hv, hs]

theorem coreAtomic_stores (hs : atomicStep p (numAt s 2 c off (pktSize p)) = (some v, rc, d)) : coreAtomic c off p s =
    respond p rc d (stored c off (some (leBytes (pktSize p) v)) (withResvs (brokenBy s p.init c (p.addr.toNat / 64) 0) s)) := by
  have hv : ofLe (dataOf ((arrayAt s 2 c).readBytes off (pktSize p))) = numAt s 2 c off (pktSize p) := ofLe_dataOf
  unfold coreAtomic
  simp [hl, hx, reportRead_of_cleanRun hc, anyBad_of_cleanRun hc, hv, hs, breakResvs_eq, stored]

end plain

section exclusive
variable (hi : ∀ k, initKind p.init ≠ .ls k)
include hi

theorem coreAtomic_xload (ht : p.atype = .xload) (hc : cleanRun s 2 c off (pktSize p))
    (hr : ((otherResvs s c p.init (p.addr.toNat / 64)).filter fun r => r.stop = 2 + c).length < 16) : coreAtomic c off p s =
      respond p rcOkay (leBytes (pktSize p) (numAt s 2 c off (pktSize p)))
        (withResvs (otherResvs s c p.init (p.addr.toNat / 64) ++ [{ stop := 2 + c, init := p.init, line := p.addr.toNat / 64 }]) s) := by
  have hs : atomicStep p (numAt s 2 c off (pktSize p)) = (none, rcOkay, leBytes (pktSize p) (numAt s 2 c off (pktSize p))) := by
    simp only [atomicStep, ht, pktSize]
  unfold coreAtomic
  simp [ht, dropOwn_of_not_ls hi, reportRead_of_cleanRun hc, anyBad_of_cleanRun hc, ofLe_dataOf, addResv_of_room hr, hs]

theorem coreAtomic_xstore_held (ht : p.atype = .xstore) (hh : hasResv (2 + c) p.init (p.addr.toNat / 64) s = true) :
    coreAtomic c off p s = respond p rcOkay [] (stored c off (some (leBytes (pktSize p) (operandA p)))
      (withResvs ((brokenBy s p.init c (p.addr.toNat / 64) 0).filter fun r => !(r.stop = 2 + c && r.init = p.init && r.line = p.addr.toNat / 64))
        s)) := by
  have hs (old : Nat) : atomicStep p old = (some (operandA p), rcOkay, []) := by simp only [atomicStep, ht]
  rw [← brokenBy_otherResvs]
  unfold coreAtomic
  simp [ht, hh, dropOwn_of_not_ls hi, hs, breakResvs_eq, dropResv_eq, stored]
  rfl

theorem coreAtomic_xstore_free (ht : p.atype = .xstore) (hh : hasResv (2 + c) p.init (p.addr.toNat / 64) s = false) :
    coreAtomic c off p s = respond p rcExfail [] s := by
  have hd : dropResv (2 + c) p.init (p.addr.toNat / 64) s = s := by
    rw [dropResv_eq, otherResvs_of_none hh]
    rfl
  unfold coreAtomic
  simp [ht, hh, dropOwn_of_not_ls hi, hd]

end exclusive
end atomics
end target

/-! ## A new request of a row (R240, R253, R254, R260) -/

/-- The initiator's window once the request is issued under tag `t`. -/
def issuedWin (s : Device) (opc : Opc) (r : TrlReq) (t : Nat) : InitWin :=
  let w := win s r.init
  let bytes := r.bcnt.toNat + 1
  let tagged := if opc = .pwrite then w else
    setTag w t { st := .busy, gen := (tagOf w t).gen, start := devNs s, tmo := effTmo w, opc, bytes, addr := r.addr.toNat }
  addStat tagged fun st => if initFrozen s r.init then st else
    { st with reqs := satAdd 32 st.reqs 1, wrBytes := if opc = .pwrite then satAdd 64 st.wrBytes bytes else st.wrBytes }

/-- The device once the request has left its initiator's stop. -/
def issued (s : Device) (opc : Opc) (r : TrlReq) (t : Nat) : Device := setWin r.init (issuedWin s opc r t) s

section sends
variable {s : Device} {opc : Opc} {at' : AtType} {r : TrlReq} {t : Nat}

theorem win_setWin (i : InitId) (w : InitWin) (s : Device) : win (setWin i w s) i = w := Sparse.get_set_same ..

theorem win_setWin_ne {i j : InitId} (hj : j ≠ i) (w : InitWin) (s : Device) : win (setWin i w s) j = win s j :=
  Sparse.get_set_ne _ _ _ fun e => hj (BitVec.eq_of_toNat_eq e)

/-- What issuing leaves at the initiator, in a device whose windows it has left. -/
theorem tagTaken_of_wins {d : Device} (hw : d.trl.wins = (issued s opc r t).trl.wins) : TagTaken s d opc r t := by
  have hwin (j : InitId) : win d j = win (issued s opc r t) j := by rw [win, hw]; rfl
  have hown : win d r.init = issuedWin s opc r t := (hwin _).trans (win_setWin ..)
  have hmin (a b : Nat) : satAdd 32 a b = min (a + b) (2 ^ 32 - 1) := rfl
  refine ⟨fun hp => ?_, fun k hk => ?_, fun hz => ?_, fun j hj => (hwin j).trans (win_setWin_ne hj ..)⟩
  · simp [hown, issuedWin, hp, tagOf, addStat, setTag]
  · rw [hown]
    by_cases hp : opc = .pwrite
    · simp [issuedWin, hp, tagOf, addStat]
    · have hkt : k ≠ t := hk.resolve_right hp
      simp [issuedWin, hp, tagOf, addStat, setTag, Sparse.get_set_ne _ _ _ hkt]
  · by_cases hp : opc = .pwrite <;> simp [hown, issuedWin, hp, hz, addStat, setTag, hmin]

theorem tooOld_issued : tooOld (issued s opc r t) (sentPkt s opc at' r t) = false := by
  have hst : devStamp (issued s opc r t) - (sentPkt s opc at' r t).stamp = 0 := BitVec.sub_self _
  rw [tooOld, pktAge, hst]
  rfl

variable (h : CanSend s opc at' r t)
include h

theorem fitReq_of_canSend : fitReq opc r = { r with data := if opc = .write ∨ opc = .pwrite then r.data else [] } := by
  unfold fitReq
  split
  · next hw =>
    have hfit : (r.data ++ List.replicate (r.bcnt.toNat + 1 - r.data.length) 0).take (r.bcnt.toNat + 1) = r.data := by
      rw [← h.data hw, Nat.sub_self, List.replicate_zero, List.append_nil, List.take_length]
    exact congrArg (fun d => { r with data := d }) hfit
  · rfl

theorem issue_of_canSend : issue (initFrozen s r.init) opc at' (fitReq opc r) s = some (issued s opc r t, sentPkt s opc at' r t) := by
  rw [fitReq_of_canSend h]
  have hw := h.runs
  have hm := h.may
  have ht := h.tag
  by_cases hp : opc = .pwrite
  · subst hp
    simp [issue, hw, hm, issued, issuedWin, sentPkt]
  · simp [issue, hw, hm, ht, hp, issued, issuedWin, sentPkt]

theorem throughNet_issued : throughNet (sentPkt s opc at' r t) (issued s opc r t) = atTarget (sentPkt s opc at' r t) (issued s opc r t) := by
  obtain ⟨path, hp⟩ := Option.isSome_iff_exists.1 h.route
  have hp' : route (issued s opc r t) (initSite (sentPkt s opc at' r t).init) (targetSite (sentPkt s opc at' r t).addr.toNat) = some path := hp
  simp only [throughNet, hp']

/-- A well-formed request of a row goes to the core whose memory holds its address. -/
theorem requestRow_core {c cls off : Nat} (hf : formOk (sentPkt s opc at' r t) = true) (hs : spotOf r.addr.toNat = .core c cls off) :
    requestRow opc at' r s = settle (coreRequest c cls off (sentPkt s opc at' r t) (issued s opc r t)) := by
  obtain ⟨henters, hodd⟩ := h.plain
  have hc : presented opc at' r = (opc, at') := by rw [presented, hodd]
  have ht : takeReq (initFrozen s r.init) opc at' (fitReq opc r) s = some (issued s opc r t, sentPkt s opc at' r t) := by
    have htag : (fitReq opc r).tag = none := h.fresh
    rw [takeReq, htag]
    exact issue_of_canSend h
  have hat : atTarget (sentPkt s opc at' r t) (issued s opc r t) = coreRequest c cls off (sentPkt s opc at' r t) (issued s opc r t) := by
    have hs' : spotOf (sentPkt s opc at' r t).addr.toNat = .core c cls off := hs
    simp only [atTarget, tooOld_issued, hf, hs', Bool.not_true, Bool.false_eq_true, if_false]
  simp only [requestRow, h.open', hc, ht, henters, Bool.false_and, Bool.false_eq_true, if_false, throughNet_issued h, hat]

end sends

/-! ## Requests to data memory (R240, R243, R245) -/

theorem respond_stored (p : Pkt) (rc : Byte) (d : List Byte) (c off : Nat) (bytes : Option (List Byte)) (l : List Resv) (s : Device) :
    respond p rc d (stored c off bytes (withResvs l s)) = { s with
      arrays := (stored c off bytes s).arrays
      trl := { s.trl with resvs := l, rsps := if p.opc = .pwrite then s.trl.rsps else s.trl.rsps ++ [{ req := p, rcode := rc, data := d }] } } := by
  unfold respond
  split <;> cases bytes <;> rfl

theorem arrays_stored_ne (c off : Nat) (bytes : Option (List Byte)) (s : Device) {k : Nat} (hk : k ≠ arrayKey 2 c) :
    (stored c off bytes s).arrays.get Coded.filled k = s.arrays.get Coded.filled k := by
  cases bytes with
  | none => rfl
  | some bs => exact Sparse.get_set_ne _ _ _ hk

theorem read_stored_some {c : Nat} {s : Device} (hd : (arrayAt s 2 c).dec = []) (off : Nat) (bs : List Byte) (k : Nat) :
    (arrayAt (stored c off (some bs) s) 2 c).read k =
      if off ≤ k ∧ k < off + bs.length then ⟨bs.getD (k - off) 0, 0, .clean⟩ else (arrayAt s 2 c).read k := by
  rw [stored, arrayAt_setArray, Coded.read_writeBytes hd]
  split
  · next h =>
    have hlt : k - off < bs.length := by omega
    rw [runAt, if_pos h.1, List.getD_eq_getElem?_getD, List.getElem?_eq_getElem hlt]
    rfl
  · next h => rw [runAt_eq_none.2 (by omega)]; rfl

theorem len_of_formOk {p : Pkt} (hp : p.opc = .atomic) (hf : formOk p = true) : p.len = 0 := by
  simp only [formOk, hp, ne_eq, not_true_eq_false, decide_false, Bool.false_or, Bool.and_eq_true, decide_eq_true_eq] at hf
  obtain ⟨-, -, hlen⟩ := hf
  exact hlen

/-- The command issues a request to core `c`'s data memory at `off`, well formed and of the plot that owns the core. -/
structure ToDataMemory (i : Instr) (s : State) (opc : Opc) (at' : AtType) (r : TrlReq) (t c off : Nat) : Prop where
  row : exec i s = .next (onDevice (fun d => requestRow opc at' r d) s)
  quiet : MgmtQuiet s.dev
  spot : spotOf r.addr.toNat = .core c 2 off
  sends : CanSend s.dev opc at' r t
  form : formOk (sentPkt s.dev opc at' r t) = true
  owner : coreOwner s.dev c = actPlot s.dev (sentPkt s.dev opc at' r t)

section row
variable {i : Instr} {s : State} {opc : Opc} {at' : AtType} {r : TrlReq} {t c off : Nat} {rc : Byte} {data : List Byte}

/-- What `coreRequest` does in the device that issuing leaves is what the command does. -/
theorem ToDataMemory.does (h : ToDataMemory i s opc at' r t c off) {bytes : Option (List Byte)} {resvs : List Resv}
    (hb : ∀ bs, bytes = some bs → (arrayAt s.dev 2 c).dec = [])
    (hr : coreRequest c 2 off (sentPkt s.dev opc at' r t) (issued s.dev opc r t)
      = respond (sentPkt s.dev opc at' r t) rc data (stored c off bytes (withResvs resvs (issued s.dev opc r t)))) :
    CoreMemDoes i s opc at' r t c off rc data bytes resvs := by
  have hrow := requestRow_core h.sends h.form h.spot
  rw [hr, respond_stored] at hrow
  replace hrow := hrow.trans (settle_of_quiet ⟨h.quiet.rakes, h.quiet.progress, h.quiet.parked⟩)
  refine .of_onDevice h.row ?_ ?_ <;> rw [hrow]
  · exact ⟨rfl, rfl, rfl, rfl⟩
  · refine ⟨tagTaken_of_wins rfl, rfl, fun k => ?_, fun k hk => arrays_stored_ne c off bytes (issued s.dev opc r t) hk, rfl, rfl⟩
    cases bytes with
    | none => rfl
    | some bs => exact read_stored_some (hb bs rfl) off bs k

theorem ToDataMemory.writes (h : ToDataMemory i s opc at' r t c off) (hw : opc = .write ∨ opc = .pwrite)
    (hd : (arrayAt s.dev 2 c).dec = []) : CoreMemDoes i s opc at' r t c off rcOkay [] (some r.data)
      (brokenBy s.dev r.init c (r.addr.toNat / 64) r.len.toNat) := by
  have hdata : (sentPkt s.dev opc at' r t).data = r.data := if_pos hw
  have hr := coreRequest_write (s := issued s.dev opc r t) (off := off) h.owner hw
  rw [hdata] at hr
  exact h.does (fun _ _ => hd) hr

theorem ToDataMemory.reads (h : ToDataMemory i s .read at' r t c off) (hc : cleanRun s.dev 2 c off (r.bcnt.toNat + 1)) :
    CoreMemDoes i s .read at' r t c off rcOkay (leBytes (r.bcnt.toNat + 1) (numAt s.dev 2 c off (r.bcnt.toNat + 1))) none s.dev.trl.resvs :=
  h.does nofun (coreRequest_read (s := issued s.dev .read r t) h.owner rfl hc)

section atomics
variable (h : ToDataMemory i s .atomic at' r t c off)
include h

theorem ToDataMemory.coreRequest_eq : coreRequest c 2 off (sentPkt s.dev .atomic at' r t) (issued s.dev .atomic r t)
    = coreAtomic c off (sentPkt s.dev .atomic at' r t) (issued s.dev .atomic r t) := coreRequest_atomic h.owner rfl

theorem ToDataMemory.broken_eq : brokenBy s.dev r.init c (r.addr.toNat / 64) r.len.toNat = brokenBy s.dev r.init c (r.addr.toNat / 64) 0 := by
  have hlen : r.len = 0 := len_of_formOk rfl h.form
  rw [hlen]
  rfl

theorem ToDataMemory.modifies {v : Nat} (hl : at' ≠ .xload) (hx : at' ≠ .xstore) (hd : (arrayAt s.dev 2 c).dec = [])
    (hc : cleanRun s.dev 2 c off (r.bcnt.toNat + 1))
    (hs : atomicStep (sentPkt s.dev .atomic at' r t) (numAt s.dev 2 c off (r.bcnt.toNat + 1)) = (some v, rc, data)) :
    CoreMemDoes i s .atomic at' r t c off rc data (some (leBytes (r.bcnt.toNat + 1) v))
      (brokenBy s.dev r.init c (r.addr.toNat / 64) r.len.toNat) := by
  rw [h.broken_eq]
  exact h.does (fun _ _ => hd) (h.coreRequest_eq.trans (coreAtomic_stores (s := issued s.dev .atomic r t) hl hx hc hs))

theorem ToDataMemory.keeps (hl : at' ≠ .xload) (hx : at' ≠ .xstore) (hc : cleanRun s.dev 2 c off (r.bcnt.toNat + 1))
    (hs : atomicStep (sentPkt s.dev .atomic at' r t) (numAt s.dev 2 c off (r.bcnt.toNat + 1)) = (none, rc, data)) :
    CoreMemDoes i s .atomic at' r t c off rc data none s.dev.trl.resvs :=
  h.does nofun (h.coreRequest_eq.trans (coreAtomic_keeps (s := issued s.dev .atomic r t) hl hx hc hs))

theorem ToDataMemory.reserves (hi : ∀ k, initKind r.init ≠ .ls k) (ht : at' = .xload) (hc : cleanRun s.dev 2 c off (r.bcnt.toNat + 1))
    (hroom : ((otherResvs s.dev c r.init (r.addr.toNat / 64)).filter fun x => x.stop = 2 + c).length < 16) :
    CoreMemDoes i s .atomic at' r t c off rcOkay (leBytes (r.bcnt.toNat + 1) (numAt s.dev 2 c off (r.bcnt.toNat + 1))) none
      (otherResvs s.dev c r.init (r.addr.toNat / 64) ++ [{ stop := 2 + c, init := r.init, line := r.addr.toNat / 64 }]) :=
  h.does nofun (h.coreRequest_eq.trans (coreAtomic_xload (s := issued s.dev .atomic r t) hi ht hc hroom))

section xstore
variable (hi : ∀ k, initKind r.init ≠ .ls k) (ht : at' = .xstore)
include hi ht

theorem ToDataMemory.storesReserved (hd : (arrayAt s.dev 2 c).dec = []) (hh : hasResv (2 + c) r.init (r.addr.toNat / 64) s.dev = true) :
    CoreMemDoes i s .atomic at' r t c off rcOkay [] (some (leBytes (r.bcnt.toNat + 1) (r.opA.toNat % 2 ^ (8 * (r.bcnt.toNat + 1)))))
      ((brokenBy s.dev r.init c (r.addr.toNat / 64) r.len.toNat).filter
        fun x => !(x.stop = 2 + c && x.init = r.init && x.line = r.addr.toNat / 64)) := by
  rw [h.broken_eq]
  exact h.does (fun _ _ => hd) (h.coreRequest_eq.trans (coreAtomic_xstore_held (s := issued s.dev .atomic r t) hi ht hh))

theorem ToDataMemory.failsUnreserved (hh : hasResv (2 + c) r.init (r.addr.toNat / 64) s.dev = false) :
    CoreMemDoes i s .atomic at' r t c off rcExfail [] none s.dev.trl.resvs :=
  h.does nofun (h.coreRequest_eq.trans (coreAtomic_xstore_free (s := issued s.dev .atomic r t) hi ht hh))

end xstore
end atomics

/-- A read of another plot's core is answered ACCESS_DENIED and noted (R32). -/
theorem completes_read_denied (hq : MgmtQuiet s.dev) (hspot : spotOf r.addr.toNat = .core c 2 off) (h : CanSend s.dev .read .xload r t)
    (hf : formOk (sentPkt s.dev .read .xload r t) = true) (ho : coreOwner s.dev c ≠ actPlot s.dev (sentPkt s.dev .read .xload r t)) :
    Completes (.read r) s fun d => TagTaken s.dev d .read r t ∧ d.arrays = s.dev.arrays ∧ d.flt = (noteAccess r.init r.addr.toNat s.dev).flt
      ∧ d.trl.rsps = s.dev.trl.rsps ++ [{ req := sentPkt s.dev .read .xload r t, rcode := rcDenied, data := [] }] := by
  have hrow := requestRow_core h hf hspot
  rw [coreRequest_denied (s := issued s.dev .read r t) 2 (by decide) ho] at hrow
  replace hrow := hrow.trans (settle_of_quiet ⟨hq.rakes, hq.progress, hq.parked⟩)
  refine .of_onDevice rfl ?_ ?_ <;> rw [hrow]
  · exact ⟨rfl, rfl, rfl, rfl⟩
  · exact ⟨tagTaken_of_wins rfl, rfl, rfl, rfl⟩

end row

/-- Settles O29: each request by what `coreRequest` does with the packet that its stop forms, in the device that issuing leaves. -/
theorem trellisRequests : Obligations.TrellisRequests := by
  unfold Obligations.TrellisRequests
  intro s r t c off hq hspot n arr clean line old size A B mine same broken
  have reaches {i : Instr} {opc : Opc} {at' : AtType} (hx : exec i s = .next (onDevice (fun d => requestRow opc at' r d) s))
      (h : mine opc at') : ToDataMemory i s opc at' r t c off :=
    let ⟨hsend, hform, howner⟩ := h
    ⟨hx, hq, hspot, hsend, hform, howner⟩
  refine ⟨fun hd => ⟨fun h => ?_, fun h => ?_⟩, fun ⟨hd, hc⟩ => ⟨fun h => ?_, fun h => ?_, fun h => ?_, fun h he => ?_, fun h he => ?_,
    fun h hi => ?_, fun h hi hh => ?_⟩, fun h hi hh => ?_, completes_read_denied hq hspot⟩
  · exact (reaches rfl h).writes (.inl rfl) hd
  · exact (reaches rfl h).writes (.inr rfl) hd
  · exact (reaches rfl h).reads hc
  · exact (reaches rfl h).modifies nofun nofun hd hc rfl
  · exact (reaches rfl h).modifies nofun nofun hd hc rfl
  · exact (reaches rfl h).modifies nofun nofun hd hc (if_pos he)
  · exact (reaches rfl h).keeps nofun nofun hc (if_neg he)
  · exact (reaches rfl h).reserves hi rfl hc
  · exact (reaches rfl h).storesReserved hi rfl hd hh
  · exact (reaches rfl h).failsUnreserved hi rfl hh

end Sys2Proof.Machine
end

section
namespace Sys2Proof.Machine
open Sys2Proof

/-! ## Sums, differences and comparisons of words (R54, R57) -/

section arithmetic
variable (a b : Word16) (c : Bool)

theorem addCarry_eq :
    addCarry a b c = (a + b + BitVec.ofNat 16 c.toNat, decide (2 ^ 16 ≤ a.toNat + b.toNat + c.toNat)) := by
  simp only [addCarry, carryOf, BitVec.ofNat_add, BitVec.ofNat_toNat, BitVec.setWidth_eq]

theorem addCarry_false : addCarry a b false = (a + b, decide (2 ^ 16 ≤ a.toNat + b.toNat)) :=
  (addCarry_eq a b false).trans (Prod.ext (BitVec.add_zero _) rfl)

/-- The exact sum with the complement reaches bit 16 when the difference needs no borrow. -/
theorem subCarry_eq :
    subCarry a b c = (a - b - 1 + BitVec.ofNat 16 c.toNat, decide (b.toNat < a.toNat + c.toNat)) := by
  have hdiff : a + ~~~b = a - b - 1#16 := by
    rw [BitVec.not_eq_neg_add, BitVec.sub_eq_add_neg (-b), ← BitVec.add_assoc, ← BitVec.sub_eq_add_neg, ← BitVec.sub_eq_add_neg]
  have hcarry : 2 ^ 16 ≤ a.toNat + (~~~b).toNat + c.toNat ↔ b.toNat < a.toNat + c.toNat := by
    have := b.isLt
    rw [BitVec.toNat_not]
    omega
  change subCarry a b c = (a - b - 1#16 + BitVec.ofNat 16 c.toNat, _)
  rw [subCarry, addCarry_eq, hdiff, decide_eq_decide.2 hcarry]

theorem subCarry_true : subCarry a b true = (a - b, decide (b.toNat ≤ a.toNat)) :=
  (subCarry_eq a b true).trans (Prod.ext (BitVec.sub_add_cancel _ _) (decide_eq_decide.2 Nat.lt_succ_iff))

/-- D[15] ^ V (R57). -/
def signedLess : Bool :=
  let d := (subCarry a b c).1
  d.getLsbD 15 != ((a.getLsbD 15 != b.getLsbD 15) && (d.getLsbD 15 != a.getLsbD 15))

/-- V corrects D[15] to the sign of the exact difference. -/
theorem signedLess_eq : signedLess a b c = decide (a.toInt + c.toNat ≤ b.toInt) := by
  have hsign (x : Word16) : x.getLsbD 15 = decide (2 ^ 15 ≤ x.toNat) :=
    (BitVec.msb_eq_getLsbD_last x).symm.trans (BitVec.msb_eq_decide x)
  have hd : (subCarry a b c).1.toNat = (a.toNat + (2 ^ 16 - 1 - b.toNat) + c.toNat) % 2 ^ 16 := by
    rw [subCarry, addCarry, BitVec.toNat_ofNat, BitVec.toNat_not]
  have := a.isLt
  have := b.isLt
  have := c.toNat_le
  simp only [signedLess, hsign, hd, bne, Bool.decide_beq_decide, ← decide_not, ← Bool.decide_and, decide_eq_decide,
    BitVec.toInt_eq_toNat_cond]
  omega

theorem cmpFlags_eq : cmpFlags a b c 0 = (decide (a = b) && c, decide (a = b) && c) := rfl
theorem cmpFlags_ne : cmpFlags a b c 1 = (!(decide (a = b) && c), decide (a = b) && c) := rfl

theorem cmpFlags_ltu : cmpFlags a b c 2 = (!decide (b.toNat < a.toNat + c.toNat), decide (b.toNat < a.toNat + c.toNat)) := by
  rw [show cmpFlags a b c 2 = (!(subCarry a b c).2, (subCarry a b c).2) from rfl, subCarry_eq]

theorem cmpFlags_geu : cmpFlags a b c 3 = (decide (b.toNat < a.toNat + c.toNat), decide (b.toNat < a.toNat + c.toNat)) := by
  rw [show cmpFlags a b c 3 = ((subCarry a b c).2, (subCarry a b c).2) from rfl, subCarry_eq]

theorem cmpFlags_lts : cmpFlags a b c 4 = (decide (a.toInt + c.toNat ≤ b.toInt), decide (b.toNat < a.toNat + c.toNat)) := by
  rw [show cmpFlags a b c 4 = (signedLess a b c, (subCarry a b c).2) from rfl, signedLess_eq, subCarry_eq]

theorem cmpFlags_ges : cmpFlags a b c 5 = (!decide (a.toInt + c.toNat ≤ b.toInt), decide (b.toNat < a.toNat + c.toNat)) := by
  rw [show cmpFlags a b c 5 = (!signedLess a b c, (subCarry a b c).2) from rfl, signedLess_eq, subCarry_eq]

theorem cmpFlags_reserved {cnd : BitVec 3} (h : 6 ≤ cnd.toNat) : cmpFlags a b c cnd = (false, false) := by
  have hcnd : cnd = 6 ∨ cnd = 7 := by bv_omega
  obtain rfl | rfl := hcnd <;> rfl

end arithmetic

/-! ## Cell writes (R58) -/

theorem cellHolds_microWord_zero (m : Micro) : cellHolds (microWord 0 m) = true := by
  simp only [cellHolds, miOp_microWord 0 (by decide), decide_true, Bool.true_or]

section operation
variable {op : Nat} (hop : 0 < op ∧ op < 0x10)
include hop

theorem not_cellHolds_microWord (m : Micro) : cellHolds (microWord op m) = false := by
  rw [cellHolds, miOp_microWord op (by omega), Bool.or_eq_false_iff]
  exact ⟨decide_eq_false (by omega), decide_eq_false (by omega)⟩

theorem cellExec_microWord (m : Micro) (i : CellIn) :
    cellExec (microWord op m) i = cellOp op i (cellSource i m.k m.sa) (cellSource i m.k m.sb) m.ci m.cnd m.dst := by
  have h : op < 32 := by omega
  simp only [cellExec, not_cellHolds_microWord hop, Bool.false_eq_true, if_false, miOp_microWord op h, miSa_microWord op h,
    miSb_microWord op h, miDst_microWord op h, miCi_microWord op h, miCnd_microWord op h, miK_microWord op h]

end operation

theorem wordWrite_of_holds {w : Word32} (h : cellHolds w = true) (i : CellIn) (st : CellSt) : wordWrite true w (cellExec w i) st = st := by
  simp only [wordWrite, cellExec, cellDst, h, if_true]
  rfl

/-- What CL takes, if anything. -/
def CellRes.latch (x : CellRes) : Option Bool := if x.loadCl then some x.co else none

theorem wordWrite_of_not_holds {w : Word32} (h : cellHolds w = false) (x : CellRes) (st : CellSt) :
    wordWrite true w x st = { dstWrite (miDst w) x.res st with cl := x.latch.getD st.cl } := by
  have hcl : (if x.loadCl = true then x.co else st.cl) = x.latch.getD st.cl := by
    unfold CellRes.latch
    split <;> rfl
  simp only [wordWrite, cellDst, h, Bool.false_eq_true, if_false, if_true, hcl]
  generalize miDst w = dst
  have hdst : dst = 0 ∨ dst = 1 ∨ dst = 2 ∨ dst = 3 ∨ dst = 4 ∨ dst = 5 ∨ dst = 6 ∨ dst = 7 := by bv_omega
  obtain rfl | rfl | rfl | rfl | rfl | rfl | rfl | rfl := hdst <;> rfl

/-! ## The rows of the cell micro-instructions (R54 to R60, R70) -/

/-- The device with this state in the cell. -/
def withCell (r : CellRef) (st : CellSt) (s : Device) : Device :=
  { setBed r.bed.val { bedAt s r.bed.val with
      cells := (bedAt s r.bed.val).cells.set CellSt.zero (r.cluster.val * 16 + r.cell.val) st } s with free := s.free + 1 }

section withCell
variable (r : CellRef) (st : CellSt) (s : Device)

theorem bedAt_withCell : bedAt (withCell r st s) r.bed.val = { bedAt s r.bed.val with
    cells := (bedAt s r.bed.val).cells.set CellSt.zero (r.cluster.val * 16 + r.cell.val) st } := bedAt_setBed ..

theorem cellIs_withCell : cellIs (withCell r st s) r = st := by
  rw [cellIs, bedAt_withCell, cellSt, Sparse.get_set_same]

theorem onlyCell_withCell : onlyCell s (withCell r st s) r := by
  refine ⟨rfl, fun n hn => bedAt_setBed_ne _ _ hn, ?_, fun k hk => ?_⟩ <;> rw [bedAt_withCell]
  exact Sparse.get_set_ne _ _ _ hk

end withCell

/-- What operation `op` computes from what the cell reads in the phase in progress (R54). -/
def cellComputes (s : Device) (op : Nat) (r : CellRef) (m : Micro) : CellRes :=
  let i := cellReads s op r m
  cellOp op i (cellSource i m.k m.sa) (cellSource i m.k m.sb) m.ci m.cnd m.dst

section row
variable {i : Instr} {s : State} {r : CellRef} {m : Micro} {op : Nat}

theorem cellRow_of_runs {d : Device} (h : cellRuns d r = true) :
    cellRow op r m d = withCell r (wordWrite true (microWord op m) (cellExec (microWord op m) (cellReads d op r m)) (cellIs d r)) d := by
  rw [cellRuns, Bool.and_eq_true] at h
  obtain ⟨hphase, hrow⟩ := h
  simp only [cellRow, hphase, hrow, if_true]
  rfl

variable (hr : cellRuns s.dev r = true) (hx : exec i s = .next (onDevice (cellRow op r m) s))
include hr hx

theorem completes_of_cellRow : Completes i s fun d =>
    cellIs d r = wordWrite true (microWord op m) (cellExec (microWord op m) (cellReads s.dev op r m)) (cellIs s.dev r)
      ∧ onlyCell s.dev d r := by
  refine .of_onDevice hx ?_ ?_ <;> rw [cellRow_of_runs hr]
  · exact ⟨rfl, rfl, rfl, rfl⟩
  · exact ⟨cellIs_withCell .., onlyCell_withCell ..⟩

/-- A row leaves the result of its operation where DST says, and the carry out in CL where the operation loads CL. -/
theorem cellDoes_of_cellRow (hop : 0 < op ∧ op < 0x10) :
    CellDoes i s r m (cellComputes s.dev op r m).res (cellComputes s.dev op r m).latch := by
  obtain ⟨d, hd, hcell, honly⟩ := completes_of_cellRow hr hx
  rw [cellExec_microWord hop, wordWrite_of_not_holds (not_cellHolds_microWord hop m), miDst_microWord op (by omega)] at hcell
  exact ⟨d, hd, hcell, honly⟩

theorem cellDoes_keepingCl (hop : 0 < op ∧ op < 0x10) {v : Word16} (h : cellComputes s.dev op r m = ⟨v, false, false⟩) :
    CellDoes i s r m v none := by
  have := cellDoes_of_cellRow hr hx hop
  rwa [h] at this

theorem cellDoes_loadingCl (hop : 0 < op ∧ op < 0x10) {p : Word16 × Bool} {v : Word16} {co : Bool} (hp : p = (v, co))
    (h : cellComputes s.dev op r m = ⟨p.1, p.2, true⟩) : CellDoes i s r m v (some co) := by
  have := cellDoes_of_cellRow hr hx hop
  rwa [h, hp] at this

end row

section cell
variable {s : State} {r : CellRef} {m : Micro} (hr : cellRuns s.dev r = true)
include hr

theorem completes_cellHold : Completes (.cellHold r m) s fun d => cellIs d r = cellIs s.dev r ∧ onlyCell s.dev d r := by
  obtain ⟨d, hd, hcell, honly⟩ := completes_of_cellRow hr (i := .cellHold r m) rfl
  exact ⟨d, hd, hcell.trans (wordWrite_of_holds (cellHolds_microWord_zero m) ..), honly⟩

theorem cellDoes_cmp {h co : Bool}
    (hf : cmpFlags (cellSource (cellReads s.dev 0x06 r m) m.k m.sa) (cellSource (cellReads s.dev 0x06 r m) m.k m.sb)
      (cellCin (cellReads s.dev 0x06 r m) m.ci) m.cnd = (h, co)) :
    CellDoes (.cellCmp r m) s r m (if h then 0xFFFF else 0) (some co) :=
  cellDoes_loadingCl hr rfl (by decide) (congrArg (fun f : Bool × Bool => ((if f.1 then 0xFFFF else 0 : Word16), f.2)) hf) rfl

end cell

/-- Settles O1: each row leaves what `cellOp` computes (`cellDoes_of_cellRow`), by the exact sums of `addCarry_eq` and `subCarry_eq` and the
conditions of `cmpFlags`. -/
theorem cellOperations : Obligations.CellOperations := by
  unfold Obligations.CellOperations
  refine ⟨fun s r m hr => ?_, fun s r m hr => ?_, fun s r m hr => ?_⟩
  · refine ⟨completes_cellHold hr, ?_, ?_, ?_, ?_, ?_, ?_, ?_, ?_, ?_⟩ <;> exact cellDoes_keepingCl hr rfl (by decide) rfl
  · refine ⟨?_, ?_, ?_, ?_, ?_⟩
    · exact cellDoes_loadingCl hr rfl (by decide) (addCarry_false ..) rfl
    · exact cellDoes_loadingCl hr rfl (by decide) (addCarry_eq ..) rfl
    · exact cellDoes_loadingCl hr rfl (by decide) (subCarry_true ..) rfl
    · exact cellDoes_loadingCl hr rfl (by decide) (subCarry_eq ..) rfl
    · exact cellDoes_loadingCl hr rfl (by decide) (addCarry_false ..) rfl
  · refine ⟨fun h => ?_, fun h => ?_, fun h => ?_, fun h => ?_, fun h => ?_, fun h => ?_, fun h => ?_⟩ <;> apply cellDoes_cmp hr
    · rw [h, cmpFlags_eq]
    · rw [h, cmpFlags_ne]
    · rw [h, cmpFlags_ltu]
    · rw [h, cmpFlags_geu]
    · rw [h, cmpFlags_lts]
    · rw [h, cmpFlags_ges]
    · exact cmpFlags_reserved _ _ _ h

end Sys2Proof.Machine
end

section
namespace Sys2Proof.Machine
open Sys2Proof

/-! ## Commands whose effect is given whole -/

theorem SameFuses.of_eq {old new : Device} (ht : new.trust = old.trust) (hb : new.bist = old.bist) : SameFuses old new := by
  constructor <;> simp only [ht, hb]

theorem SameFuses.refl (s : Device) : SameFuses s s := ⟨rfl, rfl, rfl, rfl⟩

theorem SameFuses.trans {a b c : Device} (h : SameFuses a b) (h' : SameFuses b c) : SameFuses a c :=
  ⟨h'.lifecycle.trans h.lifecycle, h'.owner.trans h.owner, h'.invalid.trans h.invalid, h'.slots.trans h.slots⟩

/-- What is kept depends only on the fuses of the old device. -/
theorem fuseHold_congr {old old' : Device} (h : SameFuses old old') (new : Device) : fuseHold old' new = fuseHold old new := by
  simp only [fuseHold, h.lifecycle, h.owner, h.invalid, h.slots]

theorem Completes.of_eq {i : Instr} {s : State} {f : Device → Device} {x : Device} (he : exec i s = .next (onDevice f s))
    (hx : f s.dev = x) (hf : SameFuses s.dev x) : Completes i s fun d => d = x :=
  .of_onDevice he (hx ▸ hf) hx

/-- A command that ends with a measurement completes with what the warden makes of it. -/
theorem Completes.of_noticed {i : Instr} {s : State} {f : Device → Device} {kind inst : Nat} {t : Device}
    (he : exec i s = .next (onDevice (fun s => drainPolicy (f s)) s)) (hx : f s.dev = occur kind inst 0 t) (hf : SameFuses s.dev t) :
    Completes i s fun d => d = noticed kind inst t := by
  refine ⟨_, he, ?_⟩
  simp only [hx]
  exact (fuseHold_congr hf _).symm

/-! ## Almanac records keep the fuses -/

section almanac
variable {s t : Device} (h : SameFuses s t)
include h

theorem SameFuses.closeOpen : SameFuses s (closeOpen t) := by
  unfold Machine.closeOpen
  split
  · exact h
  · exact ⟨h.lifecycle, h.owner, h.invalid, h.slots⟩

theorem SameFuses.almMake (b : RecBody) (plot : Option Nat) : SameFuses s (almMake b plot t) := by
  unfold Machine.almMake
  split
  · exact ⟨h.lifecycle, h.owner, h.invalid, h.slots⟩
  · refine h.closeOpen.trans ?_
    dsimp only
    split
    · exact ⟨rfl, rfl, rfl, rfl⟩
    · split <;> exact ⟨rfl, rfl, rfl, rfl⟩

theorem SameFuses.almOpen (b : RecBody) (plot : Option Nat) : SameFuses s (almOpen b plot t) := by
  unfold Machine.almOpen
  split
  · exact h.almMake ..
  · exact ⟨h.lifecycle, h.owner, h.invalid, h.slots⟩

theorem SameFuses.almCoalesce (b : RecBody) (plot : Option Nat) : SameFuses s (almCoalesce b plot t) := by
  have halm (a : Almanac) : SameFuses s { t with alm := a } := ⟨h.lifecycle, h.owner, h.invalid, h.slots⟩
  unfold Machine.almCoalesce
  split
  · exact halm _
  split
  · split
    · dsimp only
      split
      · exact (halm _).closeOpen
      · exact halm _
    · exact h.closeOpen.almOpen ..
  · exact h.almOpen ..

theorem SameFuses.csrRecord (i : InitId) (off old new : Nat) : SameFuses s (csrRecord i off old new t) := by
  unfold Machine.csrRecord
  split
  · exact h
  · exact h.almCoalesce ..

end almanac

/-- A change of a bed's register, recorded and answered. -/
theorem sameFuses_bedRecorded (i : InitId) (off old new n : Nat) (x : Bed) (s : Device) :
    SameFuses s (okay (csrRecord i off old new (setBed n x s))) := by
  have hbed : SameFuses s (setBed n x s) := ⟨rfl, rfl, rfl, rfl⟩
  obtain ⟨hl, ho, hi, hs⟩ := hbed.csrRecord i off old new
  exact ⟨hl, ho, hi, hs⟩

/-! ## Register rows of a bed -/

theorem bedOff_add_lt (b : BedId) {off : Nat} (h : off < 0x1000) : bedOff b.val + off < 2 ^ 28 := by
  have := b.isLt
  unfold bedOff dieOff
  omega

theorem regRow_of {i : InitId} {o size v : Nat} {s d : Device} {rc : Byte} (ho : o < 2 ^ 28)
    (h : csrWriteAt i (stampPlot s i) o size (BitVec.ofNat 64 v).toNat s = (d, rc)) :
    regRow i o size v s = { denyNote i (csrBase + o) rc d with answer := some (rc, 0) } := by
  have haddr : (BitVec.ofNat 48 (csrBase + o)).toNat = csrBase + o := by
    rw [BitVec.toNat_ofNat, Nat.mod_eq_of_lt (by unfold csrBase; omega)]
  have hw : csrWriteAt i (stampPlot s i) ((BitVec.ofNat 48 (csrBase + o)).toNat - csrBase) size (BitVec.ofNat 64 v).toNat s = (d, rc) := by
    rw [csrOffset ho, h]
  rw [← haddr]
  exact csrAccWrite_of hw

section bedRow
variable {i : InitId} {b : BedId} {off v : Nat} {s : Device}

theorem regWrite_bed (hw : bedWidth off = some (off, 32)) (hv : v < 2 ^ 32) :
    regWrite (blkWidth (.bed b.val)) (bedOff b.val + off - bedOff b.val) 4 (BitVec.ofNat 64 v).toNat = some (some (off, v, 2 ^ 32 - 1)) := by
  have hwid : blkWidth (.bed b.val) off = some (off, 32) := hw
  have hval : (BitVec.ofNat 64 v).toNat % 2 ^ 32 = v := by
    rw [BitVec.toNat_ofNat]
    omega
  rw [Nat.add_sub_cancel_left, regWrite, hwid]
  simp only [hval, and_self, if_true]

/-- A register of a bed takes a write that is accepted. -/
theorem regRow_bed (hoff : off < 0x1000) (hw : bedWidth off = some (off, 32)) (hv : v < 2 ^ 32)
    (ha : RegAccepts s i (.bed b.val) (bedOff b.val) off v (2 ^ 32 - 1)) {e : Device} (he : bedWrite i b.val off v s = some e) :
    regRow i (bedOff b.val + off) 4 v s = okay e := by
  have hopen : csrOpen s i (stampPlot s i) (.bed b.val) (bedOff b.val + off - bedOff b.val) = true := by
    rw [Nat.add_sub_cancel_left]
    exact ha.mayReach
  exact regRow_of (bedOff_add_lt b hoff)
    (csrWriteAt_register (blkOf_bed b hoff) hopen (regWrite_bed hw hv) ha.room ((blkWrite_bed ..).trans he))

/-- A register of a bed refuses a write that the bed does not take (R32). -/
theorem regRow_bed_denied (hoff : off < 0x1000) (hw : bedWidth off = some (off, 32)) (hv : v < 2 ^ 32)
    (he : bedWrite i b.val off v s = none) :
    regRow i (bedOff b.val + off) 4 v s = { noteAccess i (csrBase + (bedOff b.val + off)) s with answer := some (rcDenied, 0) } :=
  regRow_of (bedOff_add_lt b hoff) (csrWriteAt_refused (blkOf_bed b hoff) (regWrite_bed hw hv) ((blkWrite_bed ..).trans he))

end bedRow

end Sys2Proof.Machine
end

section
namespace Sys2Proof.Machine
open Sys2Proof

/-! ## The generator of a bed (R95 to R105) -/

theorem genId_val (b : BedId) : genId b.val = .gen b := congrArg ShellId.gen (Fin.ofNat_val_eq_self b)

theorem genShell_val (s : Device) (b : BedId) : genShell s b.val = shellAt s (.gen b) := congrArg (shellAt s) (genId_val b)

theorem bedSource_val (b : BedId) : bedSource b.val = .bed b := congrArg Source.bed (Fin.ofNat_val_eq_self b)

/-- A counter of `w` bits that saturates. -/
theorem ofNat_satAdd_one {w : Nat} (x : BitVec w) :
    BitVec.ofNat w (satAdd w x.toNat 1) = if x = BitVec.allOnes w then x else x + 1 := by
  have hx := x.isLt
  have hall : x = BitVec.allOnes w ↔ x.toNat = 2 ^ w - 1 := by rw [← BitVec.toNat_inj, BitVec.toNat_allOnes]
  have hsat : satAdd w x.toNat 1 = if x = BitVec.allOnes w then x.toNat else x.toNat + 1 := by
    rw [show satAdd w x.toNat 1 = min (x.toNat + 1) (2 ^ w - 1) from rfl]
    split <;> rename_i h <;> rw [hall] at h <;> omega
  rw [hsat]
  split
  · rw [BitVec.ofNat_toNat, BitVec.setWidth_eq]
  · rw [BitVec.ofNat_add, BitVec.ofNat_toNat, BitVec.setWidth_eq]
    rfl

section generator
variable {s : Device} {b : BedId} {late : Bool}

theorem marginFlag_active (hst : (shellAt s (.gen b)).st = .active) (hm : genMode (shellAt s (.gen b)) = 0) :
    marginFlag late b.val s = withClock b.val ((bedAt s b.val).clock.flag late) s := by
  simp only [marginFlag, genShell_val, hst, hm, and_self, if_true]
  rfl

/-- What a margin flag does, its counter of droops bit by bit (R98). -/
theorem BedClock.flag_eq (k : BedClock) : k.flag late =
    let s := min (if k.s = 0 then scFirst k.stretchCfg else k.s + scInc k.stretchCfg) (scMax k.stretchCfg)
    { k with
      s, sEdge := if late then k.sEdge else s, flagged := true, clean := 0
      droopEvents := if k.flagged = true ∨ k.run = true ∨ k.droopEvents = BitVec.allOnes 32 then k.droopEvents else k.droopEvents + 1 } := by
  have hcount : (if k.flagged || k.run then k.droopEvents else BitVec.ofNat 32 (satAdd 32 k.droopEvents.toNat 1))
      = if k.flagged = true ∨ k.run = true ∨ k.droopEvents = BitVec.allOnes 32 then k.droopEvents else k.droopEvents + 1 := by
    rw [ofNat_satAdd_one]
    cases k.flagged <;> cases k.run <;> simp
  rw [BedClock.flag, hcount]

theorem stretchRecover_due (hs : 0 < (bedAt s b.val).clock.s)
    (hc : scRecover (bedAt s b.val).clock.stretchCfg ≤ (bedAt s b.val).clock.clean) :
    stretchRecover b.val s = withClock b.val { (bedAt s b.val).clock with
      s := (bedAt s b.val).clock.s - 1, sEdge := (bedAt s b.val).clock.s - 1, clean := 0 } s := by
  simp only [stretchRecover, modBed_eq, BedClock.recover, hs, hc, and_self, if_true]
  rfl

theorem stretchSaturated_due (h : 1024 ≤ (bedAt s b.val).clock.atMax) : stretchSaturated b.val s =
    occur 0x0B b.val 0 (setShell (.gen b) { shellAt s (.gen b) with mstat := (shellAt s (.gen b)).mstat ||| 4 }
      (withClock b.val { (bedAt s b.val).clock with atMax := 0 } s)) := by
  simp only [stretchSaturated, h, if_true, genId_val]
  rfl

theorem lockLost_active (hm : genMode (shellAt s (.gen b)) = 1) (hst : (shellAt s (.gen b)).st = .active)
    (hl : (shellAt s (.gen b)).mstat.getLsbD 0 = true) : lockLost b.val s =
      raise (.bed b) 1 0x08 0 (setShell (.gen b) { shellAt s (.gen b) with mstat := (shellAt s (.gen b)).mstat &&& ~~~1#16 } s) := by
  simp only [lockLost, genShell_val, genId_val, bedSource_val, hm, hst, hl, and_self, if_true]

theorem lockRegained_active (hm : genMode (shellAt s (.gen b)) = 1) (hst : (shellAt s (.gen b)).st = .active) : lockRegained b.val s =
    match reference s b.val with
    | some f => withClock b.val { (bedAt s b.val).clock with refFreq := f }
        (setShell (.gen b) { shellAt s (.gen b) with mstat := (shellAt s (.gen b)).mstat ||| 1 } s)
    | none => s := by
  simp only [lockRegained, genShell_val, genId_val, hm, hst, and_self, if_true]
  rfl

@[simp] theorem Shell.abortCal_en (x : Shell) : x.abortCal.en = x.en := by unfold Shell.abortCal; split <;> rfl
@[simp] theorem Shell.abortCal_deferral (x : Shell) : x.abortCal.deferral = x.deferral := by unfold Shell.abortCal; split <;> rfl

/-- A fault of a macro that starts (R37, R39, R45). -/
theorem Shell.macroFault_starting {x : Shell} (h : x.st = .starting) :
    x.macroFault = { x.abortCal with err := true, pendStop := false, st := if x.en then .fault else .idle } := by
  simp only [Shell.macroFault, h, Shell.abortCal_en]
  split <;> rfl

/-- Only a bed that is COMMITTED is concerned by the fault of a generator that starts (R103). -/
theorem genFaulted_starting {n : Nat} (h : (bedAt s n).st ≠ .committed) : genFaulted n .starting s = s := by
  cases hb : (bedAt s n).st with
  | committed => exact absurd hb h
  | _ => simp only [genFaulted, hb]

theorem macroFaultRow_starting (hst : (shellAt s (.gen b)).st = .starting)
    (hd : (shellAt s (.gen b)).deferral = none) (hc : (bedAt s b.val).st ≠ .committed) : macroFaultRow (.gen b) s =
      raise (.bed b) 2 0x03 (csrBase + shellOff (.gen b)) (setShell (.gen b) (shellAt s (.gen b)).macroFault s) := by
  have hdef : (shellAt s (.gen b)).macroFault.deferral = none := by
    rw [Shell.macroFault_starting hst]
    exact (Shell.abortCal_deferral _).trans hd
  have hcan : (shellAt s (.gen b)).canFault = true := by simp only [Shell.canFault, hst, decide_true, Bool.true_or]
  have hnone : deferralDone (.gen b) stBusy (setShell (.gen b) (shellAt s (.gen b)).macroFault s)
      = setShell (.gen b) (shellAt s (.gen b)).macroFault s := by
    simp only [deferralDone, shellAt_setShell, hdef]
  have heffect (t : Device) : faultEffect (.gen b) .starting t
      = genFaulted b.val .starting (raise (.bed b) 2 0x03 (csrBase + shellOff (.gen b)) t) := rfl
  have hrow : macroFaultRow (.gen b) s = faultEffect (.gen b) (shellAt s (.gen b)).st
      (deferralDone (.gen b) stBusy (setShell (.gen b) (shellAt s (.gen b)).macroFault s)) := if_pos hcan
  rw [hrow, hnone, hst, heffect, genFaulted_starting]
  exact hc

theorem lockTimeout_starting (hm : genMode (shellAt s (.gen b)) = 1) (hst : (shellAt s (.gen b)).st = .starting) :
    lockTimeout b.val s = macroFaultRow (.gen b) s := by
  simp only [lockTimeout, genShell_val, genId_val, hm, hst, and_self, if_true]

/-- THROTTLE of a bed's clock takes a new STEP from a hub management core (R94, R99). -/
theorem bedWrite_throttle {i : InitId} (hi : isMgmtCore i = true) (n : Nat) (step : BitVec 4) (s : Device) :
    bedWrite i n 0x12C step.toNat s = some (csrRecord i (bedOff n + 0x12C) (bedAt s n).clock.throttle.toNat step.toNat
      (withClock n { (bedAt s n).clock with throttle := step } s)) := by
  have hmod : step.toNat % 16 = step.toNat := Nat.mod_eq_of_lt step.isLt
  have hset : setThrottle n step.toNat s = withClock n { (bedAt s n).clock with throttle := step } s := by
    rw [setThrottle, BitVec.ofNat_toNat, BitVec.setWidth_eq]
    rfl
  simp only [bedWrite, hi, hmod, hset, if_true]
  rfl

end generator

/-! ## Contention (R90) -/

/-- The bed in which two taps were found on one line: both are disabled, the event is counted, the first one is kept. -/
def contendedBed (x : Bed) (o : Bool) (i l : Nat) (taps : List Nat) : Bed := { x with
  tapsOff := x.tapsOff ++ taps
  contention := { seen := true, count := min (x.contention.count + 1) 255, first := some (x.contention.first.getD (o, i, l, x.phase)) } }

section contention
variable {s : Device} {b : BedId} {o : Bool} {i l : Nat} {taps : List Nat}

/-- What one event leaves before the sensor measures: the fault, and the record whose digests the model's own counter gives. -/
def contentionRecorded (s : Device) (b : BedId) (y : Bed) : Device :=
  selfRec 0x03 b.val 0x8005 0 (freshDigest s).1 (freshDigest (freshDigest s).2).1
    { raise (.bed b) 2 0x06 (contentionReg y.contention) (setBed b.val y s) with free := s.free + 2 }

theorem sameFuses_contentionRecorded (s : Device) (b : BedId) (y : Bed) : SameFuses s (contentionRecorded s b y) := by
  refine SameFuses.almMake ?_ ..
  exact ⟨rfl, rfl, rfl, rfl⟩

theorem contentionAct_eq (s : Device) (b : BedId) (o : Bool) (i l : Nat) (taps : List Nat) : contentionAct b.val s (o, i, l, taps) =
    occur 0x0C b.val 0 (contentionRecorded s b (contendedBed (bedAt s b.val) o i l taps)) := by
  simp only [contentionAct, modBed_eq, bedAt_setBed, bedSource_val]
  rfl

theorem contentionRow_single (hst : (bedAt s b.val).st = .running) (hb : (bedAt s b.val).border.bound = none)
    (hc : contended (bedAt s b.val) (bedAt s b.val).phase = [(o, i, l, taps)]) :
    contentionRow b.val s = contentionAct b.val s (o, i, l, taps) := by
  simp only [contentionRow, hst, atBoundary, hb, hc, decide_true, Option.isSome_none, Bool.not_false, Bool.and_self, if_true]
  rfl

end contention

/-- Settles O17: each command by what its operation leaves (`marginFlag_active`, `lockTimeout_starting`, `contentionAct_eq`), THROTTLE by the
register row of its bed (`regRow_bed`). -/
theorem bedClocks : Obligations.BedClocks := by
  unfold Obligations.BedClocks
  refine ⟨fun s b hq => ⟨fun late hst hm => ?_, fun hs hc => ?_, fun h => ?_, fun hm hst hl => ?_, fun hm hst => ?_,
    fun hm hst hd hc => ?_, fun i step hi ha => ?_⟩, fun s b o i l taps hst hb hc => ?_⟩
  · exact .of_eq rfl ((marginFlag_active hst hm).trans (congrArg (withClock b.val · s.dev) (BedClock.flag_eq _))) ⟨rfl, rfl, rfl, rfl⟩
  · exact .of_eq rfl (stretchRecover_due hs hc) ⟨rfl, rfl, rfl, rfl⟩
  · exact .of_noticed rfl (stretchSaturated_due h) ⟨rfl, rfl, rfl, rfl⟩
  · exact .of_eq rfl (lockLost_active hm hst hl) ⟨rfl, rfl, rfl, rfl⟩
  · refine .of_eq rfl ((lockRegained_active hm hst).trans rfl) ?_
    split <;> exact ⟨rfl, rfl, rfl, rfl⟩
  · have hrow := (lockTimeout_starting hm hst).trans (macroFaultRow_starting hst hd hc)
    have hsettle := (congrArg settle hrow).trans (settle_of_quiet ⟨hq.rakes, hq.progress, hq.parked⟩)
    refine .of_onDevice rfl ?_ ⟨(shellAt s.dev (.gen b)).macroFault, hsettle, ?_, ?_⟩
    · rw [hsettle]
      exact ⟨rfl, rfl, rfl, rfl⟩
    all_goals rw [Shell.macroFault_starting hst]
  · have hrow := regRow_bed (off := 0x12C) (by decide) rfl (Nat.lt_trans step.isLt (by decide)) ha (bedWrite_throttle hi ..)
    exact .of_eq rfl hrow (sameFuses_bedRecorded ..)
  · have hrow := (contentionRow_single hst hb hc).trans (contentionAct_eq ..)
    obtain ⟨d, hx, hd⟩ := Completes.of_noticed (i := .lineContention b) (s := s) rfl hrow (sameFuses_contentionRecorded ..)
    exact ⟨d, hx, _, _, hd⟩

end Sys2Proof.Machine
end

section
namespace Sys2Proof.Machine
open Sys2Proof

/-! ## Upsets of coded arrays (R147 to R149) -/

theorem synClass_eq_clean {syn : BitVec 6} : synClass syn = .clean → syn = 0 := by
  revert syn; decide

theorem synClass_colD {i : Nat} (h : i < 8) : synClass (colD i) = .corrData i := by
  revert i; decide

theorem synClass_colC {i : Nat} (h : i < 6) : synClass (colC i) = .corrCheck := by
  revert i; decide

/-- Where a syndrome was 0, a flip of stored check bits shows as it is. -/
theorem flipped_of_xor_eq_zero {x f : BitVec 6} (h : x ^^^ f = 0) (col : BitVec 6) : x ^^^ col ^^^ f = col := by
  rw [BitVec.xor_assoc, BitVec.xor_comm col, ← BitVec.xor_assoc, h]
  exact BitVec.zero_xor

section upset
variable {c : Coded} (hc : c.dec = []) {a i : Nat}

@[simp] theorem Coded.dec_upset (c : Coded) (a i : Nat) : (c.upset a i).dec = c.dec := by
  unfold Coded.upset; split <;> rfl

@[simp] theorem Coded.fillCols_upset (c : Coded) (a i l : Nat) : (c.upset a i).fillCols l = c.fillCols l := by
  unfold Coded.upset; split <;> rfl

include hc

theorem Coded.read_upset_ne {b : Nat} (h : b ≠ a) : (c.upset a i).read b = c.read b := by
  rw [Coded.read_of_sound (c := c.upset a i) (by simpa using hc), Coded.read_of_sound hc, Coded.fillCols_upset]
  unfold Coded.upset
  split <;> simp only [Sparse.get_set_ne _ _ _ h]

variable (h : synClass (c.read a).syn = .clean)
include h

/-- A clean byte is read as it is stored. -/
theorem Coded.clean_of_sound : c.syn.get 0 a ^^^ c.fillCols a = 0 ∧ (c.read a).data = c.data.get 0 a := by
  have hread := Coded.read_of_sound hc a
  have hsyn : c.syn.get 0 a ^^^ c.fillCols a = 0 := synClass_eq_clean (by rwa [hread] at h)
  refine ⟨hsyn, ?_⟩
  rw [hread, hsyn]
  rfl

/-- An upset of a data bit of a clean byte is corrected. -/
theorem Coded.read_upset_data (hi : i < 8) : (c.upset a i).read a = ⟨(c.read a).data, colD i, .corrData i⟩ := by
  obtain ⟨hsyn, hdata⟩ := Coded.clean_of_sound hc h
  have hnew : (c.upset a i).syn.get 0 a ^^^ c.fillCols a = colD i := by
    simp only [Coded.upset, hi, if_true, Sparse.get_set_same]
    exact flipped_of_xor_eq_zero hsyn _
  have hstored : (c.upset a i).data.get 0 a = c.data.get 0 a ^^^ (1#8 <<< i) := by
    simp only [Coded.upset, hi, if_true, Sparse.get_set_same]
  rw [Coded.read_of_sound (c := c.upset a i) (by simpa using hc), Coded.fillCols_upset, hnew, hstored, synClass_colD hi, hdata]
  simp only [SynClass.fix, BitVec.xor_assoc, BitVec.xor_self, BitVec.xor_zero]

/-- So is an upset of a check bit. -/
theorem Coded.read_upset_check (hi : i < 6) : (c.upset a (8 + i)).read a = ⟨(c.read a).data, colC i, .corrCheck⟩ := by
  obtain ⟨hsyn, hdata⟩ := Coded.clean_of_sound hc h
  have hbit : ¬ 8 + i < 8 := by omega
  have hnew : (c.upset a (8 + i)).syn.get 0 a ^^^ c.fillCols a = colC i := by
    simp only [Coded.upset, hbit, if_false, Sparse.get_set_same, Nat.add_sub_cancel_left]
    exact flipped_of_xor_eq_zero hsyn _
  have hstored : (c.upset a (8 + i)).data.get 0 a = c.data.get 0 a := by
    simp only [Coded.upset, hbit, if_false]
  rw [Coded.read_of_sound (c := c.upset a (8 + i)) (by simpa using hc), Coded.fillCols_upset, hnew, hstored, synClass_colC hi, hdata]
  rfl

/-- Either leaves a CORRECTED byte of the same data. -/
theorem Coded.read_upset (hi : i < 14) : ((c.upset a i).read a).data = (c.read a).data
    ∧ ((c.upset a i).read a).cls = if i < 8 then .corrData i else .corrCheck := by
  by_cases h8 : i < 8
  · rw [Coded.read_upset_data hc h h8, if_pos h8]
    exact ⟨rfl, rfl⟩
  · obtain ⟨k, rfl⟩ := Nat.exists_eq_add_of_le (Nat.le_of_not_lt h8)
    rw [Coded.read_upset_check hc h (by omega), if_neg h8]
    exact ⟨rfl, rfl⟩

end upset

/-! ## The rows of upsets -/

theorem exec_upset {x : Upset} (h : wfUpset x = true) (s : State) : exec (.upset x) s = .next (onDevice (upsetRow x) s) :=
  if_pos h

/-- An upset of one bit of a clean byte of an array with sound decoders (R147, R148). -/
theorem completes_upset_bit {s : State} {cls : Fin 7} {idx : Fin 18432} {off : Nat} {pos : Fin 14} (hwf : wfUpset (.bit cls idx off pos) = true)
    (hdec : (arrayAt s.dev cls.val idx.val).dec = []) (hclean : synClass ((arrayAt s.dev cls.val idx.val).read off).syn = .clean) :
    Completes (.upset (.bit cls idx off pos)) s fun d =>
      let c := arrayAt s.dev cls.val idx.val
      let e := arrayAt d cls.val idx.val
      (e.read off).data = (c.read off).data ∧ (e.read off).cls = (if pos.val < 8 then .corrData pos.val else .corrCheck)
      ∧ (∀ a, a ≠ off → e.read a = c.read a) ∧ d = setArray cls.val idx.val e s.dev := by
  have hat : arrayAt (upsetRow (.bit cls idx off pos) s.dev) cls.val idx.val = (arrayAt s.dev cls.val idx.val).upset off pos.val :=
    arrayAt_setArray ..
  obtain ⟨hdata, hclass⟩ := Coded.read_upset hdec hclean pos.isLt
  refine .of_onDevice (exec_upset hwf s) ⟨rfl, rfl, rfl, rfl⟩ ?_
  simp only [hat]
  exact ⟨hdata, hclass, fun a ha => Coded.read_upset_ne hdec ha, rfl⟩

theorem upsetRow_tap {b : BedId} {vert : Bool} {x : Fin 16} {l : Fin 4} {i : Fin 22} {k : Fin 4}
    (h : wfUpset (.tap b vert x l i k) = true) (s : Device) :
    upsetRow (.tap b vert x l i k) s = setBed b.val (upsetTap vert x.val l.val i.val k.val (bedAt s b.val)) s := by
  have hline : (vert && decide (16 ≤ i.val)) = false := by
    cases vert with
    | false => rfl
    | true => simpa [wfUpset] using h
  simp only [upsetRow, hline, Bool.false_eq_true, if_false]
  rfl

theorem place_one (n : Nat) : place n 1 = n * 2 := Nat.shiftLeft_eq n 1

/-- One bit of a flit on a ring is corrected and counted (R235). -/
theorem ringUpset_single {site ring pos : Nat} {f : Flit} {s : Device} (h : (slotHere s site ring pos).bind (·.flit) = some f) :
    ringUpset site ring pos false s = raise (ringSource (siteAt site)) 1 0x09 (pos * 2)
      (setRings (siteAt site) (fun r => { r with corr := if r.corr = BitVec.allOnes 16 then r.corr else r.corr + 1 }) s) := by
  simp only [ringUpset, h, Bool.not_false, if_true, place_one, ofNat_satAdd_one]

/-! ## BM_INJECT (R159) -/

/-- What BM_INJECT holds after a write of `v`: it is armed only with MEM and POS in range. -/
def injectOf (v : Word32) : BmInject :=
  let mem := v.extractLsb' 0 6
  let pos := v.extractLsb' 6 5
  { mem, pos, arm := v.getLsbD 11 && decide (mem.toNat < 48) && decide (pos.toNat < 20) }

theorem toNat_extractLsb'_eq_bitsAt (v : Word32) (lo w : Nat) : (v.extractLsb' lo w).toNat = bitsAt v.toNat lo w :=
  BitVec.extractLsb'_toNat ..

theorem ofNat_bitsAt (v : Word32) (lo w : Nat) : BitVec.ofNat w (bitsAt v.toNat lo w) = v.extractLsb' lo w := by
  rw [← toNat_extractLsb'_eq_bitsAt, BitVec.ofNat_toNat, BitVec.setWidth_eq]

theorem bitAt_toNat (v : Word32) (i : Nat) : bitAt v.toNat i = v.getLsbD i := by
  rw [bitAt, ← BitVec.testBit_toNat, Nat.testBit_eq_decide_div_mod_eq, Nat.shiftRight_eq_div_pow]
  rfl

section inject
variable {i : InitId} {n : Nat} {v : Word32} {s : Device}

theorem injectWrite_deployed (h : s.trust.lifecycle = .deployed) : injectWrite i n v.toNat s = noteAccess i (csrBase + bedOff n + 0xB08) s :=
  if_pos h

theorem injectWrite_open (h : s.trust.lifecycle ≠ .deployed) : injectWrite i n v.toNat s =
    csrRecord i (bedOff n + 0xB08) (injectReg (bedAt s n).inject) (injectReg (injectOf v))
      (setBed n { bedAt s n with inject := injectOf v } s) := by
  have hinject : ({ mem := BitVec.ofNat 6 (bitsAt v.toNat 0 6), pos := BitVec.ofNat 5 (bitsAt v.toNat 6 5)
                    arm := bitAt v.toNat 11 && decide (bitsAt v.toNat 0 6 < 48) && decide (bitsAt v.toNat 6 5 < 20) } : BmInject) = injectOf v := by
    simp only [injectOf, ofNat_bitsAt, bitAt_toNat, toNat_extractLsb'_eq_bitsAt]
  rw [injectWrite, if_neg h]
  simp only [hinject]
  rfl

theorem bedWrite_inject_decommissioned (h : s.trust.lifecycle = .decommissioned) : bedWrite i n 0xB08 v.toNat s = none := by
  simp only [bedWrite, h, if_true]
  rfl

theorem bedWrite_inject (hi : isMgmtCore i = true) (h : s.trust.lifecycle ≠ .decommissioned) :
    bedWrite i n 0xB08 v.toNat s = some (injectWrite i n v.toNat s) := by
  simp only [bedWrite, hi, h, if_true, if_false]
  rfl

/-- The row of BM_INJECT, where the lifecycle state lets the bed take the write. -/
theorem bmInjectRow {b : BedId} (hi : isMgmtCore i = true) (ha : RegAccepts s i (.bed b.val) (bedOff b.val) 0xB08 v.toNat (2 ^ 32 - 1))
    (h : s.trust.lifecycle ≠ .decommissioned) : regRow i (bedOff b.val + 0xB08) 4 v.toNat s = okay (injectWrite i b.val v.toNat s) :=
  regRow_bed (by decide) rfl v.isLt ha (bedWrite_inject hi h)

theorem bmInjectRow_decommissioned {b : BedId} (h : s.trust.lifecycle = .decommissioned) : regRow i (bedOff b.val + 0xB08) 4 v.toNat s =
    { noteAccess i (csrBase + bedOff b.val + 0xB08) s with answer := some (rcDenied, 0) } := by
  rw [Nat.add_assoc]
  exact regRow_bed_denied (by decide) rfl v.isLt (bedWrite_inject_decommissioned h)

end inject

end Sys2Proof.Machine
end

section
namespace Sys2Proof.Machine
open Sys2Proof

/-! ## One word of a rake (R154, R155) -/

/-- A rake one word on, at device time `now`. -/
def Rake.stepped (r : Rake) (now : Nat) : Rake :=
  { r with done := r.done + arrayWord r.cls, words := min (r.words + 1) (2 ^ 32 - 1), slotAt := now }

/-- A rake that has met a CORRECTED byte at `a`. -/
def Rake.sawCorrected (r : Rake) (a : Nat) (syn : BitVec 6) : Rake :=
  { r with corr := min (r.corr + 1) (2 ^ 32 - 1), firstCorr := some (r.firstCorr.getD (a, syn.toNat)) }

/-- A rake that has written a byte back. -/
def Rake.wroteBack (r : Rake) : Rake := { r with repaired := min (r.repaired + 1) (2 ^ 32 - 1) }

theorem corrected_ne {cls : SynClass} (h : cls.corrected = true) : cls ≠ .uncorrectable ∧ cls ≠ .address ∧ cls.bad = false := by
  cases cls <;> simp_all [SynClass.corrected, SynClass.bad]

section word
variable {old arr : Coded} {r : Rake} {skip : Nat → Bool} {a now : Nat}

theorem rakeByte_clean (h : (old.read a).cls = .clean) (c : Coded × Rake) : rakeByte old skip c a = c := by
  simp only [rakeByte, h, SynClass.corrected, SynClass.bad, Bool.and_false, Bool.false_and, Bool.false_eq_true, if_false, reduceCtorEq]

theorem rakeByte_corrected (h : (old.read a).cls.corrected = true) : rakeByte old (fun _ => false) (arr, r) a =
    if r.repairMode then (arr.write a (old.read a).data, (r.sawCorrected a (old.read a).syn).wroteBack)
    else (arr, r.sawCorrected a (old.read a).syn) := by
  obtain ⟨hunc, haddr, hbad⟩ := corrected_ne h
  simp only [rakeByte, h, hunc, haddr, hbad, Bool.and_true, Bool.not_false, Bool.false_eq_true, if_true, if_false]
  rfl

theorem foldl_range_eq_self {α : Type} {f : α → Nat → α} {n : Nat} (h : ∀ i < n, ∀ x, f x i = x) (x : α) : (List.range n).foldl f x = x := by
  induction n with
  | zero => rfl
  | succ n ih => rw [List.range_succ, List.foldl_append, ih fun i hi => h i (by omega), List.foldl_cons, List.foldl_nil, h n (by omega)]

/-- A fold over a range in which only step `j` acts. -/
theorem foldl_range_only {α : Type} {f : α → Nat → α} {n j : Nat} (hj : j < n) (h : ∀ i < n, i ≠ j → ∀ x, f x i = x) (x : α) :
    (List.range n).foldl f x = f x j := by
  induction n with
  | zero => omega
  | succ n ih =>
    rw [List.range_succ, List.foldl_append, List.foldl_cons, List.foldl_nil]
    rcases Nat.lt_succ_iff_lt_or_eq.1 hj with hlt | rfl
    · rw [ih hlt fun i hi => h i (by omega), h n (by omega) (by omega)]
    · rw [foldl_range_eq_self fun i hi => h i (by omega) (by omega)]

variable (hd : r.done < r.len)
include hd

theorem rakeWord_clean (h : ∀ i < arrayWord r.cls, (old.read (r.start + r.done + i)).cls = .clean) :
    rakeWord now old skip (arr, r) = (arr, r.stepped now) := by
  have hfold := foldl_range_eq_self (f := fun c i => rakeByte old skip c (r.start + r.done + i)) (fun i hi => rakeByte_clean (h i hi)) (arr, r)
  simp only [rakeWord, hd, if_true, hfold]
  rfl

theorem rakeWord_corrected {j : Nat} (hj : j < arrayWord r.cls) (hc : (old.read (r.start + r.done + j)).cls.corrected = true)
    (h : ∀ i < arrayWord r.cls, i ≠ j → (old.read (r.start + r.done + i)).cls = .clean) :
    let a := r.start + r.done + j
    let z := (r.stepped now).sawCorrected a (old.read a).syn
    rakeWord now old (fun _ => false) (arr, r) = if r.repairMode then (arr.write a (old.read a).data, z.wroteBack) else (arr, z) := by
  have hfold := foldl_range_only (f := fun c i => rakeByte old (fun _ => false) c (r.start + r.done + i)) hj
    (fun i hi hne => rakeByte_clean (h i hi hne)) (arr, r)
  rw [rakeByte_corrected hc] at hfold
  simp only [rakeWord, hd, if_true, hfold]
  split <;> rfl

end word

/-! ## Slots of a rake (R154) -/

theorem sameArrays_setArray (s : Device) (cls idx : Nat) : sameArrays s (setArray cls idx (arrayAt s cls idx) s) := by
  intro k
  by_cases hk : k = arrayKey cls idx
  · subst hk
    exact Sparse.get_set_same ..
  · exact Sparse.get_set_ne _ _ _ hk

section slots
variable {s : Device} {cls idx n : Nat} {r : Rake}

theorem rakeSlots_granted (hr : findRake s cls idx = some r) (hn : noCheck s cls idx = false) (hb : rakeable s cls idx = true) :
    rakeSlots n cls idx s = let p := rakeWords (devNs s) n (arrayAt s cls idx, r); putRake p.2 (setArray cls idx p.1 s) := by
  simp only [rakeSlots, hr, hn, hb, Bool.not_true, Bool.or_self, Bool.false_eq_true, if_false]

/-- An array other than a block memory can be raked at any time (R153, R157). -/
theorem rakeSlot_granted (hcls : cls ≠ 0) (hr : findRake s cls idx = some r) : rakeSlot cls idx s =
    let p := rakeWord (devNs s) (arrayAt s cls idx) (fun _ => false) (arrayAt s cls idx, r); putRake p.2 (setArray cls idx p.1 s) := by
  have hn : noCheck s cls idx = false := by simp [noCheck, hcls]
  have hb : rakeable s cls idx = true := by simp [rakeable, hcls]
  rw [rakeSlot, if_neg hcls, rakeSlots_granted hr hn hb]
  rfl

theorem rakeSkip_due (hcls : cls = 0) (hr : findRake s cls idx = some r) (hd : r.done < r.len) (hst : (bedAt s (idx / 48)).st = .running)
    (hn : noCheck s 0 idx = false) (ht : r.slotAt + 1000000 ≤ devNs s) : rakeSkip cls idx s =
      putRake { r with done := r.done + 8, skipped := min (r.skipped + 1) (2 ^ 32 - 1), slotAt := devNs s } s := by
  subst hcls
  simp only [rakeSkip, hr, hd, hst, hn, ht, Bool.not_false, and_self, if_true]
  rfl

end slots

end Sys2Proof.Machine
end

section
namespace Sys2Proof.Machine
open Sys2Proof

/-! ## Replies (R416, R436) -/

/-- `d` is `s` with a reply held: the fields of the command interface and the vectors may differ, not what is in progress or parked. -/
structure ReplyHeld (s d : Device) : Prop where
  rest : d = { s with mgmt := d.mgmt, msix := d.msix }
  progress : d.mgmt.progress = s.mgmt.progress
  parked : d.mgmt.parked = s.mgmt.parked

theorem ReplyHeld.refl (s : Device) : ReplyHeld s s := ⟨rfl, rfl, rfl⟩

theorem ReplyHeld.trans {s d e : Device} (h : ReplyHeld s d) (h' : ReplyHeld d e) : ReplyHeld s e where
  rest := by
    have h1 := h'.rest
    rw [h.rest] at h1
    exact h1
  progress := h'.progress.trans h.progress
  parked := h'.parked.trans h.parked

theorem replyHeld_mapWindow (session : Bool) (c : Ctx) (f : SeqWin → SeqWin) (s : Device) : ReplyHeld s (mapWindow session c f s) := by
  unfold mapWindow
  split
  · exact ⟨rfl, rfl, rfl⟩
  · split
    · split
      · exact ⟨rfl, rfl, rfl⟩
      · exact .refl s
    · exact .refl s

theorem replyHeld_raiseMsix (ld v : Nat) (s : Device) : ReplyHeld s (raiseMsix ld v s) := by
  unfold raiseMsix
  dsimp only
  split <;> exact ⟨rfl, rfl, rfl⟩

theorem replyHeld_holdReply (inst : Inst) (r : Reply) (s : Device) : ReplyHeld s (holdReply inst r s) := by
  have hput (t : Device) (l : List (Inst × Reply)) : ReplyHeld t { t with mgmt := { t.mgmt with replies := l } } := ⟨rfl, rfl, rfl⟩
  unfold holdReply
  split
  · exact (replyHeld_raiseMsix ..).trans (hput ..)
  · exact hput ..

theorem replyHeld_answerCmd (session : Bool) (c : Ctx) (status rflags : Nat) (payload : List Byte) (s : Device) :
    ReplyHeld s (answerCmd session c status rflags payload s) :=
  (replyHeld_mapWindow ..).trans (replyHeld_holdReply ..)

/-- A command that ends is no longer in progress, and its reply is held or muted. -/
theorem replyHeld_finish (p : Progress) (status : Nat) (payload : List Byte) (s : Device) :
    ReplyHeld { s with mgmt := { s.mgmt with progress := s.mgmt.progress.filter (·.inst ≠ p.inst) } } (finish p status payload s) := by
  unfold finish
  dsimp only
  split
  · exact replyHeld_mapWindow ..
  · exact replyHeld_answerCmd ..

/-- Where it was the only command in progress, nothing is left to settle. -/
theorem mgmtQuiet_finish {p : Progress} {s : Device} (hr : s.rakes = []) (hp : s.mgmt.progress = [p]) (hk : s.mgmt.parked = [])
    (status : Nat) (payload : List Byte) : MgmtQuiet (finish p status payload s) := by
  obtain ⟨hrest, hprogress, hparked⟩ := replyHeld_finish p status payload s
  refine ⟨?_, ?_, hparked.trans hk⟩
  · rw [hrest]
    exact hr
  · rw [hprogress]
    simp [hp]

theorem arrays_finish (p : Progress) (status : Nat) (payload : List Byte) (s : Device) : (finish p status payload s).arrays = s.arrays := by
  rw [(replyHeld_finish p status payload s).rest]

theorem sameFuses_finish (p : Progress) (status : Nat) (payload : List Byte) (s : Device) : SameFuses s (finish p status payload s) := by
  rw [(replyHeld_finish p status payload s).rest]
  exact ⟨rfl, rfl, rfl, rfl⟩

/-! ## The end of a pass (R156, R157) -/

/-- The fault of a class for the first byte of its kind, if the pass met one (R156, R537). -/
def firstReported (cls idx : Nat) (k : Fin 5) (cause : Nat) (hit : Option (Nat × Nat)) (e : Device) : Device :=
  (hit.map fun h => raise (arraySource cls idx) k cause (sramDetail cls h.1 (BitVec.ofNat 6 h.2)) e).getD e

/-- The faults of a pass that has ended. -/
def passReported (z : Rake) (e : Device) : Device :=
  firstReported z.cls z.index 2 0x02 z.firstBad (firstReported z.cls z.index 1 0x01 z.firstCorr e)

theorem passReported_rest (z : Rake) (e : Device) : passReported z e = { e with flt := (passReported z e).flt } := by
  unfold passReported firstReported
  cases z.firstCorr <;> cases z.firstBad <;> rfl

/-- `t` is `s` with the one rake gone on to `z`, its arrays reading as before. -/
structure RakeWentOn (s t : Device) (z : Rake) : Prop where
  rest : t = { s with rakes := [z], arrays := t.arrays }
  arrays : sameArrays s t

section passEnd
variable {s t : Device} {r z : Rake} {p : Progress}

theorem RakeWentOn.of_putRake (hs : s.rakes = [r]) (hc : z.cls = r.cls) (hi : z.index = r.index) (cls idx : Nat) :
    RakeWentOn s (putRake z (setArray cls idx (arrayAt s cls idx) s)) z := by
  refine ⟨?_, sameArrays_setArray s cls idx⟩
  simp [putRake, setArray, hs, hc, hi]

/-- The only rake of the device ends: its faults, and the reply of its command, which alone is in progress. -/
theorem closeRake_single (hr : s.rakes = [z]) (hp : s.mgmt.progress = [p]) (hi : p.inst = z.inst) (ho : p.opcode = 0x0402) :
    closeRake z false s = finish p 0 (z.summary false (devNs s)) (passReported z { s with rakes := [] }) := by
  have hrakes : (s.rakes.filter fun x => !(x.cls = z.cls && x.index = z.index)) = [] := by simp [hr]
  have hclose : closeRake z false s =
      let e := passReported z { s with rakes := [] }
      match inProgress z.inst e with
      | some p => if p.opcode.toNat = opRakeCode then finish p stOk (z.summary false (devNs e)) e else e
      | none => e := by
    rw [← hrakes, passReported, firstReported, firstReported, closeRake]
    cases z.firstCorr <;> cases z.firstBad <;> rfl
  have hfind : inProgress z.inst (passReported z { s with rakes := [] }) = some p := by
    rw [passReported_rest]
    simp [inProgress, hp, hi]
  have htime : devNs (passReported z { s with rakes := [] }) = devNs s := by
    rw [passReported_rest]
    rfl
  simp only [hclose, hfind, htime]
  exact if_pos (by rw [ho]; rfl)

/-- A pass whose range is done ends with the next look at the passes. -/
theorem settleRakes_done (hr : s.rakes = [z]) (hd : z.len ≤ z.done) : settleRakes s = closeRake z false s := by
  simp only [settleRakes, hr, List.foldl_cons, List.foldl_nil, hd, if_true]

theorem findRake_single (hs : s.rakes = [r]) : findRake s r.cls r.index = some r := by
  simp [findRake, hs]

theorem RakeWentOn.refl (hs : s.rakes = [r]) : RakeWentOn s s r := ⟨by rw [← hs], fun _ => rfl⟩

theorem rakeWentOn_noSlots (hs : s.rakes = [r]) : RakeWentOn s (rakeSlots 0 r.cls r.index s) r := by
  simp only [rakeSlots, findRake_single hs]
  split
  · exact .refl hs
  · exact .of_putRake hs rfl rfl ..

/-- The last slot of a pass, over a word that reads clean. -/
theorem rakeWentOn_lastSlot (hs : s.rakes = [r]) (hn : noCheck s r.cls r.index = false) (hb : rakeable s r.cls r.index = true) (hd : r.done < r.len)
    (hw : ∀ i < arrayWord r.cls, ((arrayAt s r.cls r.index).read (r.start + r.done + i)).cls = .clean) :
    RakeWentOn s (rakeSlots 1 r.cls r.index s) (r.stepped (devNs s)) := by
  have hword : rakeWords (devNs s) 1 (arrayAt s r.cls r.index, r) = (arrayAt s r.cls r.index, r.stepped (devNs s)) := rakeWord_clean hd hw
  rw [rakeSlots_granted (findRake_single hs) hn hb, hword]
  exact .of_putRake (z := r.stepped (devNs s)) hs rfl rfl ..

/-- RAKE_PASS_END over a range that is done once its last slots have come. -/
theorem settle_settleRakes (ht : RakeWentOn s t z) (hd : z.len ≤ z.done) (hp : s.mgmt.progress = [p]) (hi : p.inst = z.inst)
    (ho : p.opcode = 0x0402) (hk : s.mgmt.parked = []) : settle (settleRakes t) =
      finish p 0 (z.summary false (devNs s)) (passReported z { s with rakes := [], arrays := t.arrays }) := by
  have hrakes : t.rakes = [z] := by rw [ht.rest]
  have hmgmt : t.mgmt = s.mgmt := by rw [ht.rest]
  have htime : devNs t = devNs s := by rw [ht.rest]; rfl
  have hend : { t with rakes := [] } = { s with rakes := [], arrays := t.arrays } := by rw [ht.rest]
  rw [settleRakes_done hrakes hd, closeRake_single hrakes (hmgmt ▸ hp) hi ho, htime, hend]
  refine settle_of_quiet (mgmtQuiet_finish ?_ ?_ ?_ ..) <;> rw [passReported_rest]
  · exact hp
  · exact hk

end passEnd

section rows
variable {i : Instr} {s : State} {r z : Rake}

/-- The pass ends: its faults are reported, and its command is answered with the summary record (R156, R157). -/
theorem completes_passEnd {p : Progress} {t : Device} (hx : exec i s = .next (onDevice (fun s => settle (rakePassEnd r.cls r.index s)) s))
    (he : rakePassEnd r.cls r.index s.dev = settleRakes t) (ht : RakeWentOn s.dev t z) (hd : z.len ≤ z.done) (hp : s.dev.mgmt.progress = [p])
    (hi : p.inst = z.inst) (ho : p.opcode = 0x0402) (hk : s.dev.mgmt.parked = []) : Completes i s fun d => sameArrays s.dev d
      ∧ d = finish p 0 (z.summary false (devNs s.dev)) (passReported z { s.dev with rakes := [], arrays := d.arrays }) := by
  have heq : settle (rakePassEnd r.cls r.index s.dev) =
      finish p 0 (z.summary false (devNs s.dev)) (passReported z { s.dev with rakes := [], arrays := t.arrays }) := by
    rw [he]
    exact settle_settleRakes ht hd hp hi ho hk
  have harr : (settle (rakePassEnd r.cls r.index s.dev)).arrays = t.arrays := by
    rw [heq, arrays_finish, passReported_rest]
  refine .of_onDevice hx ?_ ⟨?_, ?_⟩
  · rw [heq]
    refine SameFuses.trans ?_ (sameFuses_finish ..)
    rw [passReported_rest]
    exact ⟨rfl, rfl, rfl, rfl⟩
  · intro k
    rw [harr]
    exact ht.arrays k
  · rw [harr]
    exact heq

end rows

end Sys2Proof.Machine
end

section
namespace Sys2Proof.Machine
open Sys2Proof

/-! ## The rows of a rake (R154 to R157) -/

section slot
variable {i : Instr} {s : State} {r : Rake} (hx : exec i s = .next (onDevice (rakeSlot r.cls r.index) s)) (hcls : r.cls ≠ 0)
  (hr : findRake s.dev r.cls r.index = some r) (hd : r.done < r.len)
include hx hcls hr hd

/-- A slot whose word reads clean. -/
theorem completes_slot_clean (h : ∀ i < arrayWord r.cls, ((arrayAt s.dev r.cls r.index).read (r.start + r.done + i)).cls = .clean) :
    Completes i s fun d => d = putRake (r.stepped (devNs s.dev)) { s.dev with arrays := d.arrays } ∧ sameArrays s.dev d := by
  have hslot := rakeSlot_granted hcls hr
  rw [rakeWord_clean hd h] at hslot
  refine .of_onDevice hx ?_ ?_ <;> rw [hslot]
  · exact ⟨rfl, rfl, rfl, rfl⟩
  · exact ⟨rfl, fun k => sameArrays_setArray s.dev r.cls r.index k⟩

section corrected
variable {j : Nat} (hj : j < arrayWord r.cls) (hc : ((arrayAt s.dev r.cls r.index).read (r.start + r.done + j)).cls.corrected = true)
  (h : ∀ i < arrayWord r.cls, i ≠ j → ((arrayAt s.dev r.cls r.index).read (r.start + r.done + i)).cls = .clean)
include hj hc h

/-- A slot whose word has one CORRECTED byte, in REPAIR. -/
theorem completes_slot_repair (hdec : (arrayAt s.dev r.cls r.index).dec = []) (hm : r.repairMode = true) :
    let c := arrayAt s.dev r.cls r.index
    let a := r.start + r.done + j
    Completes i s fun d =>
      d = putRake ((r.stepped (devNs s.dev)).sawCorrected a (c.read a).syn).wroteBack { s.dev with arrays := d.arrays }
      ∧ (arrayAt d r.cls r.index).read a = ⟨(c.read a).data, 0, .clean⟩
      ∧ (∀ k, k ≠ a → (arrayAt d r.cls r.index).read k = c.read k)
      ∧ ∀ k, k ≠ arrayKey r.cls r.index → d.arrays.get Coded.filled k = s.dev.arrays.get Coded.filled k := by
  intro c a
  have hslot := rakeSlot_granted hcls hr
  rw [rakeWord_corrected hd hj hc h, hm] at hslot
  have hat : arrayAt (rakeSlot r.cls r.index s.dev) r.cls r.index = c.write a (c.read a).data := by
    rw [hslot]
    exact arrayAt_setArray ..
  refine .of_onDevice hx ?_ ⟨?_, ?_, fun k hk => ?_, fun k hk => ?_⟩
  · rw [hslot]
    exact ⟨rfl, rfl, rfl, rfl⟩
  · rw [hslot]
    rfl
  · rw [hat, Coded.read_write_same hdec]
  · rw [hat, Coded.read_write_ne hdec _ hk]
  · rw [hslot]
    exact Sparse.get_set_ne _ _ _ hk

/-- A slot whose word has one CORRECTED byte, outside REPAIR. -/
theorem completes_slot_noted (hm : r.repairMode = false) :
    let a := r.start + r.done + j
    Completes i s fun d => d = putRake ((r.stepped (devNs s.dev)).sawCorrected a ((arrayAt s.dev r.cls r.index).read a).syn)
      { s.dev with arrays := d.arrays } ∧ sameArrays s.dev d := by
  intro a
  have hslot := rakeSlot_granted hcls hr
  rw [rakeWord_corrected hd hj hc h, hm] at hslot
  refine .of_onDevice hx ?_ ?_ <;> rw [hslot]
  · exact ⟨rfl, rfl, rfl, rfl⟩
  · exact ⟨rfl, fun k => sameArrays_setArray s.dev r.cls r.index k⟩

end corrected
end slot

theorem arrayWord_pos {cls : Nat} (h : cls < 7) : 0 < arrayWord cls := by
  revert cls; decide

theorem forall_range_map {α : Type} {f : Nat → α} {P : α → Prop} {n : Nat} : (∀ v ∈ (List.range n).map f, P v) ↔ ∀ i < n, P (f i) := by
  simp only [List.forall_mem_map, List.mem_range]

/-! ## The last slots of a pass -/

section passEnd
variable {s : Device} {r : Rake} (hs : s.rakes = [r])
include hs

theorem rakePassEnd_done (h : r.done = r.len) : ∃ t, rakePassEnd r.cls r.index s = settleRakes t ∧ RakeWentOn s t r := by
  have hn : (r.len - r.done) / arrayWord r.cls = 0 := by rw [h, Nat.sub_self, Nat.zero_div]
  simp only [rakePassEnd, findRake_single hs, hn]
  split
  · exact ⟨_, rfl, .refl hs⟩
  · exact ⟨_, rfl, rakeWentOn_noSlots hs⟩

theorem rakePassEnd_lastSlot (hw : 0 < arrayWord r.cls) (hd : r.done + arrayWord r.cls = r.len)
    (hc : ∀ i < arrayWord r.cls, ((arrayAt s r.cls r.index).read (r.start + r.done + i)).cls = .clean)
    (hn : noCheck s r.cls r.index = false) (hb : rakeable s r.cls r.index = true) (hst : r.cls = 0 → (bedAt s (r.index / 48)).st ≠ .running) :
    ∃ t, rakePassEnd r.cls r.index s = settleRakes t ∧ RakeWentOn s t (r.stepped (devNs s)) := by
  have h1 : (r.len - r.done) / arrayWord r.cls = 1 := by rw [← hd, Nat.add_sub_cancel_left, Nat.div_self hw]
  have hslot : ¬ (r.cls = 0 ∧ (bedAt s (r.index / 48)).st = .running) := fun h => hst h.1 h.2
  simp only [rakePassEnd, findRake_single hs, hslot, if_false, h1]
  exact ⟨_, rfl, rakeWentOn_lastSlot hs hn hb (by omega) hc⟩

end passEnd

/-- Settles O22: an upset by what it leaves to be read (`Coded.read_upset`), BM_INJECT by the register row of its bed, a slot of a rake by
the one byte of its word that is not clean (`rakeWord_corrected`), the end of a pass by what ends its only rake (`completes_passEnd`). -/
theorem codedArrays : Obligations.CodedArrays := by
  unfold Obligations.CodedArrays
  refine ⟨fun s => ⟨fun cls idx off pos hwf hdec hclean => completes_upset_bit hwf hdec hclean,
    fun cls idx line stuck hwf => .of_eq (exec_upset hwf s) rfl ⟨rfl, rfl, rfl, rfl⟩,
    fun i b v hi ha => ⟨fun h1 h2 => ?_, fun h => ?_, fun h => .of_eq rfl (bmInjectRow_decommissioned h) ⟨rfl, rfl, rfl, rfl⟩⟩,
    fun b vert x l i k hwf => .of_eq (exec_upset hwf s) (upsetRow_tap hwf s.dev) ⟨rfl, rfl, rfl, rfl⟩,
    fun site ring pos f hwf hf => .of_eq (exec_upset hwf s) (ringUpset_single hf) (.of_eq (by simp) (by simp))⟩,
    fun s cls idx r hr hcls hidx => ?_⟩
  · exact .of_eq rfl ((bmInjectRow hi ha h2).trans (congrArg okay (injectWrite_open h1))) (sameFuses_bedRecorded ..)
  · exact .of_eq rfl ((bmInjectRow hi ha (by simp [h])).trans (congrArg okay (injectWrite_deployed h))) ⟨rfl, rfl, rfl, rfl⟩
  · obtain ⟨cls, hlt⟩ := cls
    obtain ⟨idx, _⟩ := idx
    dsimp only at hr hcls hidx ⊢
    subst hcls hidx
    have hcls0 : (⟨r.cls, hlt⟩ : Fin 7) = 0 ↔ r.cls = 0 := Fin.ext_iff
    refine ⟨fun h0 hd hst hn ht => ?_, fun h0 => ?_, fun h0 hd hdec => ⟨fun hw => ?_, fun j hj hc hw => ⟨fun hm => ?_, fun hm => ?_⟩⟩,
      fun p z hz hs hp hi ho hk => ?_⟩
    · exact .of_eq rfl (rakeSkip_due (hcls0.1 h0) hr hd hst hn ht) ⟨rfl, rfl, rfl, rfl⟩
    · exact completes_unchanged rfl (if_pos (hcls0.1 h0))
    · exact completes_slot_clean rfl (mt hcls0.2 h0) hr hd (forall_range_map.1 hw)
    · exact completes_slot_repair rfl (mt hcls0.2 h0) hr hd hj hc hw hdec hm
    · exact completes_slot_noted rfl (mt hcls0.2 h0) hr hd hj hc hw hm
    · obtain ⟨hd, rfl⟩ | ⟨hd, rfl, hw, -, hn, hb, hst⟩ := hz
      · obtain ⟨t, he, ht⟩ := rakePassEnd_done hs hd
        exact completes_passEnd rfl he ht (Nat.le_of_eq hd.symm) hp hi ho hk
      · obtain ⟨t, he, ht⟩ := rakePassEnd_lastSlot hs (arrayWord_pos hlt) hd (forall_range_map.1 hw) hn hb fun h => hst (hcls0.2 h)
        exact completes_passEnd rfl he ht (Nat.le_of_eq hd.symm) hp hi ho hk

end Sys2Proof.Machine
end

section
namespace Sys2Proof.Machine
open Sys2Proof

/-! ## Channel ends of a bed (R107) -/

section ends
variable (b : Bed) (k : Nat) (c : ChanSt)

theorem chan_setChan (j : Nat) : chan (setChan k c b) j = if j = k then c else chan b j := Sparse.get_set ..

@[simp] theorem setChan_st : (setChan k c b).st = b.st := rfl

/-- A bed with the channel ends and the counts of sunk tokens of another. -/
def Bed.withEnds (x y : Bed) : Bed := { x with border := { x.border with chans := y.border.chans, sunk := y.border.sunk } }

end ends

/-- Only channel ends of beds, and their counts of sunk tokens, may differ. -/
structure OnlyEnds (s d : Device) : Prop where
  beds : ∀ m, bedAt d m = (bedAt s m).withEnds (bedAt d m)
  rest : d = { s with beds := d.beds }

theorem OnlyEnds.refl (s : Device) : OnlyEnds s s := ⟨fun _ => rfl, rfl⟩

theorem OnlyEnds.trans {a b c : Device} (h : OnlyEnds a b) (h' : OnlyEnds b c) : OnlyEnds a c where
  beds m := by
    have hb := congrArg (Bed.withEnds · (bedAt c m)) (h.beds m)
    exact (h'.beds m).trans hb
  rest := by rw [h'.rest, h.rest]

theorem OnlyEnds.foldl {α : Type} {f : Device → α → Device} (hf : ∀ s a, OnlyEnds s (f s a)) (l : List α) (s : Device) :
    OnlyEnds s (l.foldl f s) := by
  induction l generalizing s with
  | nil => exact .refl s
  | cons a l ih => exact (hf s a).trans (ih _)

theorem onlyEnds_modBed {n : Nat} {f : Bed → Bed} {s : Device} (hf : ∀ b, f b = b.withEnds (f b)) : OnlyEnds s (modBed n f s) where
  beds m := by
    by_cases hm : m = n
    · rw [hm, modBed_eq, bedAt_setBed]
      exact hf _
    · rw [modBed_eq, bedAt_setBed_ne s _ hm]
      rfl
  rest := rfl

/-- A change of one channel end of one bed leaves every other as it was. -/
theorem chan_modBed_modChan (n j m k : Nat) (f : ChanSt → ChanSt) (s : Device) :
    chan (bedAt (modBed n (modChan j f) s) m) k = if m = n ∧ k = j then f (chan (bedAt s m) k) else chan (bedAt s m) k := by
  by_cases hm : m = n
  · subst hm
    rw [modBed_eq, bedAt_setBed, modChan, chan_setChan]
    by_cases hk : k = j <;> simp [hk]
  · rw [modBed_eq, bedAt_setBed_ne s _ hm]
    simp [hm]

/-! ## The transfers of a boundary (R112, R113) -/

section transfers
variable (n : Nat) (s : Device)

theorem onlyEnds_captureOut (x : Nat × BitVec 128) : OnlyEnds s (captureOut n s x) := by
  unfold captureOut
  dsimp only
  split
  · exact onlyEnds_modBed fun _ => rfl
  · exact onlyEnds_modBed fun _ => rfl

theorem onlyEnds_returnCredit (b k m : Nat) : OnlyEnds s (returnCredit s b k m) := by
  unfold returnCredit
  split
  · exact onlyEnds_modBed fun _ => rfl
  · exact .refl s

theorem onlyEnds_takeIn (k : Nat) : OnlyEnds s (takeIn n s k) := by
  unfold takeIn
  dsimp only
  split
  · exact .refl s
  · refine .trans ?_ (onlyEnds_returnCredit ..)
    split
    · refine .trans ?_ (.foldl (fun _ _ => onlyEnds_modBed fun _ => rfl) _ _)
      exact onlyEnds_modBed fun _ => rfl
    · exact onlyEnds_modBed fun _ => rfl

theorem onlyEnds_levelOut (first : Bool) (x : Nat × Word32) : OnlyEnds s (levelOut n first s x) := by
  unfold levelOut
  dsimp only
  split
  · exact onlyEnds_modBed fun _ => rfl
  · exact .refl s

theorem onlyEnds_loadLevels : OnlyEnds s (loadLevels n s) := .foldl (fun _ _ => onlyEnds_modBed fun _ => rfl) _ s

/-- Returned credits change nothing else of any channel end. -/
theorem chan_returnCredit (b j m i k : Nat) : chan (bedAt (returnCredit s b j m) i) k =
    { chan (bedAt s i) k with credBack := (chan (bedAt (returnCredit s b j m) i) k).credBack } := by
  unfold returnCredit
  split
  · rw [chan_modBed_modChan]
    split <;> rfl
  · rfl

/-- The levels that a bed shows are no other change of a channel end than of what arrives at it. -/
theorem chan_loadLevels (k : Nat) : chan (bedAt (loadLevels n s) n) k =
    { chan (bedAt s n) k with arrive := (chan (bedAt (loadLevels n s) n) k).arrive } := by
  unfold loadLevels
  refine List.foldlRecOn (motive := fun d => chan (bedAt d n) k = { chan (bedAt s n) k with arrive := (chan (bedAt d n) k).arrive })
    _ _ rfl fun d hd j _ => ?_
  rw [chan_modBed_modChan]
  split
  · rw [hd]
  · exact hd

/-- They change no end that is not of an incoming level channel. -/
theorem chan_loadLevels_of_ne {k : Nat} (h : chKind (chan (bedAt s n) k).cfg ≠ 4) :
    chan (bedAt (loadLevels n s) n) k = chan (bedAt s n) k := by
  unfold loadLevels
  refine List.foldlRecOn (motive := fun d => chan (bedAt d n) k = chan (bedAt s n) k) _ _ rfl fun d hd j hj => ?_
  have hne : k ≠ j := by
    rintro rfl
    exact h (by simpa using (List.mem_filter.1 hj).2)
  rw [chan_modBed_modChan, if_neg fun e => hne e.2, hd]

/-- The transfers of a boundary are done, and the next user cycle has not begun. -/
def transferred (bd : Boundary) : Device :=
  loadLevels n (bd.levels.foldl (levelOut n (decide ((bedAt s n).cycle = 0))) (bd.ins.foldl (takeIn n) (bd.outs.foldl (captureOut n) s)))

theorem onlyEnds_transferred (bd : Boundary) : OnlyEnds s (transferred n s bd) :=
  (((OnlyEnds.foldl (onlyEnds_captureOut n) bd.outs s).trans (.foldl (onlyEnds_takeIn n) bd.ins _)).trans
    (.foldl (fun s => onlyEnds_levelOut n s _) bd.levels _)).trans (onlyEnds_loadLevels n _)

/-! ### What is captured, taken and sent -/

variable {k : Nat}

/-- An outgoing channel captures its payload for the end that it has now, at the cost of a credit across dies. -/
theorem chan_captureOut (v : BitVec 128) (h : sinks s n k = false) : chan (bedAt (captureOut n s (k, v)) n) k =
    { chan (bedAt s n) k with
      tx := (chan (bedAt s n) k).tx ++ [⟨v, captureDest s n k⟩]
      credits := (chan (bedAt s n) k).credits - if crossDie s n (k / 64) (k % 64) then 1 else 0 } := by
  simp only [captureOut, h, Bool.false_eq_true, if_false, chan_modBed_modChan, and_self, if_true]

/-- An incoming channel that leads no stream takes its head token; the credit of it may start back to this very end. -/
theorem chan_takeIn {v : BitVec 128} {q : List (BitVec 128)} (hf : (chan (bedAt s n) k).fifo = v :: q)
    (hs : streamOf n (k / 64) (k % 64) = none) : ∃ m, chan (bedAt (takeIn n s k) n) k =
      { chan (bedAt s n) k with fifo := q, arrive := v.setWidth 32, credBack := m } := by
  simp only [takeIn, hf, hs, Option.isSome_none, Bool.false_eq_true, if_false]
  rw [chan_returnCredit, modBed_eq, bedAt_setBed, chan_setChan, if_pos rfl]
  exact ⟨_, rfl⟩

/-- A level channel takes a new value, which sets out for the partner that it has now. -/
theorem chan_levelOut (first : Bool) {v : Word32} (h : (chan (bedAt s n) k).level ≠ v) : chan (bedAt (levelOut n first s (k, v)) n) k =
    { chan (bedAt s n) k with
      level := v, levels := (chan (bedAt s n) k).levels ++ [(v, partner s n (k / 64) (k % 64))] } := by
  simp only [levelOut, ne_eq, h, not_false_eq_true, decide_true, Bool.or_true, if_true]
  rw [modBed_eq, bedAt_setBed, chan_setChan, if_pos rfl]

end transfers

/-! ## The next user cycle begins -/

section cycle
variable (n : Nat) (s : Device)

/-- The pins are sampled into the bed, at the cost of a free value. -/
theorem bedAt_samplePins : bedAt (samplePins n s) n =
    { bedAt s n with pinE := (bedAt (samplePins n s) n).pinE, pinW := (bedAt (samplePins n s) n).pinW } := by
  unfold samplePins
  split
  · rfl
  · dsimp only
    rw [modBed_eq, bedAt_setBed]
    split <;> rfl

theorem samplePins_rest : samplePins n s = { s with beds := (samplePins n s).beds, free := (samplePins n s).free } := by
  unfold samplePins
  split <;> rfl

/-- The bed at φ0 of the user cycle that follows a completed boundary. -/
def nextCycle (bd : Boundary) (b : Bed) : Bed :=
  startCycle { restart b with cycle := b.cycle + 1, border := { b.border with bound := none }, pinOut := bd.pins.1, pinEn := bd.pins.2 }

variable (bd : Boundary)

theorem completeBoundary_eq : completeBoundary n bd s = samplePins n (modBed n (nextCycle bd) (transferred n s bd)) := rfl

theorem bedAt_completeBoundary : bedAt (completeBoundary n bd s) n =
    { nextCycle bd (bedAt (transferred n s bd) n) with
      pinE := (bedAt (completeBoundary n bd s) n).pinE, pinW := (bedAt (completeBoundary n bd s) n).pinW } := by
  have h := bedAt_samplePins n (modBed n (nextCycle bd) (transferred n s bd))
  rwa [← completeBoundary_eq, modBed_eq, bedAt_setBed] at h

theorem completeBoundary_rest : completeBoundary n bd s =
    { s with beds := (completeBoundary n bd s).beds, free := (completeBoundary n bd s).free } := by
  have h := samplePins_rest n (modBed n (nextCycle bd) (transferred n s bd))
  rw [← completeBoundary_eq] at h
  rw [h, modBed_eq, (onlyEnds_transferred n s bd).rest]
  rfl

theorem chan_completeBoundary (k : Nat) : chan (bedAt (completeBoundary n bd s) n) k = chan (bedAt (transferred n s bd) n) k := by
  rw [bedAt_completeBoundary]
  rfl

section transfer
variable {n s bd} {k : Nat}

/-- Where a boundary has one token to send, its channel captures it. -/
theorem completeBoundary_out {v : BitVec 128} (hs : sinks s n k = false) (ho : bd.outs = [(k, v)]) (hi : bd.ins = []) (hl : bd.levels = []) :
    (chan (bedAt (completeBoundary n bd s) n) k).tx = (chan (bedAt s n) k).tx ++ [⟨v, captureDest s n k⟩]
    ∧ (chan (bedAt (completeBoundary n bd s) n) k).credits
      = (chan (bedAt s n) k).credits - if crossDie s n (k / 64) (k % 64) then 1 else 0 := by
  have h := chan_captureOut n s v hs
  rw [chan_completeBoundary, transferred, ho, hi, hl, chan_loadLevels]
  exact ⟨congrArg ChanSt.tx h, congrArg ChanSt.credits h⟩

/-- Where it has one token to take, its channel takes it, and shows no level in its place. -/
theorem completeBoundary_in {v : BitVec 128} {q : List (BitVec 128)} (hf : (chan (bedAt s n) k).fifo = v :: q)
    (hk : chKind (chan (bedAt s n) k).cfg = 2) (hs : streamOf n (k / 64) (k % 64) = none) (ho : bd.outs = []) (hi : bd.ins = [k])
    (hl : bd.levels = []) : (chan (bedAt (completeBoundary n bd s) n) k).fifo = q
      ∧ (chan (bedAt (completeBoundary n bd s) n) k).arrive = v.setWidth 32 := by
  obtain ⟨m, h⟩ := chan_takeIn n s hf hs
  have hkind : chKind (chan (bedAt (takeIn n s k) n) k).cfg ≠ 4 := by
    rw [h, hk]
    decide
  rw [chan_completeBoundary, transferred, ho, hi, hl, List.foldl_nil, List.foldl_nil, List.foldl_cons, List.foldl_nil,
    chan_loadLevels_of_ne _ _ hkind, h]
  exact ⟨rfl, rfl⟩

/-- Where it has one level to send that is new, its channel takes it. -/
theorem completeBoundary_level {v : Word32} (hv : (chan (bedAt s n) k).level ≠ v) (ho : bd.outs = []) (hi : bd.ins = [])
    (hl : bd.levels = [(k, v)]) : (chan (bedAt (completeBoundary n bd s) n) k).level = v
      ∧ (chan (bedAt (completeBoundary n bd s) n) k).levels
        = (chan (bedAt s n) k).levels ++ [(v, partner s n (k / 64) (k % 64))] := by
  have h := chan_levelOut n s (decide ((bedAt s n).cycle = 0)) hv
  rw [chan_completeBoundary, transferred, ho, hi, hl, chan_loadLevels]
  exact ⟨congrArg ChanSt.level h, congrArg ChanSt.levels h⟩

end transfer

/-- Of the bed as it was, only its channel ends, what the next cycle sets and the sampled pins differ. -/
theorem bedAt_completeBoundary_withEnds : ∃ y pe pw,
    bedAt (completeBoundary n bd s) n = { nextCycle bd ((bedAt s n).withEnds y) with pinE := pe, pinW := pw } := by
  have h := bedAt_completeBoundary n s bd
  rw [(onlyEnds_transferred n s bd).beds n] at h
  exact ⟨_, _, _, h⟩

theorem sameFuses_completeBoundary : SameFuses s (completeBoundary n bd s) := by
  rw [completeBoundary_rest]
  exact ⟨rfl, rfl, rfl, rfl⟩

end cycle

/-! ## The rows of a boundary -/

section rows
variable {n : Nat} {s : Device} {bd : Boundary} (hb : (bedAt s n).border.bound = some bd)
include hb

/-- A boundary that nothing holds up completes, whether its bed has waited for it or reaches it (R112). -/
theorem boundaryRow_met (hu : firstUnmet s n bd = none)
    (hst : (bedAt s n).st = .waiting ∨ (bedAt s n).st = .running ∧ (bedAt s n).clock.stopDue = false) :
    boundaryRow n s = completeBoundary n bd s := by
  rcases hst with hw | ⟨hr, hd⟩
  · simp [boundaryRow, tryComplete, hw, hb, hu]
  · simp [boundaryRow, resumeBoundary, atBoundary, hr, hd, hb, hu]

/-- The bed begins to wait, or goes on with the wait that a pause interrupted (R112, log 155). -/
theorem boundaryRow_unmet {u : Nat × Nat × Bool} (hu : firstUnmet s n bd = some u) (hr : (bedAt s n).st = .running)
    (hd : (bedAt s n).clock.stopDue = false) : boundaryRow n s = startWait n u bd s := by
  simp [boundaryRow, resumeBoundary, atBoundary, hr, hd, hb, hu]

/-- A pause ends a wait at once and keeps how long it was (R102, R122). -/
theorem takePause_waiting (hw : (bedAt s n).st = .waiting) (hp : (bedAt s n).clock.pauseDue = true) : takePause n s =
    setBed n { bedAt s n with st := .paused, border := { (bedAt s n).border with
      bound := some { bd with waited := some (devNs s - (bedAt s n).border.waitStart) } } } s := by
  simp only [takePause, hp, hw, if_true, leaveWait, modBed_eq, hb, Option.map_some]

end rows

/-- A wait that is past its limit is alarmed, once (R123). -/
theorem waitAlarm_due {b : BedId} {s : Device} (hw : (bedAt s b.val).st = .waiting) (hl : (bedAt s b.val).border.waitLimit ≠ 0)
    (ht : (bedAt s b.val).border.waitStart + (bedAt s b.val).border.waitLimit.toNat * 1000 < devNs s)
    (ha : (bedAt s b.val).border.alarmed = false) : waitAlarm b.val s =
      let y : Bed := { bedAt s b.val with border := { (bedAt s b.val).border with alarm := true, alarmed := true } }
      occur 0x0D b.val 0 (raise (.bed b) 0 0x07 (borderStatus y) (setBed b.val y s)) := by
  simp only [waitAlarm, hw, hl, ht, ha, ne_eq, not_false_eq_true, and_self, if_true, modBed_eq, bedAt_setBed, bedSource_val]

theorem MgmtQuiet.setBed {s : Device} (h : MgmtQuiet s) (n : Nat) (x : Bed) : MgmtQuiet (setBed n x s) := ⟨h.rakes, h.progress, h.parked⟩

theorem settleReadback_idle {s : Device} (h : s.mgmt.progress = []) (fail : Option Byte) : settleReadback fail s = s := by
  simp [settleReadback, h]

/-- Settles O18: a boundary that can complete by what its transfers leave (`completeBoundary_out`, `completeBoundary_in`,
`completeBoundary_level`) and the bed that begins the next cycle (`bedAt_completeBoundary_withEnds`), the other commands by what their row does. -/
theorem boundaries : Obligations.Boundaries := by
  unfold Obligations.Boundaries
  intro s b bd hb n x runs
  refine ⟨fun hu hst => ?_, fun u hu hr hd => ?_, fun hw hl ht ha => ?_, fun hw hp hq f => ?_⟩
  · have hrow := boundaryRow_met hb hu hst
    have hfuse := sameFuses_completeBoundary n s.dev bd
    refine .of_onDevice rfl (hrow ▸ hfuse) ?_
    rw [hrow]
    refine ⟨?_, fun k v ho hi hl hs => completeBoundary_out hs ho hi hl,
      fun k v q ho hi hl hf hk hs => completeBoundary_in hf hk hs ho hi hl, fun k v ho hi hl _ hv => completeBoundary_level hv ho hi hl⟩
    obtain ⟨y, pe, pw, h⟩ := bedAt_completeBoundary_withEnds n s.dev bd
    exact ⟨congrArg Bed.st h, congrArg Bed.phase h, congrArg Bed.cycle h, congrArg (·.border.bound) h, congrArg Bed.pinOut h,
      congrArg Bed.pinEn h, (congrArg Bed.cfg h).trans rfl, completeBoundary_rest n s.dev bd⟩
  · refine .of_onDevice rfl ?_ ?_ <;> rw [boundaryRow_unmet hb hu hr hd]
    · exact ⟨rfl, rfl, rfl, rfl⟩
    · cases h : bd.waited with
      | none =>
        simp only [startWait, h, ofNat_satAdd_one] <;> rfl
      | some t =>
        simp only [startWait, h] <;> rfl
  · exact .of_noticed rfl (waitAlarm_due hw hl ht ha) ⟨rfl, rfl, rfl, rfl⟩
  · have hpause := takePause_waiting hb hw hp
    have hback : bedPauseTaken n f s.dev = takePause n s.dev := settleReadback_idle (hpause ▸ hq.progress) f
    refine .of_eq rfl ?_ ⟨rfl, rfl, rfl, rfl⟩
    rw [hback, hpause]
    exact settle_of_quiet (hq.setBed ..)

end Sys2Proof.Machine
end

section
namespace Sys2Proof.Machine
open Sys2Proof

/-! ## Arrivals (R107, R124, R127) -/

/-- The channel at an end of a bed. -/
abbrev chanOf (s : Device) (e : BedEnd) : ChanSt := chan (bedAt s e.bed.val) (endKey e)

/-- Only a WAITING bed completes its boundary on the side. -/
theorem tryComplete_of_ne {n : Nat} {s : Device} (h : (bedAt s n).st ≠ .waiting) : tryComplete n s = s := if_neg h

theorem tryComplete_setBed {n : Nat} {x : Bed} (s : Device) (h : x.st ≠ .waiting) : tryComplete n (setBed n x s) = setBed n x s :=
  tryComplete_of_ne (by rwa [bedAt_setBed])

@[simp] theorem bedAt_setCoreIo (c n : Nat) (x : CoreIo) (s : Device) : bedAt (setCoreIo c x s) n = bedAt s n := rfl

/-- The sending end is not cut off from a partner in service: its bed is out of service, or the two are joined (R117). -/
theorem not_apart {s : Device} {n side ch : Nat} (h : (bedAt s n).st.holdsConfig = true → joined s n side ch = true) :
    ((bedAt s n).st.holdsConfig && !joined s n side ch) = false := by
  cases hc : (bedAt s n).st.holdsConfig with
  | false => rfl
  | true => simp [h hc]

/-- The links let a channel deliver: it crosses no die, or a path stands and nothing of it is under way. -/
theorem not_held {α : Type} {s : Device} {n side ch : Nat} {l : List α}
    (h : crossDie s n side ch = true → l = [] ∧ canCross s n side ch = true) :
    (crossDie s n side ch && (!l.isEmpty || !canCross s n side ch)) = false := by
  cases hc : crossDie s n side ch with
  | false => rfl
  | true =>
    obtain ⟨hl, hx⟩ := h hc
    simp [hl, hx]

section deliver
variable {s : Device} {n k : Nat} {t : Token}
  (hj : (bedAt s n).st.holdsConfig = true → joined s n (k / 64) (k % 64) = true)
include hj

/-- A receive FIFO in service takes a token at its tail (R107). -/
theorem deliverTo_bed {r : BedEnd} (hd : t.dest = some (.bed r)) (hr : (bedAt s r.bed.val).st.holdsConfig = true)
    (hw : (bedAt s r.bed.val).st ≠ .waiting)
    (hl : (chanOf s r).fifo.length < fifoCap s r.bed.val r.side.val r.ch.val) :
    deliverTo s n k t = some (setBed r.bed.val (setChan (endKey r) { chanOf s r with
      fifo := (chanOf s r).fifo ++ [t.val] } (bedAt s r.bed.val)) s) := by
  simp only [deliverTo, hd, not_apart hj, hr, hl, Option.isNone_some, Bool.false_and, Bool.false_eq_true, if_false, Bool.not_true, Bool.or_false,
    Bool.and_false, if_true]
  exact congrArg some (tryComplete_setBed s hw)

/-- The L_IN FIFO of a core takes it so whatever the core's state (R110, log 153). -/
theorem deliverTo_lIn {c : CoreId} (hd : t.dest = some (.core c .lIn)) (hl : (coreIoAt s c.val).lIn.length < 8) :
    deliverTo s n k t = some (setCoreIo c.val { coreIoAt s c.val with lIn := (coreIoAt s c.val).lIn ++ [t.val] } s) := by
  simp only [deliverTo, hd, not_apart hj, hl, Option.isNone_some, Bool.false_and, Bool.false_eq_true, if_false, if_true]

end deliver

section arrivals
variable {s : Device} {e : BedEnd}

/-- The oldest token of an end leaves its transmit buffer when it is delivered, to an end of another bed or of a core. -/
theorem tokenArrival_bed {t : Token} {q : List Token} {s' : Device}
    (hx : crossDie s e.bed.val e.side.val e.ch.val = true → (chanOf s e).flight = []
      ∧ canCross s e.bed.val e.side.val e.ch.val = true)
    (ht : (chanOf s e).tx = t :: q) (hd : deliverTo s e.bed.val (endKey e) t = some s')
    (hs : bedAt s' e.bed.val = bedAt s e.bed.val) (hw : (bedAt s e.bed.val).st ≠ .waiting) : tokenArrival (.bed e) s =
      setBed e.bed.val (setChan (endKey e) { chanOf s e with tx := q } (bedAt s e.bed.val)) s' := by
  simp only [tokenArrival, not_held hx, ht, hd, Bool.false_eq_true, if_false]
  rw [modBed_eq, modChan, hs]
  exact tryComplete_setBed s' hw

/-- The oldest token of a core's L_OUT buffer goes to the fabric end of its stream (R110). -/
theorem tokenArrival_lOut {c : CoreId} {v : BitVec 128} {q : List (BitVec 128)} (hq : (coreIoAt s c.val).lOut = v :: q)
    (hb : streamBed c.val .lOut = (e.bed.val, e.side.val, e.ch.val)) (hw : (bedAt s e.bed.val).st ≠ .waiting)
    (hj : (bedAt s e.bed.val).st.holdsConfig = true → joined s e.bed.val e.side.val e.ch.val = true)
    (hl : (chanOf s e).fifo.length < 8) : tokenArrival (.core c .lOut) s =
      setCoreIo c.val { coreIoAt s c.val with lOut := q } (setBed e.bed.val (setChan (endKey e) { chanOf s e with
        fifo := (chanOf s e).fifo ++ [v] } (bedAt s e.bed.val)) s) := by
  have hroom : (decide ((chanOf s e).fifo.length < 8)
      && (!(bedAt s e.bed.val).st.holdsConfig || joined s e.bed.val e.side.val e.ch.val)) = true := by
    cases hc : (bedAt s e.bed.val).st.holdsConfig with
    | false => simp [hl]
    | true => simp [hl, hj hc]
  simp only [tokenArrival, hq, hb]
  refine (if_pos hroom).trans (tryComplete_of_ne ?_)
  rwa [bedAt_setCoreIo, bedAt_setBed]

/-- The oldest level update of an end is received where its receiver still takes it (R113, R121). -/
theorem levelArrival_taken {r : BedEnd} {v : Word32} {q : List (Word32 × Option ChanEnd)} (hr : r.bed.val ≠ e.bed.val)
    (hx : crossDie s e.bed.val e.side.val e.ch.val = true → (chanOf s e).lvlFly = []
      ∧ canCross s e.bed.val e.side.val e.ch.val = true)
    (hl : (chanOf s e).levels = (v, some (.bed r)) :: q) (ht : levelTaken s e (some (.bed r)) = some r) :
    levelArrival e s = setBed r.bed.val (setChan (endKey r) { chanOf s r with
        rxLevel := some v, rxLive := (bedAt s e.bed.val).st.holdsConfig && decide ((bedAt s e.bed.val).st ≠ .committed) } (bedAt s r.bed.val))
      (setBed e.bed.val (setChan (endKey e) { chanOf s e with levels := q } (bedAt s e.bed.val)) s) := by
  simp only [levelArrival, not_held hx, hl, ht, Bool.false_eq_true, if_false]
  simp only [receiveLevel, modBed_eq, modChan, bedAt_setBed, bedAt_setBed_ne s _ hr, setChan_st]

/-- Credits reach the sender where a path stands for them (R127). -/
theorem creditReturn_eq (hw : (bedAt s e.bed.val).st ≠ .waiting) : creditReturn e s =
    if canCross s e.bed.val e.side.val e.ch.val = false then s
    else setBed e.bed.val (setChan (endKey e) { chanOf s e with
      credits := (chanOf s e).credits + (chanOf s e).credBack, credBack := 0 } (bedAt s e.bed.val)) s := by
  unfold creditReturn
  cases canCross s e.bed.val e.side.val e.ch.val with
  | false => rfl
  | true => exact tryComplete_setBed s hw

end arrivals

/-- Settles O19: a token by where it is delivered (`deliverTo_bed`, `deliverTo_lIn`) and what then leaves the sender (`tokenArrival_bed`),
the others by what their row does. That a core's ends work whatever its state is the model's choice (log 153). -/
theorem borderMovement : Obligations.BorderMovement := by
  unfold Obligations.BorderMovement
  intro s e n x c
  refine ⟨fun r t q hr hx ht hd hc hrw hw hj hl => ?_, fun k t q hx ht hd hw hj hl => ?_, fun k v q hq hb hw hj hl => ?_,
    fun r v q hr hl ht hx => ?_, fun hw => ?_⟩
  · have hne : n ≠ r.bed.val := fun h => hr (Fin.ext h.symm)
    exact .of_eq rfl (tokenArrival_bed hx ht (deliverTo_bed hj hd hc hrw hl) (bedAt_setBed_ne _ _ hne) hw) ⟨rfl, rfl, rfl, rfl⟩
  · exact .of_eq rfl (tokenArrival_bed hx ht (deliverTo_lIn hj hd hl) rfl hw) ⟨rfl, rfl, rfl, rfl⟩
  · exact .of_eq rfl (tokenArrival_lOut hq hb hw hj hl) ⟨rfl, rfl, rfl, rfl⟩
  · have hne : r.bed.val ≠ n := fun h => hr (Fin.ext h)
    exact .of_eq rfl (levelArrival_taken hne hx hl ht) ⟨rfl, rfl, rfl, rfl⟩
  · refine .of_eq rfl (creditReturn_eq hw) ?_
    split <;> exact ⟨rfl, rfl, rfl, rfl⟩

end Sys2Proof.Machine
end

section
namespace Sys2Proof.Machine
open Sys2Proof

/-! ## Columns and signatures (R144 to R149) -/

theorem bitAt_eq_testBit (v i : Nat) : bitAt v i = v.testBit i := by
  rw [bitAt, Nat.testBit_eq_decide_div_mod_eq, Nat.shiftRight_eq_div_pow]
  rfl

theorem xorCols_succ (col : Nat → BitVec 6) (n v : Nat) :
    xorCols col (n + 1) v = xorCols col n v ^^^ if bitAt v n then col n else 0 := by
  simp only [xorCols, List.range_succ, List.foldl_append, List.foldl_cons, List.foldl_nil]
  split
  · rfl
  · exact BitVec.xor_zero.symm

/-- The columns that a number selects are linear in it. -/
theorem xorCols_xor (col : Nat → BitVec 6) (n v w : Nat) : xorCols col n (v ^^^ w) = xorCols col n v ^^^ xorCols col n w := by
  induction n with
  | zero => exact BitVec.xor_zero.symm
  | succ n ih =>
    have hbit : (if bitAt (v ^^^ w) n then col n else 0) = (if bitAt v n then col n else 0) ^^^ if bitAt w n then col n else 0 := by
      simp only [bitAt_eq_testBit, Nat.testBit_xor]
      cases v.testBit n <;> cases w.testBit n <;> simp
    rw [xorCols_succ, xorCols_succ, xorCols_succ, ih, hbit]
    ac_rfl

theorem xorCols_eq_foldl (col : Nat → BitVec 6) (n v : Nat) :
    xorCols col n v = ((List.range n).map fun i => if bitAt v i then col i else 0).foldl (· ^^^ ·) 0 := by
  induction n with
  | zero => rfl
  | succ n ih => rw [xorCols_succ, ih, List.range_succ, List.map_append, List.foldl_append]; rfl

theorem foldl_xor_append {w : Nat} (xs ys : List (BitVec w)) :
    (xs ++ ys).foldl (· ^^^ ·) 0 = xs.foldl (· ^^^ ·) 0 ^^^ ys.foldl (· ^^^ ·) 0 := by
  have hinit (ys : List (BitVec w)) (x : BitVec w) : ys.foldl (· ^^^ ·) x = x ^^^ ys.foldl (· ^^^ ·) 0 := by
    have hx : x ^^^ 0 = x := BitVec.xor_zero
    rw [← List.foldl_assoc (op := (· ^^^ · : BitVec w → BitVec w → BitVec w)), hx]
  rw [List.foldl_append, hinit]

theorem sigOf_go_xor (n a b : Nat) : sigOf.go n (a ^^^ b) = sigOf.go n a ^^^ sigOf.go n b := by
  induction n generalizing a b with
  | zero => exact BitVec.xor_zero.symm
  | succ n ih =>
    have hdiv : (a ^^^ b) / 64 = a / 64 ^^^ b / 64 := Nat.xor_div_two_pow (n := 6)
    simp only [sigOf.go, hdiv, ih, BitVec.ofNat_xor]
    ac_rfl

/-- The syndrome of a location read for another address comes from the bits in which the two differ (R149). -/
theorem sigCols_sigOf_xor (a b : Nat) : sigCols (sigOf (a ^^^ b)) = sigCols (sigOf a) ^^^ sigCols (sigOf b) := by
  simp only [sigOf, sigOf_go_xor, sigCols, BitVec.toNat_xor, xorCols_xor]

/-- An address bit is in one signature bit, whichever group it lies in. -/
theorem sigCols_sigOf_two_pow {k : Nat} (h : k < 25) : sigCols (sigOf (2 ^ k)) = colG (k % 6) := by
  revert k; decide

/-! ## Classes (R147) -/

theorem synClass_eq_clean_iff {syn : BitVec 6} : synClass syn = .clean ↔ syn = 0 :=
  ⟨synClass_eq_clean, fun h => h ▸ synClass_zero⟩

theorem synClass_eq_corrData_iff {syn : BitVec 6} {i : Nat} : synClass syn = .corrData i ↔ ((List.range 8).map colD)[i]? = some syn := by
  have hcol : ((List.range 8).map colD)[i]? = some syn ↔ i < 8 ∧ colD i = syn := by
    by_cases hi : i < 8
    · rw [List.getElem?_map, List.getElem?_range hi, Option.map_some, Option.some.injEq]
      exact ⟨fun h => ⟨hi, h⟩, fun h => h.2⟩
    · rw [List.getElem?_eq_none (by rw [List.length_map, List.length_range]; omega)]
      exact ⟨fun h => (nomatch h), fun h => absurd h.1 hi⟩
  rw [hcol]
  refine ⟨fun h => ?_, fun ⟨hi, hs⟩ => hs ▸ synClass_colD hi⟩
  unfold synClass at h
  split at h
  · cases h
  · split at h
    next j hj =>
      obtain rfl : j = i := SynClass.corrData.inj h
      exact ⟨List.mem_range.1 (List.mem_of_find?_eq_some hj), by simpa using List.find?_some hj⟩
    next =>
      split at h
      · cases h
      · split at h <;> cases h

theorem getD_map_range {α : Type} {f : Nat → α} {n i : Nat} {d : α} (h : i < n) : ((List.range n).map f).getD i d = f i := by
  simp [h]

theorem map_colD : (List.range 8).map colD = [0x07, 0x0B, 0x0D, 0x0E, 0x13, 0x15, 0x19, 0x23] := rfl
theorem map_colC : (List.range 6).map colC = [0x01, 0x02, 0x04, 0x08, 0x10, 0x20] := rfl
theorem map_colG : (List.range 6).map colG = [0x3E, 0x3D, 0x3B, 0x37, 0x2F, 0x1F] := rfl

theorem synClass_eq_corrCheck_iff {syn : BitVec 6} : synClass syn = .corrCheck ↔ syn ∈ (List.range 6).map colC := by
  revert syn; decide

theorem synClass_eq_address_iff {syn : BitVec 6} : synClass syn = .address ↔ syn ∈ (List.range 6).map colG := by
  revert syn; decide

theorem synClass_eq_uncorrectable_iff {syn : BitVec 6} : synClass syn = .uncorrectable ↔
    syn ≠ 0 ∧ syn ∉ (List.range 8).map colD ∧ syn ∉ (List.range 6).map colC ∧ syn ∉ (List.range 6).map colG := by
  revert syn; decide

theorem synClass_colG {i : Nat} (h : i < 6) : synClass (colG i) = .address :=
  synClass_eq_address_iff.2 (List.mem_map_of_mem (List.mem_range.2 h))

/-! ## A decoder fault (R149) -/

/-- Where the decoder sends an address whose line `k` is stuck at `v`. -/
def stuckAddr (k : Nat) (v : Bool) (a : Nat) : Nat := if v then a ||| 2 ^ k else a - (if a.testBit k then 2 ^ k else 0)

theorem xor_one_of_odd {n : Nat} (h : n % 2 = 1) : n ^^^ 1 = n - 1 := by
  have hdiv : (n ^^^ 1) / 2 = n / 2 := (Nat.xor_div_two_pow (n := 1)).trans (Nat.xor_zero _)
  have hmod : (n ^^^ 1) % 2 = n % 2 ^^^ 1 := Nat.xor_mod_two_pow (n := 1)
  rw [h, Nat.xor_self] at hmod
  omega

theorem sub_two_pow_of_testBit {a k : Nat} (h : a.testBit k = true) : a - 2 ^ k = a ^^^ 2 ^ k := by
  have hodd : a / 2 ^ k % 2 = 1 := by simpa [Nat.testBit_eq_decide_div_mod_eq] using h
  have hdiv : (a ^^^ 2 ^ k) / 2 ^ k = a / 2 ^ k - 1 := by
    rw [Nat.xor_div_two_pow, Nat.div_self (Nat.two_pow_pos k), xor_one_of_odd hodd]
  have hmod : (a ^^^ 2 ^ k) % 2 ^ k = a % 2 ^ k := by
    rw [Nat.xor_mod_two_pow, Nat.mod_self, Nat.xor_zero]
  have hx := Nat.div_add_mod (a ^^^ 2 ^ k) (2 ^ k)
  have ha := Nat.div_add_mod a (2 ^ k)
  have hle : 2 ^ k ≤ 2 ^ k * (a / 2 ^ k) := Nat.le_mul_of_pos_right _ (Nat.pos_of_ne_zero fun h0 => by simp [h0] at hodd)
  rw [hdiv, hmod, Nat.mul_sub, Nat.mul_one] at hx
  omega

/-- A stuck line leaves the address as it is or inverts that bit. -/
theorem stuckAddr_eq (k : Nat) (v : Bool) (a : Nat) : stuckAddr k v a = if a.testBit k = v then a else a ^^^ 2 ^ k := by
  cases v with
  | true =>
    refine Nat.eq_of_testBit_eq fun i => ?_
    by_cases hi : k = i
    · subst hi
      cases h : a.testBit k <;> simp [stuckAddr, h]
    · cases a.testBit k <;> simp [stuckAddr, Nat.testBit_two_pow_of_ne hi]
  | false => cases h : a.testBit k <;> simp [stuckAddr, h, sub_two_pow_of_testBit]

/-- The array with that fault in its decoder. -/
def Coded.stuck (c : Coded) (k : Nat) (v : Bool) : Coded := { c with dec := [(k, v)] }

theorem Coded.land_stuck (c : Coded) (k : Nat) (v : Bool) (a : Nat) : (c.stuck k v).land a = stuckAddr k v a := by
  simp only [Coded.land, Coded.stuck, stuckAddr, List.foldl_cons, List.foldl_nil, bitAt_eq_testBit]

section stuck
variable {c : Coded} (hc : c.dec = []) {k : Nat} {v : Bool}
include hc

/-- With a line stuck, a read returns the byte written where it lands, judged by the signature of the address requested. -/
theorem Coded.read_write_stuck {a l : Nat} (x : Byte) (hl : stuckAddr k v a = l) {syn : BitVec 6} (hs : sigCols (sigOf (a ^^^ l)) = syn) :
    ((c.write l x).stuck k v).read a = ⟨(synClass syn).fix x, syn, synClass syn⟩ := by
  have hdata : ((c.write l x).stuck k v).data.get 0 l = x := by
    rw [Coded.write_of_sound hc]; exact Sparse.get_set_same ..
  have hstored : ((c.write l x).stuck k v).syn.get 0 l = c.fillCols l := by
    rw [Coded.write_of_sound hc]; exact Sparse.get_set_same ..
  have hfill : ((c.write l x).stuck k v).fillCols l = c.fillCols l := rfl
  rw [sigCols_sigOf_xor] at hs
  simp only [Coded.read, Coded.land_stuck, hl, hdata, hstored, hfill, BitVec.xor_self, BitVec.zero_xor, hs]

/-- The access lands at the address that differs in the stuck bit: class ADDRESS. -/
theorem Coded.read_stuck_elsewhere {a : Nat} (x : Byte) (hk : k < 25) (h : stuckAddr k v a ≠ a) :
    ((c.write (stuckAddr k v a) x).stuck k v).read a = ⟨x, colG (k % 6), .address⟩ := by
  have hbit : stuckAddr k v a = a ^^^ 2 ^ k := by
    rw [stuckAddr_eq] at h ⊢
    exact if_neg fun hb => h (if_pos hb)
  have hsyn : sigCols (sigOf (a ^^^ stuckAddr k v a)) = colG (k % 6) := by
    rw [hbit, ← Nat.xor_assoc, Nat.xor_self, Nat.zero_xor, sigCols_sigOf_two_pow hk]
  rw [Coded.read_write_stuck hc x rfl hsyn, synClass_colG (Nat.mod_lt _ (by decide))]
  rfl

/-- The line is stuck at the value that the address has: the byte reads as written. -/
theorem Coded.read_stuck_here {a : Nat} (d : Byte) (h : stuckAddr k v a = a) : ((c.write a d).stuck k v).read a = ⟨d, 0, .clean⟩ := by
  rw [Coded.read_write_stuck hc d h (syn := 0) (by rw [Nat.xor_self]; rfl), synClass_zero]
  rfl

end stuck

theorem checkOf_eq_foldl (d : Byte) (a : Nat) : checkOf d a =
    (((List.range 8).map fun i => if d.getLsbD i then colD i else 0)
      ++ (List.range 6).map fun i => if (sigOf a).getLsbD i then colG i else 0).foldl (· ^^^ ·) 0 := by
  simp only [checkOf, dataCols, sigCols, foldl_xor_append, xorCols_eq_foldl, bitAt_eq_testBit, BitVec.testBit_toNat]

/-- Settles O21: the classes by the columns that name them, a read after a write and after an upset by the laws of an array with sound
decoders (`Coded.read_write_same`, `Coded.read_upset_data`), a stuck line by where it sends the access (`Coded.read_write_stuck`). -/
theorem codeClasses : Obligations.CodeClasses := by
  unfold Obligations.CodeClasses
  simp only [← map_colD, ← map_colC, ← map_colG]
  refine ⟨fun syn => ⟨synClass_eq_clean_iff, fun i => synClass_eq_corrData_iff, synClass_eq_corrCheck_iff, synClass_eq_address_iff,
    synClass_eq_uncorrectable_iff⟩, checkOf_eq_foldl, fun c a d hc => ?_⟩
  have hread : (c.write a d).read a = ⟨d, 0, .clean⟩ := Coded.read_write_same hc a d
  have hdata : ((c.write a d).read a).data = d := by rw [hread]
  have hclean : synClass ((c.write a d).read a).syn = .clean := by rw [hread]; exact synClass_zero
  refine ⟨hread, fun b hb => Coded.read_write_ne hc d hb, fun i hi => ?_, fun i hi => ?_,
    fun k hk _ v => ⟨Coded.read_stuck_here hc d, fun h x => ?_⟩⟩
  · rw [Coded.read_upset_data (c := c.write a d) hc hclean hi, hdata, getD_map_range hi]
  · rw [Coded.read_upset_check (c := c.write a d) hc hclean hi, hdata, getD_map_range hi]
  · rw [getD_map_range (Nat.mod_lt _ (by decide))]
    exact Coded.read_stuck_elsewhere hc x hk h

end Sys2Proof.Machine
end

section
namespace Sys2Proof.Machine
open Sys2Proof

/-! ## Bits of bytes, lists and merged words (R7, R135) -/

theorem testBit_ofLe (bs : List Byte) (i : Nat) : (ofLe bs).testBit i = (bs.getD (i / 8) 0).getLsbD (i % 8) := by
  induction bs generalizing i with
  | nil => simp [ofLe]
  | cons b bs ih =>
    have hsum : ofLe (b :: bs) = 2 ^ 8 * ofLe bs + b.toNat := Nat.add_comm ..
    rw [hsum, Nat.testBit_two_pow_mul_add _ b.isLt]
    split
    next h => simp [Nat.div_eq_of_lt h, Nat.mod_eq_of_lt h, BitVec.testBit_toNat]
    next h =>
      obtain ⟨j, rfl⟩ := Nat.exists_eq_add_of_le (Nat.le_of_not_lt h)
      rw [Nat.add_sub_cancel_left, ih, Nat.add_div_left _ (by decide), Nat.add_mod_left]
      simp

theorem testBit_maskOf (l : List Bool) (i : Nat) : (maskOf l).testBit i = l.getD i false := by
  induction l generalizing i with
  | nil => simp [maskOf]
  | cons b l ih =>
    have hsum : maskOf (b :: l) = 2 ^ 1 * maskOf l + b.toNat := Nat.add_comm ..
    rw [hsum, Nat.testBit_two_pow_mul_add _ (Bool.toNat_lt b)]
    cases i with
    | zero => cases b <;> rfl
    | succ i => simp [ih]

theorem testBit_bitsAt (v lo w i : Nat) : (bitsAt v lo w).testBit i = (decide (i < w) && v.testBit (lo + i)) := by
  rw [bitsAt, Nat.testBit_mod_two_pow, Nat.testBit_shiftRight]

/-- A masked store takes the new bits where the mask is set. -/
theorem testBit_maskWrite (old v m i : Nat) : (maskWrite old v m).testBit i = if m.testBit i then v.testBit i else old.testBit i := by
  simp only [maskWrite, Nat.testBit_or, Nat.testBit_and, Nat.testBit_xor]
  cases m.testBit i <;> simp

/-! ## Stored bytes of an array with sound decoders -/

section stored
variable {c : Coded} (hc : c.dec = [])
include hc

theorem Coded.raw_of_sound (a : Nat) : c.raw a = c.data.get 0 a := by rw [Coded.raw, Coded.land_of_sound hc]

theorem Coded.raw_write (a b : Nat) (d : Byte) : (c.write a d).raw b = if b = a then d else c.raw b := by
  rw [Coded.raw_of_sound (c := c.write a d) hc, Coded.write_of_sound hc, Coded.raw_of_sound hc, Sparse.get_set]

theorem Coded.raw_writeData (a b : Nat) (d : Byte) : (c.writeData a d).raw b = if b = a then d else c.raw b := by
  have hdec : (c.writeData a d).dec = [] := hc
  have hdata : (c.writeData a d).data = c.data.set 0 a d := by simp only [Coded.writeData, Coded.land_of_sound hc]
  rw [Coded.raw_of_sound hdec, hdata, Sparse.get_set, Coded.raw_of_sound hc]

end stored

/-! ## The bits of an access (R135, R138) -/

section access
variable {p : PortAcc}

/-- Data bit `k` lies in the word of the access. -/
def PortAcc.inWord (p : PortAcc) (k : Nat) : Prop := p.addr * p.width ≤ k ∧ k < p.addr * p.width + p.width

/-- A narrow word lies in one byte. -/
theorem PortAcc.narrow (h : p.aspect < 3) :
    p.nbytes = 1 ∧ p.addr * p.width = 8 * p.byte0 + p.addr * p.width % 8 ∧ p.addr * p.width % 8 + p.width ≤ 8 := by
  have hw : p.width = 1 ∨ p.width = 2 ∨ p.width = 4 := by
    have ha : p.aspect = 0 ∨ p.aspect = 1 ∨ p.aspect = 2 := by omega
    rcases ha with ha | ha | ha <;> rw [PortAcc.width, ha] <;> decide
  refine ⟨?_, (Nat.div_add_mod ..).symm, ?_⟩
  · rcases hw with h | h | h <;> rw [PortAcc.nbytes, h] <;> rfl
  · rcases hw with h | h | h <;> rw [h] <;> omega

/-- Any other is a run of whole bytes. -/
theorem PortAcc.wide (h : ¬ p.aspect < 3) : p.width = 8 * p.nbytes ∧ p.addr * p.width = 8 * p.byte0 := by
  obtain ⟨n, hn⟩ := Nat.exists_eq_add_of_le (Nat.le_of_not_lt h)
  have hw : p.width = 8 * 2 ^ n := by rw [PortAcc.width, hn, Nat.pow_add]
  have hdiv : p.width / 8 = 2 ^ n := by rw [hw, Nat.mul_div_cancel_left _ (by decide)]
  have hnb : p.nbytes = 2 ^ n := by rw [PortAcc.nbytes, hdiv]; exact Nat.max_eq_right (Nat.two_pow_pos n)
  refine ⟨by rw [hw, hnb], ?_⟩
  rw [PortAcc.byte0, hw, Nat.mul_left_comm, Nat.mul_div_cancel_left _ (by decide)]

/-- The bits of the word are in its bytes. -/
theorem PortAcc.byte_of_inWord {k : Nat} (h : p.inWord k) : ∃ j < p.nbytes, k / 8 = p.byte0 + j := by
  obtain ⟨hlo, hhi⟩ := h
  by_cases hn : p.aspect < 3
  · obtain ⟨hb, hstart, hw⟩ := p.narrow hn
    exact ⟨0, by omega, by omega⟩
  · obtain ⟨hw, hstart⟩ := p.wide hn
    exact ⟨k / 8 - p.byte0, by omega, by omega⟩

/-- Each of its bytes has a bit of the word. -/
theorem PortAcc.inWord_of_byte {j : Nat} (hj : j < p.nbytes) : ∃ i < 8, p.inWord (8 * (p.byte0 + j) + i) := by
  by_cases hn : p.aspect < 3
  · obtain ⟨hb, hstart, hw⟩ := p.narrow hn
    have hpos : 0 < p.width := Nat.two_pow_pos _
    exact ⟨p.addr * p.width % 8, by omega, by omega, by omega⟩
  · obtain ⟨hw, hstart⟩ := p.wide hn
    exact ⟨0, by omega, by omega, by omega⟩

theorem accBit_outside {k : Nat} (h : ¬ p.inWord k) : accBit (some p) k = false := by
  have : ¬ (p.addr * p.width ≤ k ∧ k < p.addr * p.width + p.width) := h
  simp [accBit, this]

/-- A bit of the word is written with its byte. -/
theorem accBit_inside {j k : Nat} (h : p.inWord k) (hk : k / 8 = p.byte0 + j) : accBit (some p) k = p.writes j := by
  have hin : p.addr * p.width ≤ k ∧ k < p.addr * p.width + p.width := h
  have hbe : (decide (p.aspect ≤ 3) || bitAt p.be ((k - p.addr * p.width) / 8)) = (decide (p.aspect ≤ 3) || bitAt p.be j) := by
    by_cases ha : p.aspect ≤ 3
    · simp [ha]
    · obtain ⟨_, hstart⟩ := p.wide (by omega)
      rw [show (k - p.addr * p.width) / 8 = j by omega]
  simp only [accBit, Option.any_some, hin, and_self, decide_true, Bool.and_true, hbe, PortAcc.writes]

/-- A byte that is written takes the bits of the word and keeps the others. -/
theorem PortAcc.newByte_getLsbD (old : Byte) {j k : Nat} (hj : j < p.nbytes) (hk : k / 8 = p.byte0 + j) [Decidable (p.inWord k)] :
    (p.newByte old j).getLsbD (k % 8) = if p.inWord k then bitAt p.wd (k - p.addr * p.width) else old.getLsbD (k % 8) := by
  have hi : k % 8 < 8 := Nat.mod_lt _ (by decide)
  by_cases hn : p.aspect < 3
  · obtain ⟨hb, hstart, hw⟩ := p.narrow hn
    generalize hlo : p.addr * p.width % 8 = lo at *
    have hin : p.inWord k ↔ lo ≤ k % 8 ∧ k % 8 - lo < p.width := by
      unfold PortAcc.inWord
      omega
    have hbit : lo ≤ k % 8 → k - p.addr * p.width = k % 8 - lo := by omega
    simp only [PortAcc.newByte, hn, if_true, hlo, BitVec.getLsbD_ofNat, testBit_maskWrite, Nat.testBit_mul_two_pow,
      Nat.testBit_two_pow_sub_one, Nat.testBit_mod_two_pow, hin, bitAt_eq_testBit, BitVec.testBit_toNat, hi, decide_true, Bool.true_and]
    by_cases h1 : lo ≤ k % 8
    · simp +contextual [h1, hbit h1]
    · simp [h1]
  · obtain ⟨hw, hstart⟩ := p.wide hn
    have hin : p.inWord k := ⟨by omega, by omega⟩
    have hbit : k - p.addr * p.width = 8 * j + k % 8 := by omega
    simp only [PortAcc.newByte, hn, if_false, if_pos hin, hbit, BitVec.getLsbD_ofNat, Nat.testBit_div_two_pow, bitAt_eq_testBit,
      hi, decide_true, Bool.true_and, Nat.add_comm]

/-- A byte is written where some bit of it is. -/
theorem accHit_some {a : Nat} : accHit (some p) a = true ↔ ∃ j < p.nbytes, p.writes j = true ∧ p.byte0 + j = a := by
  simp only [accHit, List.any_eq_true, List.mem_range]
  constructor
  · rintro ⟨i, hi, h⟩
    by_cases hin : p.inWord (8 * a + i)
    · obtain ⟨j, hj, hk⟩ := p.byte_of_inWord hin
      exact ⟨j, hj, by rwa [← accBit_inside hin hk], by omega⟩
    · rw [accBit_outside hin] at h
      cases h
  · rintro ⟨j, hj, hw, rfl⟩
    obtain ⟨i, hi, hin⟩ := p.inWord_of_byte hj
    exact ⟨i, hi, by rwa [accBit_inside hin (by omega : _ = p.byte0 + j)]⟩

theorem accHit_none (a : Nat) : accHit none a = false := by simp [accHit, accBit]

/-- Two ports collide in a byte that both write (R140). -/
theorem collides_iff (pa pb : Option PortAcc) : collides pa pb = true ↔ ∃ a, accHit pa a = true ∧ accHit pb a = true := by
  cases pa with
  | none => simp [collides, accHit_none]
  | some pa =>
    cases pb with
    | none => simp [collides, accHit_none]
    | some pb =>
      simp only [collides, accHit_some, List.any_eq_true, List.mem_range, Bool.and_eq_true, decide_eq_true_eq]
      constructor
      · rintro ⟨j, hj, hwj, i, hi, hwi, h⟩
        exact ⟨_, ⟨j, hj, hwj, rfl⟩, i, hi, hwi, h.symm⟩
      · rintro ⟨_, ⟨j, hj, hwj, rfl⟩, i, hi, hwi, h⟩
        exact ⟨j, hj, hwj, i, hi, hwi, h.symm⟩

end access

/-! ## What an access stores (R138, R140) -/

/-- An array whose decoders are sound and, where it is checked, whose bytes are clean. -/
structure Coded.Sound (check : Bool) (c : Coded) : Prop where
  dec : c.dec = []
  clean : check = true → ∀ a, synClass (c.read a).syn = .clean

/-- One byte of a write access, unless it is skipped. -/
def PortAcc.storeByte (p : PortAcc) (check : Bool) (skip : Nat → Bool) (c : Coded) (j : Nat) : Coded :=
  let a := p.byte0 + j
  let v := p.newByte (c.raw a) j
  if p.writes j && !skip a then if check then c.write a v else c.writeData a v else c

/-- What the access of a port, if any, leaves in the array. -/
def storeOf (check : Bool) (skip : Nat → Bool) (p : Option PortAcc) (c : Coded) : Coded :=
  p.elim c fun p => (List.range p.nbytes).foldl (p.storeByte check skip) c

section store
variable {p : PortAcc} {check : Bool} {skip : Nat → Bool} {c : Coded}

theorem PortAcc.writes_of_we {j : Nat} (h : p.we = false) : p.writes j = false := by simp [PortAcc.writes, h]

/-- The model's store with nothing injected; a read stores nothing. -/
theorem PortAcc.store_eq (check : Bool) (skip : Nat → Bool) (c : Coded) (p : PortAcc) :
    (if p.we then p.store check none skip c else c) = storeOf check skip (some p) c := by
  split
  next => rfl
  next h =>
    have hstep (c : Coded) (j : Nat) : p.storeByte check skip c j = c := by
      simp [PortAcc.storeByte, PortAcc.writes_of_we ((Bool.not_eq_true _).mp h)]
    simp only [storeOf, Option.elim_some]
    induction List.range p.nbytes with
    | nil => rfl
    | cons j l ih => rw [List.foldl_cons, hstep, ← ih]

variable (h : c.Sound check)
include h

theorem Coded.Sound.write (a : Nat) (d : Byte) : (c.write a d).Sound check where
  dec := h.dec
  clean hc b := by
    by_cases hb : b = a
    · rw [hb, Coded.read_write_same h.dec]
      exact synClass_zero
    · rw [Coded.read_write_ne h.dec d hb]
      exact h.clean hc b

theorem Coded.Sound.storeByte (j : Nat) : (p.storeByte check skip c j).Sound check := by
  unfold PortAcc.storeByte
  dsimp only
  split
  · cases check with
    | true => exact h.write ..
    | false => exact ⟨h.dec, fun hc => nomatch hc⟩
  · exact h

theorem Coded.Sound.storeOf (q : Option PortAcc) : (storeOf check skip q c).Sound check := by
  cases q with
  | none => exact h
  | some p => exact List.foldlRecOn _ _ h fun _ hc j _ => hc.storeByte j

/-- The stored byte `b` after byte `j` of an access. -/
theorem PortAcc.raw_storeByte (j b : Nat) : (p.storeByte check skip c j).raw b =
    if b = p.byte0 + j ∧ p.writes j = true ∧ skip b = false then p.newByte (c.raw b) j else c.raw b := by
  by_cases hw : p.writes j = true ∧ skip (p.byte0 + j) = false
  · have hraw : (p.storeByte check skip c j).raw b = if b = p.byte0 + j then p.newByte (c.raw (p.byte0 + j)) j else c.raw b := by
      cases check with
      | true => simpa [PortAcc.storeByte, hw] using Coded.raw_write h.dec ..
      | false => simpa [PortAcc.storeByte, hw] using Coded.raw_writeData h.dec ..
    rw [hraw]
    by_cases hb : b = p.byte0 + j
    · simp [hb, hw]
    · simp [hb]
  · have hskip : p.storeByte check skip c j = c := if_neg (by simpa using hw)
    rw [hskip, if_neg (by rintro ⟨rfl, hw'⟩; exact hw hw')]

theorem PortAcc.memBit_storeByte {j : Nat} (hj : j < p.nbytes) (k : Nat) : memBit (p.storeByte check skip c j) k =
    if k / 8 = p.byte0 + j ∧ accBit (some p) k = true ∧ skip (k / 8) = false then accVal (some p) k else memBit c k := by
  classical
  simp only [memBit, PortAcc.raw_storeByte h]
  by_cases hk : k / 8 = p.byte0 + j
  · by_cases hin : p.inWord k
    · simp only [hk, true_and, accBit_inside hin hk]
      split
      · rw [p.newByte_getLsbD _ hj hk, if_pos hin]
        rfl
      · rfl
    · simp only [accBit_outside hin, Bool.false_eq_true, false_and, and_false, if_false]
      split
      · rw [p.newByte_getLsbD _ hj hk, if_neg hin]
      · rfl
  · simp only [hk, false_and, if_false]

/-- The bytes before byte `n` of an access store the bits that it writes, but for those skipped. -/
theorem PortAcc.memBit_storeBytes (k : Nat) {n : Nat} (hn : n ≤ p.nbytes) : memBit ((List.range n).foldl (p.storeByte check skip) c) k =
    if (∃ j < n, k / 8 = p.byte0 + j) ∧ accBit (some p) k = true ∧ skip (k / 8) = false then accVal (some p) k else memBit c k := by
  induction n with
  | zero => simp
  | succ n ih =>
    have hsound : ((List.range n).foldl (p.storeByte check skip) c).Sound check := List.foldlRecOn _ _ h fun _ hc j _ => hc.storeByte j
    have hlast : (∃ j < n + 1, k / 8 = p.byte0 + j) ↔ k / 8 = p.byte0 + n ∨ ∃ j < n, k / 8 = p.byte0 + j := by
      simp only [Nat.lt_succ_iff_lt_or_eq, or_and_right, exists_or, exists_eq_left, or_comm]
    rw [List.range_succ, List.foldl_append, List.foldl_cons, List.foldl_nil, PortAcc.memBit_storeByte hsound hn, ih (Nat.le_of_succ_le hn)]
    simp only [hlast]
    by_cases hk : k / 8 = p.byte0 + n
    · simp only [hk, true_and, true_or]
      split
      · rfl
      next hw => exact if_neg fun h => hw h.2
    · simp only [hk, false_and, if_false, false_or]

/-- An access stores the bits that it writes, but for those of skipped bytes. -/
theorem memBit_storeOf (q : Option PortAcc) (k : Nat) : memBit (Machine.storeOf check skip q c) k =
    if accBit q k = true ∧ skip (k / 8) = false then accVal q k else memBit c k := by
  cases q with
  | none => rfl
  | some p =>
    have hbyte (hw : accBit (some p) k = true) : ∃ j < p.nbytes, k / 8 = p.byte0 + j :=
      p.byte_of_inWord (Classical.byContradiction fun hin => by rw [accBit_outside hin] at hw; cases hw)
    exact (PortAcc.memBit_storeBytes h k (Nat.le_refl _)).trans
      (ite_congr (propext ⟨fun hw => hw.2, fun hw => ⟨hbyte hw.1, hw⟩⟩) (fun _ => rfl) fun _ => rfl)

end store

/-! ## Reads that met no error (R148) -/

theorem any_class_of_clean {rs : List ByteRead} (h : ∀ r ∈ rs, r.cls = .clean) (q : SynClass → Bool) (hq : q .clean = false) :
    rs.any (fun r => q r.cls) = false :=
  List.any_eq_false.2 fun r hr => by rw [h r hr, hq]; exact Bool.false_ne_true

section clean
variable {p : PortAcc} {rs : List ByteRead} (h : ∀ r ∈ rs, r.cls = .clean)
include h

theorem PortAcc.clean_of_seen : ∀ x ∈ p.seen rs, x.1.cls = .clean := by
  have hall : ∀ x ∈ rs.zipIdx, x.1.cls = .clean := fun x hx => h x.1 (List.fst_mem_of_mem_zipIdx hx)
  unfold PortAcc.seen
  split
  · exact fun x hx => nomatch hx
  · split
    · exact fun x hx => hall x (List.mem_filter.1 hx).1
    · exact hall

/-- So no access asks for a class among them. -/
theorem PortAcc.seen_none (q : SynClass → Bool) (hq : q .clean = false) :
    (p.seen rs).any (fun x => q x.1.cls) = false ∧ (p.seen rs).find? (fun x => q x.1.cls) = none := by
  have hclean : ∀ x ∈ p.seen rs, ¬ q x.1.cls = true := fun x hx => by rw [PortAcc.clean_of_seen h x hx, hq]; exact Bool.false_ne_true
  exact ⟨List.any_eq_false.2 hclean, List.find?_eq_none.2 hclean⟩

/-- Clean bytes are not recorded. -/
theorem bmNote_of_clean (port : Nat) (st : BmStat) : bmNote port p rs st = st := by
  have hcorr := PortAcc.seen_none h (p := p) SynClass.corrected rfl
  have hbad := PortAcc.seen_none h (p := p) SynClass.bad rfl
  have hunc := PortAcc.seen_none h (p := p) (fun cls => cls = .uncorrectable) rfl
  have haddr := PortAcc.seen_none h (p := p) (fun cls => cls = .address) rfl
  simp only [bmNote, hcorr, hbad, hunc, haddr, Bool.or_false, Bool.false_eq_true, if_false]

/-- Nor are they faults. -/
theorem bmFault_of_clean (bed : Nat) (s : Device) : bmFault bed p rs s = s := by
  have hcorr := PortAcc.seen_none h (p := p) SynClass.corrected rfl
  have hbad := PortAcc.seen_none h (p := p) SynClass.bad rfl
  simp only [bmFault, hcorr, hbad]

end clean

/-! ## What an access returns (R139, R141) -/

/-- The bytes that a port returns: new ones where a write-first access writes. -/
def PortAcc.returned (p : PortAcc) (c : Coded) : List Byte :=
  (List.range p.nbytes).map fun j => let old := c.raw (p.byte0 + j); if p.we && p.rdw = 1 && p.writes j then p.newByte old j else old

/-- The bits of the word at `p` that a port returns. -/
def PortAcc.returnedBit (p : PortAcc) (c : Coded) (i : Nat) : Bool :=
  let k := p.addr * p.width + i
  if p.we && p.rdw = 1 && accBit (some p) k then accVal (some p) k else memBit c k

section returned
variable {p : PortAcc} {check : Bool} {c : Coded}

/-- A port word is the bits of its bytes from the first bit of the word on. -/
theorem PortAcc.testBit_word {bytes : List Byte} (hl : bytes.length = p.nbytes) (i : Nat) : (p.word bytes).testBit i =
    (decide (i < p.width) && (bytes.getD ((p.addr * p.width + i) / 8 - p.byte0) 0).getLsbD ((p.addr * p.width + i) % 8)) := by
  by_cases hn : p.aspect < 3
  · obtain ⟨hb, hstart, hw⟩ := p.narrow hn
    simp only [PortAcc.word, hn, if_true, testBit_bitsAt, testBit_ofLe]
    by_cases hi : i < p.width
    · rw [show (p.addr * p.width + i) / 8 - p.byte0 = (p.addr * p.width % 8 + i) / 8 by omega,
        show (p.addr * p.width + i) % 8 = (p.addr * p.width % 8 + i) % 8 by omega]
    · simp only [hi, decide_false, Bool.false_and]
  · obtain ⟨hw, hstart⟩ := p.wide hn
    simp only [PortAcc.word, hn, if_false, testBit_ofLe]
    rw [show (p.addr * p.width + i) / 8 - p.byte0 = i / 8 by omega, show (p.addr * p.width + i) % 8 = i % 8 by omega]
    by_cases hi : i < p.width
    · simp only [hi, decide_true, Bool.true_and]
    · have hout : bytes.length ≤ i / 8 := by omega
      simp [hi, hout]

theorem PortAcc.word_returned (p : PortAcc) (c : Coded) : p.word (p.returned c) = maskOf ((List.range p.width).map (p.returnedBit c)) := by
  classical
  refine Nat.eq_of_testBit_eq fun i => ?_
  rw [p.testBit_word (by simp [PortAcc.returned]), testBit_maskOf]
  by_cases hi : i < p.width
  · have hin : p.inWord (p.addr * p.width + i) := ⟨Nat.le_add_right .., Nat.add_lt_add_left hi _⟩
    obtain ⟨j, hj, hk⟩ := p.byte_of_inWord hin
    rw [getD_map_range hi, hk, Nat.add_sub_cancel_left, PortAcc.returned, getD_map_range hj]
    simp only [hi, decide_true, Bool.true_and, PortAcc.returnedBit, accBit_inside hin hk]
    split
    · rw [p.newByte_getLsbD _ hj hk, if_pos hin]
      rfl
    · rw [memBit, hk]
  · simp [hi]

variable (h : c.Sound check)
include h

/-- A port reads the bytes as they stand, all of them clean. -/
theorem PortAcc.reads_of_sound (p : PortAcc) : p.reads check c = (List.range p.nbytes).map fun j => ⟨c.raw (p.byte0 + j), 0, .clean⟩ := by
  refine List.map_congr_left fun j _ => ?_
  cases check with
  | false => rfl
  | true =>
    obtain ⟨hsyn, -⟩ := Coded.clean_of_sound h.dec (h.clean rfl (p.byte0 + j))
    rw [bmByte, if_pos rfl, Coded.read_of_sound h.dec, hsyn, Coded.raw_of_sound h.dec, synClass_zero]
    rfl

theorem PortAcc.clean_of_reads : ∀ r ∈ p.reads check c, r.cls = .clean := by
  rw [PortAcc.reads_of_sound h]
  simp

theorem PortAcc.dataOf_reads : dataOf (p.reads check c) = (List.range p.nbytes).map fun j => c.raw (p.byte0 + j) := by
  rw [PortAcc.reads_of_sound h, dataOf, List.map_map]
  rfl

/-- The bytes that the model merges for a write-first access are those returned. -/
theorem PortAcc.returned_of_sound : (if p.we && p.rdw = 1 then (List.range p.nbytes).map fun j =>
      if p.writes j then p.newByte ((dataOf (p.reads check c)).getD j 0) j else (dataOf (p.reads check c)).getD j 0
      else dataOf (p.reads check c)) = p.returned c := by
  rw [PortAcc.dataOf_reads h, PortAcc.returned]
  split
  next hw =>
    refine List.map_congr_left fun j hj => ?_
    rw [getD_map_range (List.mem_range.1 hj)]
    simp [hw]
  next hw => simp [hw]

/-- The output registers after an access that met no error. -/
theorem PortAcc.output_of_sound (coll : Bool) (old : PortOut) : p.output (p.reads check c) coll old =
    if p.we && p.rdw = 2 then { old with rstat := if coll then 8 else 0 }
    else { rd := BitVec.ofNat 64 (maskOf ((List.range p.width).map (p.returnedBit c))), rstat := if p.we && coll then 8 else 0 } := by
  have hclean := p.clean_of_reads h
  have hseen : ∀ r ∈ if p.we && p.rdw = 1 then ((p.reads check c).zipIdx.filter fun x => !p.writes x.2).map (·.1) else p.reads check c,
      r.cls = .clean := by
    split
    · rintro r hr
      obtain ⟨x, hx, rfl⟩ := List.mem_map.1 hr
      exact hclean _ (List.fst_mem_of_mem_zipIdx (List.mem_filter.1 hx).1)
    · exact hclean
  have hcorr := any_class_of_clean hseen SynClass.corrected rfl
  have hunc := any_class_of_clean hseen (fun cls => cls = .uncorrectable) rfl
  have haddr := any_class_of_clean hseen (fun cls => cls = .address) rfl
  have hbit (b : Bool) : BitVec.ofNat 4 (bit b 3) = if b then 8 else 0 := by cases b <;> rfl
  have hnone (lo : Nat) : bit false lo = 0 := rfl
  simp only [PortAcc.output, PortAcc.returned_of_sound h, anyCorrected, hcorr, hunc, haddr, PortAcc.word_returned, hnone, Nat.zero_add, hbit]

end returned

/-! ## A phase of a memory (R138 to R140) -/

/-- A port's output registers after a phase in which all bytes that it read were clean. -/
def portAfter (c : Coded) (coll : Bool) (p : Option PortAcc) (old : PortOut) : PortOut :=
  p.elim old fun p =>
    if p.we && p.rdw = 2 then { old with rstat := if coll then 8 else 0 }
    else { rd := BitVec.ofNat 64 (maskOf ((List.range p.width).map (p.returnedBit c))), rstat := if p.we && coll then 8 else 0 }

/-- The status of a memory after such a phase. -/
def statAfter (coll : Bool) (st : BmStat) : BmStat :=
  if coll then { st with coll := true, collCnt := if st.collCnt = 255 then 255 else st.collCnt + 1 } else st

theorem statAfter_eq (coll : Bool) (st : BmStat) : statAfter coll st =
    if coll then { st with coll := true, collCnt := BitVec.ofNat 8 (satAdd 8 st.collCnt.toNat 1) } else st := by
  have hcnt : BitVec.ofNat 8 (satAdd 8 st.collCnt.toNat 1) = if st.collCnt = 255 then 255 else st.collCnt + 1 := by
    rw [ofNat_satAdd_one]
    exact ite_congr rfl id fun _ => rfl
  rw [hcnt]
  rfl

/-- The array after the accesses of both ports: port A's prevail. -/
def phaseStored (check : Bool) (pa pb : Option PortAcc) (c : Coded) : Coded :=
  storeOf check (fun _ => false) pa (storeOf check (accHit pa) pb c)

/-- The table of output registers after the access of the port with entry `key`. -/
def loadPort (check : Bool) (c : Coded) (coll : Bool) (key : Nat) (p : Option PortAcc) (ports : Sparse PortOut) : Sparse PortOut :=
  p.elim ports fun p => ports.modify PortOut.zero key (p.output (p.reads check c) coll)

/-- The bed after the accesses of both ports of memory `m`. -/
def phaseBed (m : Nat) (pa pb : Option PortAcc) (c : Coded) (x : Bed) : Bed :=
  let check := (x.cfg.bms.get BmCfg.reset m).check
  let coll := collides pa pb
  { x with
    ports := loadPort check c coll (m * 2 + 1) pb (loadPort check c coll (m * 2) pa x.ports)
    bmStat := x.bmStat.set BmStat.reset m (statAfter coll (x.bmStat.get BmStat.reset m)) }

section phase
variable {check : Bool} {c : Coded} (h : c.Sound check)
include h

theorem Coded.Sound.phaseStored (pa pb : Option PortAcc) : (phaseStored check pa pb c).Sound check := (h.storeOf pb).storeOf pa

theorem memBit_phaseStored (pa pb : Option PortAcc) (k : Nat) : memBit (Machine.phaseStored check pa pb c) k =
    if accBit pa k then accVal pa k else if accBit pb k && !accHit pa (k / 8) then accVal pb k else memBit c k := by
  rw [Machine.phaseStored, memBit_storeOf (h.storeOf pb), memBit_storeOf h]
  simp only [and_true, Bool.and_eq_true, Bool.not_eq_true']

theorem get_loadPort (coll : Bool) (key : Nat) (p : Option PortAcc) (ports : Sparse PortOut) (q : Nat) :
    (loadPort check c coll key p ports).get PortOut.zero q =
      if q = key then portAfter c coll p (ports.get PortOut.zero q) else ports.get PortOut.zero q := by
  cases p with
  | none => exact (ite_self _).symm
  | some p =>
    rw [loadPort, Option.elim_some, Sparse.modify, Sparse.get_set]
    refine ite_congr rfl (fun hq => ?_) fun _ => rfl
    rw [PortAcc.output_of_sound h, hq]
    rfl

/-- Each port of the memory has its own registers, and no access leaves them. -/
theorem get_ports_phaseBed {x : Bed} {m : Nat} (hx : (x.cfg.bms.get BmCfg.reset m).check = check) (pa pb : Option PortAcc) (q : Nat) :
    (phaseBed m pa pb c x).ports.get PortOut.zero q =
      portAfter c (collides pa pb) (if q = m * 2 then pa else if q = m * 2 + 1 then pb else none) (x.ports.get PortOut.zero q) := by
  rw [phaseBed, hx]
  simp only [get_loadPort h]
  by_cases ha : q = m * 2
  · rw [if_neg (by omega : ¬ q = m * 2 + 1), if_pos ha, if_pos ha]
  · simp only [if_neg ha]
    split <;> rfl

end phase

/-- A phase of a memory whose bytes are clean, with nothing injected. -/
theorem bmPhase_of_sound {s : Device} {n m : Nat} (pa pb : Option PortAcc) (harm : (bedAt s n).inject.arm = false)
    (h : (arrayAt s 0 (n * 48 + m)).Sound ((bedAt s n).cfg.bms.get BmCfg.reset m).check) :
    bmPhase n m pa pb s = setBed n (phaseBed m pa pb (arrayAt s 0 (n * 48 + m)) (bedAt s n))
      (setArray 0 (n * 48 + m) (phaseStored ((bedAt s n).cfg.bms.get BmCfg.reset m).check pa pb (arrayAt s 0 (n * 48 + m))) s) := by
  have hnote (p : PortAcc) (port : Nat) (st : BmStat) := bmNote_of_clean (p := p) (PortAcc.clean_of_reads (p := p) h) port st
  have hfault (p : PortAcc) (s : Device) := bmFault_of_clean (p := p) (PortAcc.clean_of_reads (p := p) h) n s
  have hhit (p : PortAcc) : (fun a => (List.range p.nbytes).any fun j => p.writes j && p.byte0 + j = a) = accHit (some p) := by
    funext a
    rw [Bool.eq_iff_iff, accHit_some]
    simp
  unfold bmPhase
  simp only [harm, Bool.false_and]
  -- Which ports make an access; each one's part is by its own lemma.
  rcases pa with _ | pa <;> rcases pb with _ | pb <;>
    simp only [hnote, hfault, hhit, statAfter_eq, phaseBed, phaseStored, loadPort, PortAcc.store_eq, Option.map_some, Option.getD_some,
      Bool.false_eq_true, if_false, Option.elim] <;> rfl

theorem memRow_running {s : Device} {n m : Nat} (hst : (bedAt s n).st = .running) (hb : (bedAt s n).border.bound = none) :
    memRow n m s = bmPhase n m (portAcc s n m 0) (portAcc s n m 1) { s with free := s.free + 1 } := by
  simp only [memRow, hst, atBoundary, hb, decide_true, Option.isSome_none, Bool.not_false, Bool.and_self, if_true]
  rfl

/-- Settles O20: the row leaves what `bmPhase_of_sound` says; what is stored is told bit by bit (`memBit_phaseStored`), what each port
returns by its own registers (`get_ports_phaseBed`), and collisions by the bytes that both ports write (`collides_iff`). -/
theorem blockMemoryAccess : Obligations.BlockMemoryAccess := by
  unfold Obligations.BlockMemoryAccess
  intro s b m n key x cfg c pa pb coll
  refine ⟨collides_iff pa pb, fun hst hb hdec harm hclean => ?_⟩
  have hc : c.Sound cfg.check := ⟨hdec, hclean⟩
  have hrow : memRow n m.val s.dev = setBed n (phaseBed m.val pa pb c x)
      (setArray 0 key (phaseStored cfg.check pa pb c) { s.dev with free := s.dev.free + 1 }) :=
    (memRow_running hst hb).trans (bmPhase_of_sound pa pb harm hc)
  obtain ⟨d, hx, hd⟩ := Completes.of_eq (i := .blockMemoryPortAccess b m) (s := s) rfl hrow ⟨rfl, rfl, rfl, rfl⟩
  have hbed : bedAt d n = phaseBed m.val pa pb c x := by rw [hd, bedAt_setBed]
  have harray : arrayAt d 0 key = phaseStored cfg.check pa pb c := by rw [hd]; exact arrayAt_setArray ..
  refine ⟨d, hx, ?_⟩
  simp only [hbed, harray]
  refine ⟨memBit_phaseStored hc pa pb, (hc.phaseStored pa pb).clean, fun k hk => ?_, fun q => ?_, rfl, fun q => ?_, fun q hq => ?_, ?_⟩
  · rw [hd]
    exact Sparse.get_set_ne _ _ _ hk
  · rw [get_ports_phaseBed hc rfl]
    generalize (if q = m.val * 2 then pa else if q = m.val * 2 + 1 then pb else none) = acc
    cases acc <;> rfl
  · rw [phaseBed, Sparse.get_set]
    by_cases hq : q = m.val
    · simp only [hq, if_true, decide_true, Bool.true_and]
      rfl
    · simp only [hq, if_false, decide_false, Bool.false_and, Bool.false_eq_true]
  · rw [hd]
    exact bedAt_setBed_ne _ _ hq
  · rw [hd]
    rfl

end Sys2Proof.Machine
end
